-- ==== Sys2Proof/Config.lean ====
section
/-! DEFINITION. The free values: constants without a body, which no proof can see into. Each is applied to `draw`, the value
of State's counter `freeDraws` when it is used (a counter every completed command advances), and to an index that keeps two
uses in one command apart. -/

namespace Sys2Proof.Config

/-- What is sent in a field whose value does not fit its width: R180 gives the width and no rule for such a value (log 12). -/
opaque overwide : (draw index : Nat) → Nat

/-- The keys that decide the order of events the manual does not order: two line changes of one LINES write (log 10), the
settlements of one CLEAR SITE (R161, log 11), expiries due at one instant (log 2). -/
opaque orderKey : (draw index : Nat) → Nat

end Sys2Proof.Config
end

