-- ==== Sys2Proof/Word.lean ====
section
/-! DEFINITION. The byte type, the index types of the part's fixed tables, and the plainest arithmetic the manual uses. -/

namespace Sys2Proof

/-- One byte of a host frame or of a loop frame. -/
abbrev Byte := BitVec 8

/-- A bay, by its loop address 0 to 47 (spec 00, "indices"). -/
abbrev BayId := Fin 48

/-- A session slot, 0 to 63. -/
abbrev SlotId := Fin 64

/-- A canopy inverter, 0 to 5. -/
abbrev InverterId := Fin 6

/-- An entry of the standing account table, 0 to 15. -/
abbrev AccountId := Fin 16

/-- A feeder, 0 to 3. -/
abbrev FeederId := Fin 4

/-- A tariff band, 0 to 3. -/
abbrev BandId := Fin 4

/-- An entry of the field loop controller's device table, in ascending order of loop address (R18). -/
abbrev Entry := Fin 56

/-- ceil(a / b) for b above 0 (spec 00, "rounding"). -/
def ceilDiv (a b : Nat) : Nat := (a + b - 1) / b

/-- A number brought to the nearer bound of its range (R1, step 4). -/
def clamp (lo hi n : Nat) : Nat := max lo (min hi n)

end Sys2Proof
end

