-- ==== Sys2Proof/Syntax.lean ====
section
/-! DEFINITION. The commands: one constructor for each row of spec/opcode_table.json, with its operands. -/

namespace Sys2Proof

/-- The level of a pin (R12, R13). -/
inductive Level where
  | high
  | low
deriving DecidableEq, Repr

/-- The two qualified input lines (R12); the argument of LINE_CHANGE is 0 for SHED and 1 for RSV_REQ. -/
inductive Line where
  | shed
  | rsvReq
deriving DecidableEq, Repr

/-- One character received on the loop: its 8 data bits, its parity bit and its stop bit (R182). -/
structure RxChar where
  data : Byte
  parity : Bool
  stop : Bool
deriving DecidableEq, Repr

/-- The rows of the table of operations and events. A request row carries the payload bytes of the request that the owning
block takes (R169, Table 10-2); an expiry row carries the slot or bay whose timer expires. -/
inductive Instr where
  /-- RESET: power-on, or RESET_N low. -/
  | reset
  /-- HOST_WRITE_TRANSACTION: the bytes clocked in when the host raises chip select. -/
  | hostWriteTransaction (bytes : List Byte)
  /-- HOST_READ_TRANSACTION: how many bytes the host clocks out. -/
  | hostReadTransaction (count : Nat)
  | siteLimits (payload : List Byte)
  | fallbackLoad (payload : List Byte)
  | battery (payload : List Byte)
  | layout (payload : List Byte)
  | timing (payload : List Byte)
  | lines (payload : List Byte)
  | declareBay (payload : List Byte)
  | removeBay (payload : List Byte)
  | declareSource (payload : List Byte)
  | removeSource (payload : List Byte)
  | clock (payload : List Byte)
  | tariff (payload : List Byte)
  | blockSize (payload : List Byte)
  | issueCredit (payload : List Byte)
  | decline (payload : List Byte)
  | voidCredit (payload : List Byte)
  | queryCredit (payload : List Byte)
  | queryPendingList (payload : List Byte)
  | account (payload : List Byte)
  | readAccount (payload : List Byte)
  | listSessions (payload : List Byte)
  | readSession (payload : List Byte)
  | takeReceipt (payload : List Byte)
  | stop (payload : List Byte)
  | suspend (payload : List Byte)
  | resume (payload : List Byte)
  | resumeAll (payload : List Byte)
  | clearSite (payload : List Byte)
  | readBay (payload : List Byte)
  | clearBayFault (payload : List Byte)
  | readSite (payload : List Byte)
  | readNotices (payload : List Byte)
  | ackNotice (payload : List Byte)
  | noticeMask (payload : List Byte)
  /-- LINE_PIN_CHANGE: the pin and the level it now has. -/
  | linePinChange (line : Line) (level : Level)
  /-- LINE_QUALIFIED: the pin whose level has held for 20 ms. -/
  | lineQualified (line : Line)
  | bayPoll
  | sourcePoll
  | bayPollSent
  | sourcePollSent
  | responseTimeout
  /-- RESPONSE_RECEIVED: the characters received from the first start bit to the end of reception. -/
  | responseReceived (chars : List RxChar)
  | passEnd
  | refreshTimerExpiry
  | authDeadline (slot : SlotId)
  | endDeadline (slot : SlotId)
  | ackDeadline (bay : BayId)
  | lostDeadline (bay : BayId)
  | queryDeadline (bay : BayId)
  | dayRollover
  /-- BAD_REQUEST_FRAME: the whole frame held, which HP answers itself. -/
  | badRequestFrame (bytes : List Byte)
deriving DecidableEq, Repr

end Sys2Proof
end

