-- ==== Sys2Proof/Decode.lean ====
section
/-! DEFINITION. Reading commands from bits: the opcode table gives no row any bits, so `decodeTableWord` answers none; and
the reading of a host request frame as the row that takes it (R169, R179, Table 10-2), with its encoder. -/

namespace Sys2Proof

/-- The payload of DECLARE BAY of kind NONE, the row REMOVE_BAY (R20, Table 11-8). -/
def isBayRemoval (p : List Byte) : Bool := p.length == 5 && p.getD 1 0 == 3

/-- The payload of DECLARE SOURCE with the mark remove, the row REMOVE_SOURCE (R21, Table 11-8). -/
def isSourceRemoval (p : List Byte) : Bool := p.length == 4 && p.getD 1 0 == 1

/-- The payload of QUERY CREDIT with key 0, the row QUERY_PENDING_LIST (R125). -/
def isPendingListQuery (p : List Byte) : Bool := p == [0, 0, 0, 0]

/-- The payload of RESUME for all slots, the row RESUME_ALL (R106). -/
def isResumeAll (p : List Byte) : Bool := p == [255]

/-- The most significant byte first reading of a list of bytes (spec 11). -/
def beNat (bs : List Byte) : Nat := bs.foldl (fun n b => n * 256 + b.toNat) 0

/-- The command a word of opcode_table.json's bits spells: no row of the table gives bits. -/
def decodeTableWord (_nbits _w : Nat) : Option Instr := none

/-- The row that takes a request of a kind, by the rows of Table 10-2 (R179); `none` for a kind that is not a request. -/
def requestRow (kind : Nat) (p : List Byte) : Option Instr :=
  match kind with
  | 1 => some (.siteLimits p)
  | 2 => some (.layout p)
  | 3 => some (.battery p)
  | 4 => some (.timing p)
  | 5 => some (.lines p)
  | 6 => some (.fallbackLoad p)
  | 7 => some (if isBayRemoval p then .removeBay p else .declareBay p)
  | 8 => some (if isSourceRemoval p then .removeSource p else .declareSource p)
  | 9 => some (.clock p)
  | 10 => some (.tariff p)
  | 11 => some (.blockSize p)
  | 12 => some (.issueCredit p)
  | 13 => some (.decline p)
  | 14 => some (.voidCredit p)
  | 15 => some (if isPendingListQuery p then .queryPendingList p else .queryCredit p)
  | 16 => some (.account p)
  | 17 => some (.readAccount p)
  | 18 => some (.listSessions p)
  | 19 => some (.readSession p)
  | 20 => some (.takeReceipt p)
  | 21 => some (.stop p)
  | 22 => some (.suspend p)
  | 23 => some (if isResumeAll p then .resumeAll p else .resume p)
  | 24 => some (.clearSite p)
  | 25 => some (.readBay p)
  | 26 => some (.clearBayFault p)
  | 27 => some (.readSite p)
  | 28 => some (.readNotices p)
  | 29 => some (.ackNotice p)
  | 30 => some (.noticeMask p)
  | _ => none

/-- The row that takes the request frame held in PROCESSING: HP's two checks (R169), then the owning block's row. -/
def requestOf (f : List Byte) : Instr :=
  if 3 ≤ f.length ∧ f.length = 3 + beNat ((f.drop 1).take 2) then
    (requestRow (f.getD 0 0).toNat (f.drop 3)).getD (.badRequestFrame f)
  else .badRequestFrame f

/-- The request kind and payload of a request row (Table 10-2, Table 11-8). -/
def Instr.requestKind : Instr → Option (Nat × List Byte)
  | .siteLimits p => some (1, p)
  | .layout p => some (2, p)
  | .battery p => some (3, p)
  | .timing p => some (4, p)
  | .lines p => some (5, p)
  | .fallbackLoad p => some (6, p)
  | .declareBay p => some (7, p)
  | .removeBay p => some (7, p)
  | .declareSource p => some (8, p)
  | .removeSource p => some (8, p)
  | .clock p => some (9, p)
  | .tariff p => some (10, p)
  | .blockSize p => some (11, p)
  | .issueCredit p => some (12, p)
  | .decline p => some (13, p)
  | .voidCredit p => some (14, p)
  | .queryCredit p => some (15, p)
  | .queryPendingList p => some (15, p)
  | .account p => some (16, p)
  | .readAccount p => some (17, p)
  | .listSessions p => some (18, p)
  | .readSession p => some (19, p)
  | .takeReceipt p => some (20, p)
  | .stop p => some (21, p)
  | .suspend p => some (22, p)
  | .resume p => some (23, p)
  | .resumeAll p => some (23, p)
  | .clearSite p => some (24, p)
  | .readBay p => some (25, p)
  | .clearBayFault p => some (26, p)
  | .readSite p => some (27, p)
  | .readNotices p => some (28, p)
  | .ackNotice p => some (29, p)
  | .noticeMask p => some (30, p)
  | .reset | .hostWriteTransaction _ | .hostReadTransaction _ | .linePinChange _ _ | .lineQualified _ | .bayPoll
  | .sourcePoll | .bayPollSent | .sourcePollSent | .responseTimeout | .responseReceived _ | .passEnd
  | .refreshTimerExpiry | .authDeadline _ | .endDeadline _ | .ackDeadline _ | .lostDeadline _ | .queryDeadline _
  | .dayRollover | .badRequestFrame _ => none

/-- The request frame of a kind and payload: kind, payload length high byte first, payload (Table 11-1). -/
def frameOf (kind : Nat) (p : List Byte) : List Byte :=
  BitVec.ofNat 8 kind :: BitVec.ofNat 8 (p.length / 256) :: BitVec.ofNat 8 p.length :: p

/-- The request frame the host writes for a request row. -/
def Instr.requestFrame (i : Instr) : Option (List Byte) :=
  i.requestKind.map (fun kp => frameOf kp.1 kp.2)

end Sys2Proof
end

