-- ==== Sys2Proof/Machine/State.lean ====
section
/-! DEFINITION. The state of the part as plain data, grouped by the blocks of Table 0-1, its reset value, and the reasons a
step could stop. Quantities are `Nat` in the units of Table 0-3; signed ones are `Int`; deadlines are instants of the run timer in ms. -/

namespace Sys2Proof.Machine

/-! ## Site configuration (chapter 1) -/

/-- The fallback store load (R3). -/
inductive Fallback where
  | follow
  | fixed (steps : Nat)
deriving DecidableEq, Repr

/-- The loop rate (R7, R180). -/
inductive LoopRate where
  | b19200
  | b57600
  | b115200
deriving DecidableEq, Repr

/-- The timing parameters of Table 1-4: waits in s, the gap in bit times, allowances in ms. -/
structure Timing where
  tAck : Nat := 5
  tLost : Nat := 60
  tAuth : Nat := 180
  tEnd : Nat := 30
  tQuery : Nat := 20
  loopRate : LoopRate := .b57600
  pollGap : Nat := 20
  acAllowance : Nat := 10
  dcAllowance : Nat := 20
  sourceAllowance : Nat := 20
  missThreshold : Nat := 3
deriving DecidableEq, Repr

/-- The three session classes, ranked in this order (R45, R67). -/
inductive SessionClass where
  | firm
  | rapid
  | ordinary
deriving DecidableEq, Repr

/-- The shed scope: a set of session classes (R13). -/
structure ShedScope where
  firm : Bool := false
  rapid : Bool := true
  ordinary : Bool := true
deriving DecidableEq, Repr

/-- The resume mode (R13). -/
inductive ResumeMode where
  | auto
  | commanded
deriving DecidableEq, Repr

/-- The line settings of Table 1-6. -/
structure LineSettings where
  shedActive : Level := .high
  rsvReqActive : Level := .high
  rsvAckActive : Level := .high
  scope : ShedScope := {}
  resumeMode : ResumeMode := .auto
deriving DecidableEq, Repr

/-- An input pin: its level, the instant since which it has held it, and the level last taken for it (R12). -/
structure Pin where
  level : Level := .low
  since : Nat := 0
  taken : Level := .low
deriving DecidableEq, Repr

/-- The configuration gate (R9). -/
inductive Gate where
  | closed
  | opened
deriving DecidableEq, Repr

/-- The reserve (R16). -/
inductive Reserve where
  | free
  | claimed
  | granted
deriving DecidableEq, Repr

/-- The site configuration block. -/
structure SiteConfig where
  importCap : Nat := 0
  margin : Nat := 0
  exportCap : Nat := 0
  fallback : Fallback := .follow
  eCap : Nat := 0
  eFloor : Nat := 0
  pDis : Nat := 0
  pCh : Nat := 0
  layoutMode : Nat := 0
  feederLimits : Vector Nat 4 := Vector.replicate 4 0
  timing : Timing := {}
  lines : LineSettings := {}
  limitsMark : Bool := false
  layoutMark : Bool := false
  gate : Gate := .closed
  shedPin : Pin := {}
  rsvReqPin : Pin := {}
  reserve : Reserve := .free
deriving DecidableEq, Repr

/-! ## Field loop controller (chapter 2) -/

/-- The declared kind of a device (Table 2-2). -/
inductive DeviceKind where
  | ac1
  | ac3
  | dc
  | canopy
  | battery
  | meter
deriving DecidableEq, Repr

/-- Whether a device is answering (R18). -/
inductive Link where
  | offline
  | online
deriving DecidableEq, Repr

/-- The kind of the latest miss (R18, R27). -/
inductive MissKind where
  | noMiss
  | parity
  | frame
  | check
  | address
  | timeout
deriving DecidableEq, Repr

/-- A device table entry (Table 2-2). -/
structure Device where
  declared : Bool := false
  kind : DeviceKind := .ac1
  declaredMax : Nat := 0
  link : Link := .offline
  missCount : Nat := 0
  lastMiss : MissKind := .noMiss
  lastSent : Int := 0
  lastScanTag : Nat := 0
  lastReportTime : Nat := 0
deriving DecidableEq, Repr

/-- A poll that has been built: the device, the value carried (last sent once it has gone out), the frame on TX, the
allowance and the loop rate the exchange began with (R8), and whether the device was removed meanwhile (R38). -/
structure Poll where
  entry : Entry
  value : Int
  frame : List Byte
  allowance : Nat
  rate : LoopRate
  removed : Bool := false
deriving DecidableEq, Repr

/-- The exchange in flight (R23): none, a poll being sent, or its response awaited until an instant. -/
inductive Exchange where
  | quiet
  | sending (poll : Poll)
  | awaiting (poll : Poll) (deadline : Nat)
deriving DecidableEq, Repr

/-- The kind of the device at an entry after reset: AC1 for a bay (R18). -/
def resetKind (e : Nat) : DeviceKind :=
  if e < 48 then .ac1 else if e < 54 then .canopy else if e = 54 then .battery else .meter

/-- The field loop controller: its device table, the poll position, the device that starts the cycle (R22), the exchange,
and the instant from which the poll gap is counted (R24). -/
structure FieldLoop where
  devices : Vector Device 56 := Vector.ofFn fun e => { kind := resetKind e }
  position : Option Entry := none
  start : Option Entry := none
  exchange : Exchange := .quiet
  gapFrom : Nat := 0
deriving DecidableEq, Repr

/-! ## Bay table (chapters 3 and 5) -/

/-- A bay's kind (R39). -/
inductive BayKind where
  | ac1
  | ac3
  | dc
deriving DecidableEq, Repr

/-- The result of the identity check (R31, R32). -/
inductive Identity where
  | unchecked
  | matched
  | mismatch
deriving DecidableEq, Repr

/-- The bay states of Table 3-2. -/
inductive BayState where
  | idle
  | occupied
  | stopped
  | fault
  | blocked
  | waitingSlot
deriving DecidableEq, Repr

/-- The codes a message may carry (R41). -/
inductive MessageCode where
  | creditOk
  | creditInUse
  | creditNotValid
  | creditNotFound
  | plugFirst
deriving DecidableEq, Repr

/-- A message with its count of polls, and whether the poll now being sent carries it (R41, log 25). -/
structure Message where
  code : MessageCode
  count : Nat
  inPoll : Bool := false
deriving DecidableEq, Repr

/-- The scan slot of a bay (Table 6-4). -/
inductive ScanSlot where
  | empty
  | pending (key overwrites deadline : Nat)
deriving DecidableEq, Repr

/-- The RUNNING ack wait: ack_deadline and the deadline grant (Table 5-1). -/
structure AckWait where
  deadline : Nat
  grant : Nat
deriving DecidableEq, Repr

/-- A bay record (Table 3-3) with the handover state of Table 5-1; committed is computed from it. -/
structure Bay where
  declared : Bool := false
  kind : BayKind := .ac1
  maxSteps : Nat := 0
  minSteps : Nat := 0
  meterWidth : Nat := 16
  feeder : FeederId := 0
  identity : Identity := .unchecked
  state : BayState := .idle
  plug : Bool := false
  output : Bool := false
  session : Option SlotId := none
  grantSet : Nat := 0
  grantAck : Nat := 0
  ackWait : Option AckWait := none
  lostDeadline : Option Nat := none
  stopFlag : Bool := false
  lastRegister : Nat := 0
  lastReportTime : Nat := 0
  scan : ScanSlot := .empty
  message : Option Message := none
deriving DecidableEq, Repr

/-! ## Session table (chapters 3, 8 and 9) -/

/-- The session states of Table 3-1. -/
inductive SessionState where
  | free
  | opening
  | waiting
  | charging
  | suspended
  | ending
  | settled
deriving DecidableEq, Repr

/-- The means of payment (R45). -/
inductive Payment where
  | unpaid
  | card
  | account
deriving DecidableEq, Repr

/-- The cause of a suspension (R102 to R105). -/
inductive SuspendCause where
  | shed
  | commanded
deriving DecidableEq, Repr

/-- The end causes of Table 3-6. -/
inductive EndCause where
  | unplugged
  | customerStop
  | commandStop
  | capReached
  | creditExhausted
  | bayFault
  | linkLost
  | authTimeout
  | siteClear
deriving DecidableEq, Repr

/-- An allowance source: a receipt credit by its key, or a standing account by its index (R45). -/
inductive Source where
  | credit (key : Nat)
  | account (index : AccountId)
deriving DecidableEq, Repr

/-- A trading day and second of the tariff clock. -/
structure Stamp where
  day : Nat := 0
  second : Nat := 0
deriving DecidableEq, Repr

/-- The receipt flags (R45, R159). -/
structure ReceiptFlags where
  meterDiscontinuity : Bool := false
  endUnconfirmed : Bool := false
  linkLostDuring : Bool := false
deriving DecidableEq, Repr

/-- The receipt (Table 9-2). -/
structure Receipt where
  slot : SlotId
  sequence : Nat
  bay : BayId
  openTime : Stamp
  endTime : Stamp
  endCause : Option EndCause
  payment : Payment
  spendCap : Option Nat
  accountIndex : Option AccountId
  creditKey : Option Nat
  energyWh : Nat
  solarWh : Nat
  batteryWh : Nat
  gridWh : Nat
  coveredWh : Nat
  amountDue : Nat
  flags : ReceiptFlags
deriving DecidableEq, Repr

/-- A session slot (Table 3-5), with account_hold (R128), the last credit key (R158) and the receipt (R155). -/
structure Slot where
  state : SessionState := .free
  sequence : Nat := 0
  bay : BayId := 0
  cls : SessionClass := .ordinary
  arrival : Nat := 0
  openTime : Stamp := {}
  endTime : Option Stamp := none
  payment : Payment := .unpaid
  spendCap : Option Nat := none
  accountIndex : Option AccountId := none
  source : Option Source := none
  blockLeft : Nat := 0
  finalBlock : Bool := false
  runPermit : Bool := false
  suspendCause : Option SuspendCause := none
  energyWh : Nat := 0
  solar : Nat := 0
  battery : Nat := 0
  grid : Nat := 0
  covered : Nat := 0
  cost : Nat := 0
  demand : Nat := 0
  baselineSet : Bool := false
  endCause : Option EndCause := none
  flags : ReceiptFlags := {}
  authDeadline : Option Nat := none
  endDeadline : Option Nat := none
  accountHold : Bool := false
  lastCreditKey : Option Nat := none
  receipt : Option Receipt := none
deriving DecidableEq, Repr

/-- The session table's slots, sequence counter and arrival counter (R45). -/
structure SessionTable where
  slots : Vector Slot 64 := Vector.replicate 64 {}
  sequence : Nat := 1
  arrival : Nat := 0
deriving DecidableEq, Repr

/-! ## Allocator (chapter 4) -/

/-- A member of the admission queue (R67). -/
structure Member where
  slot : SlotId
  cls : SessionClass
  arrival : Nat
  demandInUse : Nat
deriving DecidableEq, Repr

/-- The pass state (R69). -/
inductive PassState where
  | idle
  | running
deriving DecidableEq, Repr

/-- A queue member as a snapshot holds it (R75), with the firm_steps of its account (R130) and the sequence number by which the
end of the pass knows the same session again (R84, log 41). -/
structure SnapMember where
  slot : SlotId
  sequence : Nat
  cls : SessionClass
  arrival : Nat
  bay : BayId
  state : SessionState
  runPermit : Bool
  demand : Nat
  firmSteps : Nat
deriving DecidableEq, Repr

/-- A bay as a snapshot holds it (R75), with its standing power (R76). -/
structure SnapBay where
  declared : Bool
  state : BayState
  online : Bool
  session : Option SlotId
  stopFlag : Bool
  kind : BayKind
  maxSteps : Nat
  minSteps : Nat
  feeder : FeederId
  standing : Nat
deriving DecidableEq, Repr

/-- A canopy inverter as a snapshot holds it (R75). -/
structure SnapInverter where
  declared : Bool
  online : Bool
  rating : Nat
  lastPower : Nat
deriving DecidableEq, Repr

/-- The snapshot of a pass (R75). -/
structure Snapshot where
  importCap : Nat
  margin : Nat
  exportCap : Nat
  feederLimits : Vector Nat 4
  fallbackLoad : Nat
  meterDeclared : Bool
  meterOnline : Bool
  storeLoad : Nat
  inverters : Vector SnapInverter 6
  batteryDeclared : Bool
  batteryOnline : Bool
  soe : Nat
  eCap : Nat
  eFloor : Nat
  pDis : Nat
  pCh : Nat
  permit : Bool
  reserve : Reserve
  queue : List SnapMember
  bays : Vector SnapBay 48
deriving DecidableEq, Repr

/-- The share record: per-mille shares and the pass number (R87). -/
structure ShareRecord where
  solar : Nat := 0
  battery : Nat := 0
  grid : Nat := 1000
  passNumber : Nat := 0
deriving DecidableEq, Repr

/-- A canopy inverter's source record: rating, last power, the limit held, and the mark that a pass now running may not
write its limit (R35, R88). -/
structure Inverter where
  rating : Nat := 0
  lastPower : Nat := 0
  limit : Nat := 0
  fresh : Bool := false
deriving DecidableEq, Repr

/-- The battery's source record: SoE, applied setpoint, the setpoint held, and the mark that a pass now running writes
setpoint 0 (R36, R89). -/
structure BatteryRecord where
  soe : Nat := 0
  applied : Int := 0
  setpoint : Int := 0
  fresh : Bool := false
deriving DecidableEq, Repr

/-- The last-pass record (Table 4-4); its pass number and shares are those of the share record (R90). -/
structure LastPass where
  load : Nat := 0
  canopy : Nat := 0
  b0 : Int := 0
  dm : Nat := 0
  discharge : Nat := 0
  charge : Nat := 0
  budget : Nat := 0
  granted : Nat := 0
  netImport : Int := 0
  curtailed : Option Nat := none
  setpoint : Int := 0
  batteryAvailable : Bool := false
  held : Nat := 0
  trimmed : Nat := 0
deriving DecidableEq, Repr

/-- The allocator. While a step is under way a pass that has just begun is RUNNING with no snapshot; the snapshot is taken
at the end of that step (log 6). -/
structure Allocator where
  queue : List Member := []
  passState : PassState := .idle
  snapshot : Option Snapshot := none
  again : Bool := false
  pendingRequest : Bool := false
  refresh : Option Nat := none
  permit : Bool := false
  share : ShareRecord := {}
  usedLoad : Nat := 0
  usedCanopy : Nat := 0
  inverters : Vector Inverter 6 := Vector.replicate 6 {}
  battery : BatteryRecord := {}
  storeLoad : Nat := 0
  lastPass : LastPass := {}
deriving DecidableEq, Repr

/-! ## Credit store (chapters 6 and 7) -/

/-- The state of a live credit record (R109). -/
inductive CreditState where
  | issued
  | held
deriving DecidableEq, Repr

/-- A live credit record (Table 6-2). -/
structure Credit where
  key : Nat
  state : CreditState
  originalWh : Nat
  remainingWh : Nat
  solarOnly : Bool
  expiryDay : Nat
  till : Nat
  holder : Option SlotId
  voided : Bool
  expired : Bool
deriving DecidableEq, Repr

/-- The class of an account (R126). -/
inductive AccountClass where
  | firm
  | ordinary
deriving DecidableEq, Repr

/-- A standing account entry (Table 7-1). -/
structure Account where
  token : Nat := 0
  enabled : Bool := false
  cls : AccountClass := .ordinary
  firmSteps : Nat := 0
  allowanceWh : Nat := 0
  remainingWh : Nat := 0
  solarOnly : Bool := false
  maxHolders : Nat := 0
  holders : Nat := 0
deriving DecidableEq, Repr

/-- The credit store: its live records in ascending order of key (log 27), the account table and the block size. -/
structure CreditStore where
  credits : List Credit := []
  accounts : Vector Account 16 := Vector.replicate 16 {}
  blockSize : Nat := 1000
deriving DecidableEq, Repr

/-! ## Tariff clock (chapter 8) -/

/-- A tariff band: its start minute, absent when unused, and its price (Table 8-3). -/
structure Band where
  start : Option Nat := none
  price : Nat := 0
deriving DecidableEq, Repr

/-- The tariff clock (Table 8-3), with the milliseconds counted toward the next second (R149). -/
structure TariffClock where
  day : Nat := 0
  second : Nat := 0
  millis : Nat := 0
  bands : Vector Band 4 := Vector.replicate 4 {}
  canopyPrice : Nat := 0
deriving DecidableEq, Repr

/-! ## Host port (chapter 10) -/

/-- The status codes of Table 10-1. -/
inductive Status where
  | ok
  | okClamped
  | badRequest
  | outOfRange
  | notConfigured
  | notFound
  | duplicate
  | tableFull
  | inUse
  | wrongState
  | notSafe
deriving DecidableEq, Repr

/-- A response in the response buffer; the dropped-request count is put into its frame when it is read (R170). -/
structure Response where
  status : Status
  kindEcho : Byte
  payload : List Byte
deriving DecidableEq, Repr

/-- The port state with the buffer that it holds (R168). -/
inductive Port where
  | idle
  | processing (request : List Byte)
  | responseWaiting (response : Response)
deriving DecidableEq, Repr

/-- The notice kinds of Table 10-4. -/
inductive NoticeKind where
  | receiptReady
  | creditQuery
  | bayFault
  | meterJump
  | slotShortage
  | supplyShort
  | loopDevice
  | lineChange
  | accountExhausted
  | tableFullCredit
deriving DecidableEq, Repr

/-- A notice: its count, the argument of its latest occurrence (with the key, for CREDIT_QUERY), and its mask bit (R175). -/
structure Notice where
  count : Nat := 0
  argument : Nat := 0
  key : Nat := 0
  masked : Bool := true
deriving DecidableEq, Repr

/-- The host port; `miso` is the model's record of the bytes the latest read transaction clocked out (log 19). -/
structure HostPort where
  port : Port := .idle
  dropped : Nat := 0
  notices : Vector Notice 10 := Vector.replicate 10 {}
  attn : Bool := false
  miso : List Byte := []
deriving DecidableEq, Repr

/-! ## The part -/

/-- The whole state: the queue of waiting commands, the run timer in ms, the model's free-value counter, and the eight blocks. -/
structure State where
  pending : List Instr := []
  runTimer : Nat := 0
  freeDraws : Nat := 0
  sc : SiteConfig := {}
  flc : FieldLoop := {}
  bays : Vector Bay 48 := Vector.replicate 48 {}
  st : SessionTable := {}
  al : Allocator := {}
  cs : CreditStore := {}
  tc : TariffClock := {}
  hp : HostPort := {}
deriving DecidableEq, Repr

/-- The part right after reset: every field at the value its chapter gives; the queue is empty. -/
def State.reset : State := {}

/-- What stops the machine with a fault: nothing. The manual names no event that stops the part (INVENTORY, Faults). -/
inductive Fault where
deriving DecidableEq, Repr

/-- What the machine refuses. -/
inductive Refusal where
  /-- Raised by `exec` for a row that has no meaning yet; safe, since nothing can be proved of what the row does. -/
  | notModelled (mnemonic : String)
deriving DecidableEq, Repr

/-- The outcome of a step of this machine. -/
abbrev Outcome := Host.Outcome State Fault Refusal

end Sys2Proof.Machine
end

