-- ==== Sys2Proof/Machine/Operands.lean ====
section
/-! DEFINITION. Every operand form: the fields of host payloads and loop frames, the codes of enumerations, the loop check,
the conversion between steps and currents, and the characters and payloads a loop device sends (chapter 11, R86). -/

namespace Sys2Proof.Machine

/-! ## Fields of a frame -/

/-- A number at an offset and width of a payload, most significant byte first (spec 11). -/
def arg (p : List Byte) (offset width : Nat) : Nat := beNat ((p.drop offset).take width)

/-- The two's complement reading of a 16-bit field. -/
def signed16 (n : Nat) : Int := if n < 32768 then n else (n : Int) - 65536

/-- A number sent most significant byte first in a width of bytes. -/
def be : Nat → Nat → List Byte
  | 0, _ => []
  | w + 1, n => BitVec.ofNat 8 (n / 256 ^ w) :: be w n

/-- One field of a response payload: its width in bytes (R180) and its value. -/
structure Field where
  width : Nat
  value : Nat
deriving DecidableEq, Repr

/-- The bytes of the field at an index of a payload; a value that does not fit its width leaves them free (log 12). -/
def Field.bytes (draw index : Nat) (f : Field) : List Byte :=
  if f.value < 256 ^ f.width then be f.width f.value else be f.width (Config.overwide draw index)

/-- The fields of a payload from an index on, as bytes. -/
def serializeFrom (draw : Nat) : Nat → List Field → List Byte
  | _, [] => []
  | i, f :: fs => f.bytes draw i ++ serializeFrom draw (i + 1) fs

/-- A payload as bytes. -/
def serialize (draw : Nat) (fs : List Field) : List Byte := serializeFrom draw 0 fs

/-- A field of one byte. -/
def u1 (n : Nat) : Field := ⟨1, n⟩
/-- A field of two bytes. -/
def u2 (n : Nat) : Field := ⟨2, n⟩
/-- A field of four bytes. -/
def u4 (n : Nat) : Field := ⟨4, n⟩
/-- A field of eight bytes. -/
def u8 (n : Nat) : Field := ⟨8, n⟩
/-- A field of two values: 1 for yes, set or 1 (R180). -/
def flag (b : Bool) : Field := u1 b.toNat
/-- A signed field, two's complement; a value outside its range does not fit. -/
def signedField (w : Nat) (i : Int) : Field :=
  ⟨w, if -(2 ^ (8 * w - 1) : Int) ≤ i ∧ i < 2 ^ (8 * w - 1) then (i % (256 ^ w : Int)).toNat else 256 ^ w⟩
/-- An optional field at its full width, 0 when absent (spec 11). -/
def optional (w : Nat) (o : Option Nat) : Field := ⟨w, o.getD 0⟩

/-- Bits packed with the first as bit 0. The bits of a byte that its table does not name are 0 (log 49). -/
def packBits (bs : List Bool) : Nat := bs.foldr (fun b n => b.toNat + 2 * n) 0

/-- The presence bytes of a payload's optional fields, in the order in which they are sent (R181); bits beyond the optional
fields are 0 (log 47). -/
def presence (bs : List Bool) : List Field :=
  (List.range (ceilDiv bs.length 8)).map fun j => u1 (packBits bs / 256 ^ j % 256)

/-! ## Codes of enumerations: positions in the list or table that specifies them (R179, log 14) -/

def SessionClass.code : SessionClass → Nat
  | .firm => 0 | .rapid => 1 | .ordinary => 2
def AccountClass.code : AccountClass → Nat
  | .firm => 0 | .ordinary => 1
def levelCode : Level → Nat
  | .high => 0 | .low => 1
def ResumeMode.code : ResumeMode → Nat
  | .auto => 0 | .commanded => 1
def LoopRate.code : LoopRate → Nat
  | .b19200 => 0 | .b57600 => 1 | .b115200 => 2
def LoopRate.baud : LoopRate → Nat
  | .b19200 => 19200 | .b57600 => 57600 | .b115200 => 115200
def DeviceKind.code : DeviceKind → Nat
  | .ac1 => 0 | .ac3 => 1 | .dc => 2 | .canopy => 3 | .battery => 4 | .meter => 5
def BayKind.code : BayKind → Nat
  | .ac1 => 0 | .ac3 => 1 | .dc => 2
def Link.code : Link → Nat
  | .offline => 0 | .online => 1
def MissKind.code : MissKind → Nat
  | .noMiss => 0 | .parity => 1 | .frame => 2 | .check => 3 | .address => 4 | .timeout => 5
def Identity.code : Identity → Nat
  | .unchecked => 0 | .matched => 1 | .mismatch => 2
def BayState.code : BayState → Nat
  | .idle => 0 | .occupied => 1 | .stopped => 2 | .fault => 3 | .blocked => 4 | .waitingSlot => 5
def SessionState.code : SessionState → Nat
  | .free => 0 | .opening => 1 | .waiting => 2 | .charging => 3 | .suspended => 4 | .ending => 5 | .settled => 6
def Payment.code : Payment → Nat
  | .unpaid => 0 | .card => 1 | .account => 2
def SuspendCause.code : SuspendCause → Nat
  | .shed => 0 | .commanded => 1
def EndCause.code : EndCause → Nat
  | .unplugged => 0 | .customerStop => 1 | .commandStop => 2 | .capReached => 3 | .creditExhausted => 4
  | .bayFault => 5 | .linkLost => 6 | .authTimeout => 7 | .siteClear => 8
def CreditState.code : CreditState → Nat
  | .issued => 0 | .held => 1
def PassState.code : PassState → Nat
  | .idle => 0 | .running => 1
def Reserve.code : Reserve → Nat
  | .free => 0 | .claimed => 1 | .granted => 2
def Status.code : Status → Nat
  | .ok => 0 | .okClamped => 1 | .badRequest => 2 | .outOfRange => 3 | .notConfigured => 4 | .notFound => 5
  | .duplicate => 6 | .tableFull => 7 | .inUse => 8 | .wrongState => 9 | .notSafe => 10

/-- The position of a notice kind in Table 10-4. -/
def NoticeKind.index : NoticeKind → Fin 10
  | .receiptReady => 0 | .creditQuery => 1 | .bayFault => 2 | .meterJump => 3 | .slotShortage => 4
  | .supplyShort => 5 | .loopDevice => 6 | .lineChange => 7 | .accountExhausted => 8 | .tableFullCredit => 9

/-- The display codes of R182. -/
inductive DisplayCode where
  | ready
  | authorise
  | waitingPower
  | charging
  | paused
  | creditOk
  | creditInUse
  | creditNotValid
  | creditNotFound
  | oneMoment
  | plugFirst
  | noService
  | stopped
  | finalBlock
deriving DecidableEq, Repr

def DisplayCode.code : DisplayCode → Nat
  | .ready => 0 | .authorise => 1 | .waitingPower => 2 | .charging => 3 | .paused => 4 | .creditOk => 5
  | .creditInUse => 6 | .creditNotValid => 7 | .creditNotFound => 8 | .oneMoment => 9 | .plugFirst => 10
  | .noService => 11 | .stopped => 12 | .finalBlock => 13

/-- The display code of a message (R41, R182). -/
def MessageCode.display : MessageCode → DisplayCode
  | .creditOk => .creditOk
  | .creditInUse => .creditInUse
  | .creditNotValid => .creditNotValid
  | .creditNotFound => .creditNotFound
  | .plugFirst => .plugFirst

/-! ## Bay kinds and the AC conversion -/

def BayKind.device : BayKind → DeviceKind
  | .ac1 => .ac1 | .ac3 => .ac3 | .dc => .dc
/-- min_steps as fixed by kind (R19). -/
def BayKind.minSteps : BayKind → Nat
  | .ac1 => 14 | .ac3 => 42 | .dc => 50
/-- The upper bound of the declared maximum by kind (R19, check 4). -/
def BayKind.maxBound : BayKind → Nat
  | .ac1 => 73 | .ac3 => 220 | .dc => 1500

/-- A grant in steps as a poll carries it: 0.1 A for an AC bay, steps for a DC bay (R86, going out). -/
def BayKind.toWire : BayKind → Nat → Nat
  | .ac1, g => g * 100 / 23
  | .ac3, g => g * 100 / 69
  | .dc, g => g

/-- A value in a bay's own unit as steps (R86, coming back). -/
def BayKind.toSteps : BayKind → Nat → Nat
  | .ac1, a => ceilDiv (a * 23) 100
  | .ac3, a => ceilDiv (a * 69) 100
  | .dc, a => a

/-! ## Loop addresses -/

/-- What a device table entry belongs to (Table 2-1). -/
inductive Role where
  | bay (b : BayId)
  | canopy (k : InverterId)
  | battery
  | meter
deriving DecidableEq, Repr

/-- The entry of a role; entries rise with loop addresses. -/
def Role.entry : Role → Entry
  | .bay b => ⟨b.val, by omega⟩
  | .canopy k => ⟨48 + k.val, by omega⟩
  | .battery => 54
  | .meter => 55

/-- The role of an entry. -/
def roleOf (e : Entry) : Role :=
  if h : e.val < 48 then .bay ⟨e.val, h⟩
  else if h : e.val - 48 < 6 then .canopy ⟨e.val - 48, h⟩
  else if e.val = 54 then .battery
  else .meter

/-- The loop address of an entry (Table 2-1). -/
def loopAddress (e : Entry) : Nat :=
  if e.val < 54 then e.val else if e.val = 54 then 56 else 60

/-- The source that a loop address names: 48 to 53, 56 or 60 (R21). -/
def sourceAt (address : Nat) : Option Role :=
  if h : 48 ≤ address ∧ address < 54 then some (.canopy ⟨address - 48, by omega⟩)
  else if address = 56 then some .battery
  else if address = 60 then some .meter
  else none

/-- An index below a bound, from a number of a request. -/
def index? (n : Nat) (v : Nat) : Option (Fin n) := if h : v < n then some ⟨v, h⟩ else none

/-! ## Loop frames -/

/-- One bit of the loop check (R183, step 2). -/
def crcBit (r : BitVec 16) (b : Bool) : BitVec 16 :=
  if (r.getLsbD 15).xor b then (r <<< 1) ^^^ 0x1021#16 else r <<< 1

/-- One byte of the loop check, most significant bit first. -/
def crcByte (r : BitVec 16) (d : Byte) : BitVec 16 :=
  [7, 6, 5, 4, 3, 2, 1, 0].foldl (fun r i => crcBit r (d.getLsbD i)) r

/-- The loop check over a list of bytes (R183). -/
def crc (bytes : List Byte) : BitVec 16 := bytes.foldl crcByte 0xFFFF#16

/-- A loop frame: address, kind, payload length, payload and the check, high byte first (R182, R183). -/
def loopFrame (address kind : Nat) (payload : List Byte) : List Byte :=
  let body := BitVec.ofNat 8 address :: BitVec.ofNat 8 kind :: BitVec.ofNat 8 payload.length :: payload
  body ++ be 2 (crc body).toNat

/-- The parity bit of a character: even parity over its data bits (R182). -/
def evenParity (d : Byte) : Bool :=
  [0, 1, 2, 3, 4, 5, 6, 7].foldl (fun p i => p.xor (d.getLsbD i)) false

/-- The characters of the frame received: reception ends when the frame is complete by its length field (R23), and what
follows is discarded (R24). -/
def framePart (chars : List RxChar) : List RxChar :=
  match chars with
  | _ :: _ :: l :: _ => chars.take (5 + l.data.toNat)
  | _ => chars

/-- Whether a received frame is complete: its header, the payload its length field states, and the check. -/
def frameComplete (bytes : List Byte) : Bool :=
  5 ≤ bytes.length && bytes.length == 5 + (bytes.getD 2 0).toNat

/-- A scan taken from a report: its kind and its key (R33). -/
inductive ScanKind where
  | token
  | receipt
deriving DecidableEq, Repr

structure Scan where
  kind : ScanKind
  key : Nat
deriving DecidableEq, Repr

/-- The payload of a BAY_REPORT (Table 11-5): the card approval is present by status bit 3, the scan by a tag other than 0. -/
structure BayReport where
  plug : Bool
  output : Bool
  stopButton : Bool
  cardCap : Option Nat
  applied : Nat
  demand : Nat
  register : Nat
  faultCode : Nat
  scanTag : Nat
  scan : Option Scan
  idKind : BayKind
  idMax : Nat
deriving DecidableEq, Repr

/-- A good report (R27). -/
inductive Report where
  | bay (r : BayReport)
  | canopy (power : Nat)
  | battery (soe : Nat) (applied : Int)
  | meter (load : Nat)
deriving DecidableEq, Repr

/-- The identity kind of a report (Table 11-5). -/
def idKindOf : Nat → Option BayKind
  | 1 => some .ac1
  | 2 => some .ac3
  | 3 => some .dc
  | _ => none

/-- The scan kind of a report (Table 11-5). -/
def scanKindOf : Nat → Option ScanKind
  | 1 => some .token
  | 2 => some .receipt
  | _ => none

/-- The payload of a BAY_REPORT, refused when an enumerated field is outside its set (R27, check 5; Table 11-5). -/
def parseBayReport (p : List Byte) : Option BayReport := do
  let status := p.getD 0 0
  let idKind ← idKindOf (arg p 18 1)
  let tag := arg p 12 1
  let scan ← if tag = 0 then some none else (scanKindOf (arg p 13 1)).map fun k => some ⟨k, arg p 14 4⟩
  return {
    plug := status.getLsbD 0
    output := status.getLsbD 1
    stopButton := status.getLsbD 2
    cardCap := if status.getLsbD 3 then some (arg p 10 2) else none
    applied := arg p 1 2
    demand := arg p 3 2
    register := arg p 5 4
    faultCode := arg p 9 1
    scanTag := tag
    scan := scan
    idKind := idKind
    idMax := arg p 19 2 }

/-- A payload judged for the device polled: kind, length and enumerated fields (R27, check 5). -/
def parseReport (role : Role) (kind : Nat) (p : List Byte) : Option Report :=
  match role with
  | .bay _ => if kind = 2 ∧ p.length = 21 then (parseBayReport p).map .bay else none
  | .canopy _ => if kind = 4 ∧ p.length = 2 then some (.canopy (arg p 0 2)) else none
  | .battery => if kind = 4 ∧ p.length = 6 then some (.battery (arg p 0 4) (signed16 (arg p 4 2))) else none
  | .meter => if kind = 4 ∧ p.length = 2 then some (.meter (arg p 0 2)) else none

/-- The judgement of a response by the checks of R27 in order: a good report, or the kind of the miss. -/
def judge (e : Entry) (chars : List RxChar) : Except MissKind Report :=
  let received := framePart chars
  let bytes := received.map (·.data)
  if received.any (fun c => c.parity != evenParity c.data) then .error .parity
  else if received.any (fun c => !c.stop) || !frameComplete bytes then .error .frame
  else if crc (bytes.take (bytes.length - 2)) ≠ BitVec.ofNat 16 (beNat (bytes.drop (bytes.length - 2))) then .error .check
  else if (bytes.getD 0 0).toNat ≠ loopAddress e then .error .address
  else
    match parseReport (roleOf e) (bytes.getD 1 0).toNat ((bytes.drop 3).take (bytes.length - 5)) with
    | some r => .ok r
    | none => .error .frame

end Sys2Proof.Machine
end

