-- ==== Sys2Proof/Machine/Ops.lean ====
section
/-! DEFINITION. The named reads and writes of the tables, and the shared operations the blocks hand each other: a notice
occurrence with ATTN, a pass request, a write of a bay's grants, the admission queue, messages and scan slots. -/

namespace Sys2Proof.Machine

/-! ## Reading and writing the tables -/

def State.bay (s : State) (b : BayId) : Bay := s.bays[b.val]
def State.slot (s : State) (k : SlotId) : Slot := s.st.slots[k.val]
def State.device (s : State) (e : Entry) : Device := s.flc.devices[e.val]
/-- The device table entry of a bay. -/
def State.bayDevice (s : State) (b : BayId) : Device := s.device (Role.bay b).entry
def State.inverter (s : State) (k : InverterId) : Inverter := s.al.inverters[k.val]
def State.account (s : State) (i : AccountId) : Account := s.cs.accounts[i.val]
def State.notice (s : State) (k : NoticeKind) : Notice := s.hp.notices[k.index.val]

def State.setBay (s : State) (b : BayId) (x : Bay) : State := { s with bays := s.bays.set b.val x b.isLt }
def State.setSlot (s : State) (k : SlotId) (x : Slot) : State := { s with st.slots := s.st.slots.set k.val x k.isLt }
def State.setDevice (s : State) (e : Entry) (x : Device) : State := { s with flc.devices := s.flc.devices.set e.val x e.isLt }
def State.setInverter (s : State) (k : InverterId) (x : Inverter) : State :=
  { s with al.inverters := s.al.inverters.set k.val x k.isLt }
def State.setAccount (s : State) (i : AccountId) (x : Account) : State :=
  { s with cs.accounts := s.cs.accounts.set i.val x i.isLt }
def State.setCredits (s : State) (cs : List Credit) : State := { s with cs.credits := cs }
def State.setExchange (s : State) (x : Exchange) : State := { s with flc.exchange := x }
def State.setPort (s : State) (p : Port) : State := { s with hp.port := p }

def State.modBay (s : State) (b : BayId) (f : Bay → Bay) : State := s.setBay b (f (s.bay b))
def State.modSlot (s : State) (k : SlotId) (f : Slot → Slot) : State := s.setSlot k (f (s.slot k))
def State.modDevice (s : State) (e : Entry) (f : Device → Device) : State := s.setDevice e (f (s.device e))
def State.modInverter (s : State) (k : InverterId) (f : Inverter → Inverter) : State := s.setInverter k (f (s.inverter k))
def State.modAccount (s : State) (i : AccountId) (f : Account → Account) : State := s.setAccount i (f (s.account i))

/-- The indices 0 to n − 1 in ascending order. -/
def indices (n : Nat) : List (Fin n) := List.finRange n

/-! ## Orders that the manual leaves free -/

/-- A keyed item placed before the first one with a greater key. -/
def insertByKey {α : Type} (x : Nat × α) : List (Nat × α) → List (Nat × α)
  | [] => [x]
  | y :: ys => if x.1 ≤ y.1 then x :: y :: ys else y :: insertByKey x ys

/-- A list of numbered items in the order of their free keys. -/
def orderFrom {α : Type} (draw : Nat) : Nat → List α → List (Nat × α)
  | _, [] => []
  | i, x :: xs => insertByKey (Config.orderKey draw i, x) (orderFrom draw (i + 1) xs)

/-- A list in a free order: some permutation of it, chosen by nothing the manual says (logs 2, 10, 11). -/
def freeOrder {α : Type} (draw : Nat) (xs : List α) : List α := (orderFrom draw 0 xs).map (·.2)

/-! ## Session and bay states -/

/-- The live session states (Table 3-1). -/
def SessionState.live : SessionState → Bool
  | .opening | .waiting | .charging | .suspended | .ending => true
  | .free | .settled => false

/-- The states of the admission queue's members (R67). -/
def SessionState.queued : SessionState → Bool
  | .waiting | .charging | .suspended => true
  | .free | .opening | .ending | .settled => false

/-- Committed power: the larger of grant_set and grant_ack (R91). -/
def Bay.committed (y : Bay) : Nat := max y.grantSet y.grantAck

/-- The slot of a bay's session in a live state, if it has one. -/
def State.liveSlot (s : State) (b : BayId) : Option SlotId :=
  match (s.bay b).session with
  | some k => if (s.slot k).state.live then some k else none
  | none => none

/-- Whether a bay's link is ONLINE; the one copy is the device table's (R18). -/
def State.bayOnline (s : State) (b : BayId) : Bool := (s.bayDevice b).link == .online

/-- The trading day and second of the tariff clock. -/
def State.stamp (s : State) : Stamp := ⟨s.tc.day, s.tc.second⟩

/-! ## Notices and ATTN -/

/-- The condition of R178. -/
def State.attnDue (s : State) : Bool :=
  s.sc.gate == .opened && s.hp.notices.toList.any (fun n => !n.masked && 0 < n.count)

/-- HP evaluates ATTN (R178). -/
def evalAttn (s : State) : State := { s with hp.attn := s.attnDue }

/-- The notice after an occurrence (R175). -/
def Notice.occur (argument key : Nat) (n : Notice) : Notice :=
  { n with count := min 255 (n.count + 1), argument := argument, key := key }

def State.setNotice (s : State) (k : NoticeKind) (n : Notice) : State :=
  { s with hp.notices := s.hp.notices.set k.index.val n k.index.isLt }

/-- An occurrence of a notice kind is handed to HP (R175). -/
def countNotice (k : NoticeKind) (argument key : Nat) (s : State) : State :=
  evalAttn (s.setNotice k ((s.notice k).occur argument key))

/-! ## The pass as an operation -/

/-- A pass request reaches AL (R69, R10). A pass that begins has no snapshot until the end of the step (log 6). -/
def requestPass (s : State) : State :=
  match s.al.passState, s.sc.gate with
  | .running, _ => { s with al.again := true }
  | .idle, .closed => { s with al.pendingRequest := true }
  | .idle, .opened =>
    { s with al.passState := .running, al.snapshot := none, al.refresh := none, al.pendingRequest := false }

/-- A pass request when a condition holds. -/
def requestPassIf (c : Bool) (s : State) : State := if c then requestPass s else s

/-! ## Grants -/

/-- grant_set and grant_ack written: the ack wait ends when the acknowledgement is at or below the grant (R95). -/
def Bay.withGrants (y : Bay) (set ack : Nat) : Bay :=
  { y with grantSet := set, grantAck := ack, ackWait := if ack ≤ set then none else y.ackWait }

/-- A write of a bay's grants; a lowering of its committed power is a pass request (R91, log 7). -/
def writeGrants (b : BayId) (set ack : Nat) (s : State) : State :=
  let old := s.bay b
  let new := old.withGrants set ack
  requestPassIf (new.committed < old.committed) (s.setBay b new)

/-- A write of grant_set alone. -/
def writeGrantSet (b : BayId) (set : Nat) (s : State) : State := writeGrants b set (s.bay b).grantAck s

/-- A write of grant_ack alone. -/
def writeGrantAck (b : BayId) (ack : Nat) (s : State) : State := writeGrants b (s.bay b).grantSet ack s

/-! ## The admission queue -/

/-- The class rank of R67. -/
def SessionClass.rank : SessionClass → Nat
  | .firm => 0 | .rapid => 1 | .ordinary => 2

/-- Queue order: class rank, then arrival number (R67). -/
def Member.before (x y : Member) : Bool :=
  x.cls.rank < y.cls.rank || (x.cls.rank == y.cls.rank && x.arrival < y.arrival)

/-- The place of a joining member (R68). -/
def insertMember (x : Member) : List Member → List Member
  | [] => [x]
  | y :: ys => if x.before y then x :: y :: ys else y :: insertMember x ys

/-- A join event (R52, R68). -/
def joinQueue (k : SlotId) (s : State) : State :=
  requestPass { s with al.queue := insertMember ⟨k, (s.slot k).cls, (s.slot k).arrival, 0⟩ s.al.queue }

/-- A leave event (R52, R68). -/
def leaveQueue (k : SlotId) (s : State) : State :=
  requestPass { s with al.queue := s.al.queue.filter (fun m => m.slot != k) }

/-! ## Messages and scan slots -/

/-- A message is set, with a count of 3 (R41). -/
def setMessage (b : BayId) (c : MessageCode) (s : State) : State := s.modBay b fun y => { y with message := some ⟨c, 3, false⟩ }

/-- The scan slot is emptied (R114, R116 to R119). -/
def emptyScan (b : BayId) (s : State) : State := s.modBay b fun y => { y with scan := .empty }

/-! ## Bays that fail -/

/-- A bay enters FAULT (R43, R98). -/
def enterFault (b : BayId) (s : State) : State :=
  let s := s.modBay b fun y =>
    { y with state := .fault, session := none, stopFlag := true, message := none, ackWait := none }
  countNotice .bayFault b.val 0 (requestPass (writeGrantSet b 0 s))

/-- A bay goes to BLOCKED (R31, R41, R98); its grant is 0 there (log 37). -/
def enterBlocked (b : BayId) (s : State) : State :=
  let s := s.modBay b fun y => { y with state := .blocked, session := none, message := none, ackWait := none }
  writeGrantSet b 0 s

/-! ## The reserve -/

/-- In CLAIMED, the events of R17 assert RSV_ACK. -/
def grantReserve (s : State) : State :=
  if s.sc.reserve = .claimed then { s with sc.reserve := .granted } else s

/-! ## Credits -/

/-- A lookup (R110): key 0 is not found. -/
def lookupCredit (key : Nat) (s : State) : Option Credit :=
  if key = 0 then none else s.cs.credits.find? (fun c => c.key == key)

/-- A record placed in ascending order of key. -/
def insertCredit (c : Credit) : List Credit → List Credit
  | [] => [c]
  | x :: xs => if c.key ≤ x.key then c :: x :: xs else x :: insertCredit c xs

/-- The records with one replaced, by its key. -/
def updateCredit (key : Nat) (f : Credit → Credit) (cs : List Credit) : List Credit :=
  cs.map fun c => if c.key = key then f c else c

/-- The records with one retired (R123). -/
def removeCredit (key : Nat) (cs : List Credit) : List Credit := cs.filter fun c => c.key != key

end Sys2Proof.Machine
end

