-- ==== Sys2Proof/Machine/Flags.lean ====
section
/-! DEFINITION. What the part computes from its state and shows: line states, the output pins, the display code, the state
of the ack wait, the band in force. -/

namespace Sys2Proof.Machine

/-! ## Lines (chapter 1) -/

/-- The line state of SHED is ACTIVE (R12). -/
def State.shedActive (s : State) : Bool := s.sc.shedPin.taken == s.sc.lines.shedActive

/-- The line state of RSV_REQ is ACTIVE (R12). -/
def State.rsvReqActive (s : State) : Bool := s.sc.rsvReqPin.taken == s.sc.lines.rsvReqActive

/-- RSV_ACK is asserted in GRANTED alone (R16). -/
def State.rsvAck (s : State) : Bool := s.sc.reserve == .granted

/-- The other level. -/
def inverseLevel : Level → Level
  | .high => .low | .low => .high

/-- The level driven on RSV_ACK (R13, R16). -/
def State.rsvAckPin (s : State) : Level :=
  if s.rsvAck then s.sc.lines.rsvAckActive else inverseLevel s.sc.lines.rsvAckActive

/-- Whether a class is in a shed scope. -/
def ShedScope.has (sc : ShedScope) : SessionClass → Bool
  | .firm => sc.firm | .rapid => sc.rapid | .ordinary => sc.ordinary

/-- A class held by shed: shed ACTIVE and the class in the scope in force (R51, R106). -/
def State.heldByShed (s : State) (c : SessionClass) : Bool := s.shedActive && s.sc.lines.scope.has c

/-! ## Pins of the port and of the loop -/

/-- RDY is high while a response waits (R168). -/
def State.rdy (s : State) : Bool :=
  match s.hp.port with
  | .responseWaiting _ => true
  | _ => false

/-- DE is high while a poll is sent (R23, Table 11-6). -/
def State.de (s : State) : Bool :=
  match s.flc.exchange with
  | .sending _ => true
  | _ => false

/-! ## Layout (R5) -/

/-- The feeder of a bay under a layout mode (Table 1-3). -/
def feederOf (mode : Nat) (b : BayId) : FeederId :=
  match mode with
  | 2 => if b.val < 24 then 0 else 1
  | 3 => if b.val < 12 then 0 else if b.val < 24 then 1 else if b.val < 36 then 2 else 3
  | 4 => if b.val < 8 then 0 else if b.val < 24 then 1 else if b.val < 36 then 2 else 3
  | _ => 0

/-- Whether a layout mode uses a feeder (Table 1-3). -/
def modeUses (mode : Nat) (f : FeederId) : Bool :=
  match mode with
  | 1 => f.val < 1
  | 2 => f.val < 2
  | _ => true

/-! ## Display codes (chapter 3) -/

/-- The state code of a bay (R40). -/
def State.stateCode (s : State) (b : BayId) : DisplayCode :=
  let y := s.bay b
  if !y.declared then .noService
  else match y.state with
    | .idle => if s.sc.gate = .opened then .ready else .noService
    | .waitingSlot | .fault | .blocked => .noService
    | .stopped => .stopped
    | .occupied =>
      match y.session with
      | none => .noService
      | some k =>
        match (s.slot k).state with
        | .opening => .authorise
        | .waiting => .waitingPower
        | .charging => .charging
        | .suspended => .paused
        | .ending => .stopped
        | .free | .settled => .noService

/-- The display code of a poll built now (R41, R136). -/
def State.displayCode (s : State) (b : BayId) : DisplayCode :=
  let y := s.bay b
  match y.message with
  | some m => m.code.display
  | none =>
    match y.scan with
    | .pending _ _ _ => .oneMoment
    | .empty =>
      let c := s.stateCode b
      let final := match y.session with
        | some k => (s.slot k).finalBlock
        | none => false
      if c = .charging ∧ final = true then .finalBlock else c

/-! ## The ack wait (Table 5-2) -/

/-- The states of the ack wait. -/
inductive AckState where
  | none
  | unsent
  | running
deriving DecidableEq, Repr

def AckState.code : AckState → Nat
  | .none => 0 | .unsent => 1 | .running => 2

/-- The state of a bay's ack wait (Table 5-2). -/
def Bay.ackState (y : Bay) : AckState :=
  if y.grantAck ≤ y.grantSet ∨ y.state = .fault ∨ y.state = .blocked then .none
  else if y.ackWait.isSome then .running else .unsent

/-! ## The tariff clock (chapter 8) -/

/-- The current minute (R149). -/
def TariffClock.minute (t : TariffClock) : Nat := t.second / 60

/-- Of two candidate bands the one with the later start, and the first of two with the same start (R153). -/
def laterBand (x y : BandId × Nat) : BandId × Nat := if x.2 < y.2 then y else x

/-- The latest-starting of some bands, the lowest index among equals. -/
def latestBand : List (BandId × Nat) → Option (BandId × Nat)
  | [] => none
  | x :: xs => some (xs.foldl laterBand x)

/-- The used bands with their starts, in index order. -/
def TariffClock.usedBands (t : TariffClock) : List (BandId × Nat) :=
  (indices 4).filterMap fun n => (t.bands[n.val]).start.map fun m => (n, m)

/-- The band in force at a minute (R153). -/
def TariffClock.bandAt (t : TariffClock) (minute : Nat) : Option BandId :=
  let used := t.usedBands
  match latestBand (used.filter fun p => p.2 ≤ minute) with
  | some p => some p.1
  | none => (latestBand used).map (·.1)

/-- The band in force now. -/
def TariffClock.bandNow (t : TariffClock) : Option BandId := t.bandAt t.minute

/-- The band price: that of the band in force, 0 when no band is used (R153). -/
def TariffClock.bandPrice (t : TariffClock) : Nat :=
  match t.bandNow with
  | some n => (t.bands[n.val]).price
  | none => 0

end Sys2Proof.Machine
end

