-- ==== Sys2Proof/Machine/Allocator.lean ====
section
/-! DEFINITION. The allocation pass: the snapshot, the twelve stages computed from it, and the writing at its end (chapter 4). -/

namespace Sys2Proof.Machine

/-! ## The snapshot (R75, R76) -/

/-- The largest of the grants the loop has carried to a bay and may still carry: last sent, and the poll being sent (R76). What
was sent to a bay before it was declared with another kind is taken by its present kind (log 45). A poll still being sent to a bay
that was removed and declared anew meanwhile does not count (log 50). -/
def State.wireStanding (s : State) (b : BayId) : Nat :=
  let kind := (s.bay b).kind
  let sent := kind.toSteps (s.bayDevice b).lastSent.toNat
  match s.flc.exchange with
  | .sending p => if p.entry = (Role.bay b).entry ∧ p.removed = false then max sent (kind.toSteps p.value.toNat) else sent
  | _ => sent

/-- The standing power of a bay (R76). -/
def State.standing (s : State) (b : BayId) : Nat :=
  if (s.bay b).declared then max (s.bay b).committed (s.wireStanding b) else 0

/-- firm_steps of the account a session's account index names (R130). -/
def State.firmStepsOf (s : State) (x : Slot) : Nat :=
  match x.accountIndex with
  | some i => (s.account i).firmSteps
  | none => 0

def State.snapMember (s : State) (m : Member) : SnapMember :=
  let x := s.slot m.slot
  { slot := m.slot, sequence := x.sequence, cls := m.cls, arrival := m.arrival, bay := x.bay, state := x.state
    runPermit := x.runPermit, demand := x.demand, firmSteps := s.firmStepsOf x }

def State.snapBay (s : State) (b : BayId) : SnapBay :=
  let y := s.bay b
  { declared := y.declared, state := y.state, online := s.bayOnline b, session := y.session, stopFlag := y.stopFlag
    kind := y.kind, maxSteps := y.maxSteps, minSteps := y.minSteps, feeder := y.feeder, standing := s.standing b }

def State.snapInverter (s : State) (k : InverterId) : SnapInverter :=
  let d := s.device (Role.canopy k).entry
  let v := s.inverter k
  { declared := d.declared, online := d.link == .online, rating := v.rating, lastPower := v.lastPower }

/-- The snapshot of the records as they stand (R75). -/
def State.takeSnapshot (s : State) : Snapshot :=
  let meter := s.device Role.meter.entry
  let batt := s.device Role.battery.entry
  { importCap := s.sc.importCap, margin := s.sc.margin, exportCap := s.sc.exportCap
    feederLimits := s.sc.feederLimits
    fallbackLoad := match s.sc.fallback with
      | .follow => s.sc.importCap
      | .fixed n => n
    meterDeclared := meter.declared, meterOnline := meter.link == .online, storeLoad := s.al.storeLoad
    inverters := Vector.ofFn s.snapInverter
    batteryDeclared := batt.declared, batteryOnline := batt.link == .online
    soe := s.al.battery.soe, eCap := s.sc.eCap, eFloor := s.sc.eFloor, pDis := s.sc.pDis, pCh := s.sc.pCh
    permit := s.al.permit, reserve := s.sc.reserve
    queue := s.al.queue.map s.snapMember
    bays := Vector.ofFn s.snapBay }

/-! ## Stage 1: budget (R77) -/

/-- The store load L of the pass. -/
def Snapshot.load (n : Snapshot) : Nat := if n.meterDeclared && n.meterOnline then n.storeLoad else n.fallbackLoad

/-- The canopy total S: the last power of every declared inverter that is ONLINE. -/
def Snapshot.canopy (n : Snapshot) : Nat :=
  (n.inverters.toList.map fun v => if v.declared && v.online then v.lastPower else 0).sum

/-- The budget B0 (R77). -/
def Snapshot.b0 (n : Snapshot) : Int := (n.importCap : Int) - n.margin - n.load + n.canopy

/-! ## Stage 2: demand (R78) -/

/-- An eligible session, named by its slot and its sequence number, with what the later stages need: its bay, feeder, minimum,
want, cap, standing power h, and grant g. -/
structure Claim where
  slot : SlotId
  sequence : Nat
  bay : BayId
  cls : SessionClass
  feeder : FeederId
  min : Nat
  want : Nat
  cap : Nat
  h : Nat
  g : Nat
deriving DecidableEq, Repr

/-- Whether a member's session is eligible (R78). -/
def Snapshot.eligible (n : Snapshot) (m : SnapMember) : Bool :=
  let y := n.bays[m.bay.val]
  (m.state == .waiting || m.state == .charging) && m.runPermit && y.online && y.state == .occupied
    && y.session == some m.slot && !y.stopFlag

/-- want and cap of an eligible session (R78). -/
def wantCap (cls : SessionClass) (demand firmSteps lo hi : Nat) : Nat × Nat :=
  let d := min demand hi
  if d = 0 then (0, 0)
  else match cls with
    | .firm => let w := max (min firmSteps d) lo; (w, w)
    | .rapid | .ordinary => (lo, max d lo)

/-- The claim of an eligible member, with no grant yet. -/
def Snapshot.claim (n : Snapshot) (m : SnapMember) : Claim :=
  let y := n.bays[m.bay.val]
  let wc := wantCap m.cls m.demand m.firmSteps y.minSteps y.maxSteps
  { slot := m.slot, sequence := m.sequence, bay := m.bay, cls := m.cls, feeder := y.feeder, min := y.minSteps
    want := wc.1, cap := wc.2, h := y.standing, g := 0 }

/-- The eligible sessions in admission queue order. -/
def Snapshot.claims (n : Snapshot) : List Claim := (n.queue.filter n.eligible).map n.claim

/-- Dm, the sum of the caps (R78). -/
def totalDemand (cs : List Claim) : Nat := (cs.map (·.cap)).sum

/-! ## Stages 3 and 4: battery and charging budget (R79, R80) -/

/-- The battery is available to the pass (R79). -/
def Snapshot.batteryAvailable (n : Snapshot) : Bool := n.batteryDeclared && n.batteryOnline && n.reserve == .free

/-- D, the discharge (R79). -/
def Snapshot.discharge (n : Snapshot) (dm : Nat) : Nat :=
  if (dm : Int) > n.b0 ∧ n.batteryAvailable ∧ n.permit then min n.pDis ((dm : Int) - n.b0).toNat else 0

/-- Q, the charge (R79). -/
def Snapshot.charge (n : Snapshot) (dm : Nat) : Nat :=
  if (dm : Int) < n.b0 ∧ n.batteryAvailable ∧ n.soe < n.eCap then
    min n.pCh (min (n.b0 - (dm : Int)).toNat n.canopy)
  else 0

/-- B, the charging budget (R80). -/
def Snapshot.budget (n : Snapshot) (d q : Nat) : Nat := (n.b0 + (d : Int) - q).toNat

/-! ## Stages 5 and 6: admission and sharing (R81, R82) -/

/-- The room left: on the site and on each feeder. -/
structure Rooms where
  site : Nat
  feeders : Vector Nat 4
deriving DecidableEq, Repr

/-- The room of a feeder. -/
def Rooms.feeder (r : Rooms) (f : FeederId) : Nat := r.feeders[f.val]

/-- Both rooms lowered by a grant. -/
def Rooms.give (r : Rooms) (f : FeederId) (g : Nat) : Rooms :=
  ⟨r.site - g, r.feeders.set f.val (r.feeder f - g) f.isLt⟩

/-- Whether a bay has an eligible session. -/
def claimed (cs : List Claim) (b : BayId) : Bool := cs.any fun c => c.bay == b

/-- The standing power of the declared bays without an eligible session, over the bays that satisfy a test. -/
def Snapshot.idleStanding (n : Snapshot) (cs : List Claim) (on : SnapBay → Bool) : Nat :=
  ((indices 48).map fun b =>
    let y := n.bays[b.val]
    if y.declared && on y && !claimed cs b then y.standing else 0).sum

/-- The rooms at the start of admission (R81). -/
def Snapshot.startRooms (n : Snapshot) (cs : List Claim) (b : Nat) : Rooms where
  site := b - n.idleStanding cs fun _ => true
  feeders := Vector.ofFn fun f => n.feederLimits[f.val] - n.idleStanding cs fun y => y.feeder == f

/-- The first grant of one session, given the rooms (R81). -/
def admitOne (c : Claim) (r : Rooms) : Nat :=
  let room := min r.site (r.feeder c.feeder)
  if c.want = 0 then 0
  else if c.want ≤ room then c.want
  else if c.cls = .firm ∧ c.min ≤ room then room
  else 0

/-- The walk of the admission queue (R81). -/
def admitWalk : List Claim → Rooms → List Claim × Rooms
  | [], r => ([], r)
  | c :: cs, r =>
    let g := admitOne c r
    let rest := admitWalk cs (r.give c.feeder g)
    ({ c with g := g } :: rest.1, rest.2)

/-- Whether a session takes a step at its visit (R82). -/
def takes (c : Claim) (r : Rooms) : Bool :=
  c.cls != .firm && 0 < c.g && c.g < c.cap && 1 ≤ r.feeder c.feeder && 1 ≤ r.site

/-- One round of sharing (R82). -/
def shareRound : List Claim → Rooms → List Claim × Rooms
  | [], r => ([], r)
  | c :: cs, r =>
    let rest := if takes c r then shareRound cs (r.give c.feeder 1) else shareRound cs r
    ((if takes c r then { c with g := c.g + 1 } else c) :: rest.1, rest.2)

/-- Rounds of sharing until R is 0 or a whole round passes in which no taker takes a step (R82). Every other round takes at
least one step of R, so as many rounds as R has steps suffice. -/
def shareRounds : Nat → List Claim → Rooms → List Claim
  | 0, cs, _ => cs
  | fuel + 1, cs, r =>
    if r.site = 0 then cs
    else
      let next := shareRound cs r
      if next.2.site = r.site then cs else shareRounds fuel next.1 next.2

/-- Stages 5 and 6. -/
def Snapshot.share (n : Snapshot) (b : Nat) : List Claim :=
  let cs := n.claims
  let admitted := admitWalk cs (n.startRooms cs b)
  shareRounds admitted.2.site admitted.1 admitted.2

/-! ## Stage 7: hold-back (R83) -/

/-- The new g of an increase trimmed by an excess (R83, steps 1 and 2). -/
def trimmedGrant (c : Claim) (excess : Nat) : Nat :=
  let g := max c.h (c.g - excess)
  if 0 < g ∧ g < c.min then (if c.min ≤ c.h then c.h else 0) else g

/-- The walk of the increases of one sum, given latest member first (R83). -/
def trimWalk (inSum : Claim → Bool) : List Claim → Nat → List Claim
  | [], _ => []
  | c :: cs, excess =>
    if excess = 0 then c :: cs
    else if inSum c && c.h < c.g then
      let g := trimmedGrant c excess
      { c with g := g } :: trimWalk inSum cs (excess - (c.g - max g c.h))
    else c :: trimWalk inSum cs excess

/-- The quantities counted by the claims of a sum. -/
def countedSum (inSum : Claim → Bool) (cs : List Claim) : Nat :=
  ((cs.filter inSum).map fun c => max c.g c.h).sum

/-- One sum tested against its limit; `idle` is the standing power it counts for bays without an eligible session. -/
def holdBackSum (inSum : Claim → Bool) (idle limit : Nat) (cs : List Claim) : List Claim :=
  (trimWalk inSum cs.reverse (countedSum inSum cs + idle - limit)).reverse

/-- The five sums in their order: feeders 0 to 3, then the site (R83). -/
def Snapshot.holdBack (n : Snapshot) (b : Nat) (cs : List Claim) : List Claim :=
  let byFeeder := (indices 4).foldl (fun cs f =>
    holdBackSum (fun c => c.feeder == f) (n.idleStanding cs fun y => y.feeder == f) n.feederLimits[f.val] cs) cs
  holdBackSum (fun _ => true) (n.idleStanding byFeeder fun _ => true) b byFeeder

/-- How many increases stage 7 lowered (R90): the two lists hold the same sessions in the same order. -/
def trimmedCount (before after : List Claim) : Nat :=
  ((before.zip after).filter fun p => p.2.g < p.1.g).length

/-! ## The result of stages 1 to 7 -/

/-- What a pass has computed before it writes. -/
structure Computed where
  load : Nat
  canopy : Nat
  b0 : Int
  dm : Nat
  discharge : Nat
  charge : Nat
  budget : Nat
  claims : List Claim
  held : Nat
  trimmed : Nat
deriving DecidableEq, Repr

/-- A session held by the pass (R85). -/
def Claim.held (c : Claim) : Bool := 0 < c.want && c.g == 0

def Snapshot.compute (n : Snapshot) : Computed :=
  let dm := totalDemand n.claims
  let d := n.discharge dm
  let q := n.charge dm
  let b := n.budget d q
  let shared := n.share b
  let final := n.holdBack b shared
  { load := n.load, canopy := n.canopy, b0 := n.b0, dm := dm, discharge := d, charge := q, budget := b
    claims := final, held := (final.filter Claim.held).length, trimmed := trimmedCount shared final }

/-! ## Stage 8: writing (R84, R85) -/

/-- The session of a claim still is eligible at the end of the pass (R84): the bay names its slot, and the slot holds the same
session, by its sequence number (log 41). -/
def State.stillEligible (s : State) (c : Claim) : Bool :=
  let y := s.bay c.bay
  let x := s.slot c.slot
  y.session == some c.slot && x.sequence == c.sequence && (x.state == .waiting || x.state == .charging) && x.runPermit
    && s.bayOnline c.bay && !y.stopFlag

/-- The grant that the pass hands a declared bay; none where the grant is frozen (R84). -/
def State.grantFor (s : State) (cs : List Claim) (b : BayId) : Option Nat :=
  match cs.find? fun c => c.bay == b && s.stillEligible c with
  | some c => some c.g
  | none => if !s.bayOnline b && (s.liveSlot b).isSome then none else some 0

/-- The grants of all declared bays are written (R84), as the bays stand at the end of the pass. -/
def writeAllGrants (cs : List Claim) (s : State) : State :=
  (indices 48).foldl (fun t b =>
    if (s.bay b).declared then
      match s.grantFor cs b with
      | some g => writeGrantSet b g t
      | none => t
    else t) s

/-- The sessions that were eligible and still are enter CHARGING or WAITING (R85). -/
def writeSessionStates (cs : List Claim) (s : State) : State :=
  cs.foldl (fun t c =>
    if s.stillEligible c then
      t.modSlot c.slot fun x => { x with state := if 0 < c.g then .charging else .waiting }
    else t) s

/-- SUPPLY_SHORT (R85). -/
def countHeld (held : Nat) (s : State) : State := if 0 < held then countNotice .supplyShort held 0 s else s

/-! ## Stages 10 to 12 (R87 to R89) -/

/-- G, the sum of grant_set over all declared bays (R87). -/
def State.grantSum (s : State) : Nat :=
  ((indices 48).map fun b => if (s.bay b).declared then (s.bay b).grantSet else 0).sum

/-- The pass number after a pass: from 65535 to 1 (R87). -/
def nextPassNumber (n : Nat) : Nat := if 65535 ≤ n then 1 else n + 1

/-- The share record of a pass (R87). -/
def sharesOf (canopy discharge charge g passNumber : Nat) : ShareRecord :=
  let sc := min (canopy - charge) g
  let dc := min discharge (g - sc)
  if 0 < g then
    let solar := sc * 1000 / g
    let battery := dc * 1000 / g
    { solar := solar, battery := battery, grid := 1000 - solar - battery, passNumber := passNumber }
  else { solar := 0, battery := 0, grid := 1000, passNumber := passNumber }

/-- N, the net import (R88). -/
def Computed.netImport (c : Computed) (g : Nat) : Int := (c.load : Int) + g + c.charge - c.canopy - c.discharge

/-- T, the total canopy limit when the canopy is curtailed (R88). -/
def Computed.curtailment (c : Computed) (g exportCap : Nat) : Option Nat :=
  if c.netImport g < -(exportCap : Int) then some ((c.canopy : Int) + c.netImport g + exportCap).toNat else none

/-- R_c, the sum of the ratings of all declared inverters of the snapshot (R88). -/
def Snapshot.ratingSum (n : Snapshot) : Nat :=
  (n.inverters.toList.map fun v => if v.declared then v.rating else 0).sum

/-- The limit of an inverter: its share of T when the canopy is curtailed, its rating otherwise (R88). -/
def Snapshot.limitFor (n : Snapshot) (t : Option Nat) (v : SnapInverter) : Nat :=
  match t with
  | some t => t * v.rating / n.ratingSum
  | none => v.rating

/-- The limits of the inverters declared in the snapshot and still declared; one marked since the pass began is not written,
and loses its mark (R88, log 32). -/
def writeLimits (n : Snapshot) (t : Option Nat) (s : State) : State :=
  { s with al.inverters := Vector.ofFn fun k =>
      let v := s.inverter k
      let w := n.inverters[k.val]
      if w.declared ∧ (s.device (Role.canopy k).entry).declared ∧ v.fresh = false then
        { v with limit := n.limitFor t w }
      else { v with fresh := false } }

/-- The setpoint a pass writes at its end (R89). -/
def State.passSetpoint (s : State) (discharge charge : Nat) : Int :=
  if s.sc.reserve ≠ .free ∨ s.al.battery.fresh then 0
  else if 0 < discharge then discharge
  else if 0 < charge then -(charge : Int)
  else 0

/-- Stages 10 to 12 and the last-pass record (R87 to R90). -/
def writeResults (n : Snapshot) (c : Computed) (s : State) : State :=
  let g := s.grantSum
  let t := c.curtailment g n.exportCap
  let setpoint := s.passSetpoint c.discharge c.charge
  let s1 := writeLimits n t s
  { s1 with
    al.share := sharesOf c.canopy c.discharge c.charge g (nextPassNumber s.al.share.passNumber)
    al.battery := { s1.al.battery with setpoint := setpoint, fresh := false }
    al.lastPass := {
      load := c.load, canopy := c.canopy, b0 := c.b0, dm := c.dm, discharge := c.discharge, charge := c.charge
      budget := c.budget, granted := g, netImport := c.netImport g, curtailed := t, setpoint := setpoint
      batteryAvailable := n.batteryAvailable, held := c.held, trimmed := c.trimmed } }

/-- The end of a pass: the next pass begins at once if the again flag is set, the refresh timer starts otherwise (R69, R70). -/
def finishPass (s : State) : State :=
  if s.al.again then
    { s with al.again := false, al.passState := .running, al.snapshot := none, al.refresh := none }
  else { s with al.passState := .idle, al.snapshot := none, al.refresh := some (s.runTimer + 5000) }

/-- All the writes of a pass at its end (R84 to R90), and what follows it (R69). -/
def endPass (n : Snapshot) (s : State) : State :=
  let c := n.compute
  let s1 := writeAllGrants c.claims s
  let s2 := countHeld c.held (writeSessionStates c.claims s1)
  finishPass (writeResults n c s2)

/-! ## The end of a step -/

/-- A pass that has begun in this step takes its snapshot, which sets each member's demand in use and the L and S used
(R69, R75, R73; logs 6 and 8). -/
def sampleIfBegun (s : State) : State :=
  if s.al.passState = .running ∧ s.al.snapshot = none then
    let n := s.takeSnapshot
    { s with
      al.snapshot := some n
      al.queue := s.al.queue.map fun m => { m with demandInUse := (s.slot m.slot).demand }
      al.usedLoad := n.load
      al.usedCanopy := n.canopy }
  else s

/-- The outcome of a command that has had its effect: a pass begun in it is sampled, and the free values advance. -/
def done (s : State) : Outcome :=
  .next { sampleIfBegun s with freeDraws := s.freeDraws + 1 }

end Sys2Proof.Machine
end

