-- ==== Sys2Proof/Machine/Sessions.lean ====
section
/-! DEFINITION. The life of a session: run permission, release of what it holds, its receipt and settlement, ending with
confirmation, abandonment, and authorisation (chapters 3, 5, 7, 9). -/

namespace Sys2Proof.Machine

/-! ## Run permission and suspension (R102) -/

/-- A session enters SUSPENDED with a cause; a change of run_permit is a pass request (R102, R103, R105). -/
def suspendSlot (k : SlotId) (cause : SuspendCause) (s : State) : State :=
  requestPassIf (s.slot k).runPermit
    (s.modSlot k fun x => { x with state := .suspended, suspendCause := some cause, runPermit := false })

/-- A session leaves SUSPENDED for WAITING (R104, R106). -/
def resumeSlot (k : SlotId) (s : State) : State :=
  requestPassIf (!(s.slot k).runPermit)
    (s.modSlot k fun x => { x with state := .waiting, suspendCause := none, runPermit := true })

/-! ## Release of what a session holds (R123, R128, R137, R160) -/

/-- The end of a session's account hold: the holder count of the entry named by its account index falls by 1 (R128). -/
def endHold (k : SlotId) (s : State) : State :=
  if (s.slot k).accountHold then
    let s' := s.modSlot k fun x => { x with accountHold := false }
    match (s.slot k).accountIndex with
    | some i => s'.modAccount i fun a => { a with holders := a.holders - 1 }
    | none => s'
  else s

/-- A credit's fate after the return of r Wh (R123): ISSUED again with energy left and no mark, retired otherwise. -/
def releaseCredit (key r : Nat) (s : State) : State :=
  match s.cs.credits.find? (fun c => c.key == key) with
  | none => s
  | some c =>
    if 0 < c.remainingWh + r ∧ c.voided = false ∧ c.expired = false then
      s.setCredits (updateCredit key
        (fun c => { c with state := .issued, remainingWh := c.remainingWh + r, holder := none }) s.cs.credits)
    else s.setCredits (removeCredit key s.cs.credits)

/-- The release of a session's allowance source (R137): return, write-off, the source's fate, the slot. -/
def releaseSource (k : SlotId) (s : State) : State :=
  let r := (s.slot k).blockLeft / 1000
  let cleared := s.modSlot k fun x => { x with source := none, blockLeft := 0, finalBlock := false }
  match (s.slot k).source with
  | none => s
  | some (.credit key) => releaseCredit key r cleared
  | some (.account i) =>
    endHold k (cleared.modAccount i fun a => { a with remainingWh := min a.allowanceWh (a.remainingWh + r) })

/-- Step 4 of settlement: an allowance source is released; an account held without one has its hold ended (R160). -/
def releaseHoldings (k : SlotId) (s : State) : State :=
  match (s.slot k).source with
  | some _ => releaseSource k s
  | none => endHold k s

/-! ## The receipt (R155 to R159) -/

/-- The amount due in hundredths, rounded half up (R157). -/
def amountDue (cost : Nat) : Nat := (cost + 5000000) / 10000000

/-- The receipt of a slot (Table 9-2, R156). -/
def receiptOf (k : SlotId) (x : Slot) : Receipt where
  slot := k
  sequence := x.sequence
  bay := x.bay
  openTime := x.openTime
  endTime := x.endTime.getD {}
  endCause := x.endCause
  payment := x.payment
  spendCap := if x.payment = .card then x.spendCap else none
  accountIndex := if x.payment = .account then x.accountIndex else none
  creditKey := x.lastCreditKey
  energyWh := x.energyWh
  solarWh := x.solar / 1000
  batteryWh := x.battery / 1000
  gridWh := x.energyWh - x.solar / 1000 - x.battery / 1000
  coveredWh := x.covered / 1000
  amountDue := amountDue x.cost
  flags := x.flags

/-! ## Settlement (R56) -/

/-- The bay state a settling rule gives. -/
inductive BayAfter where
  | idle
  | stopped
  | fault
  | blocked
deriving DecidableEq, Repr

/-- STOPPED while the plug is connected, IDLE otherwise (Table 9-1). -/
def afterByPlug (plug : Bool) : BayAfter := if plug then .stopped else .idle

/-- Step 1 of settlement; `cause` absent keeps the cause the session has. -/
def settleSlot (k : SlotId) (cause : Option EndCause) (s : State) : State :=
  let x := s.slot k
  requestPassIf x.runPermit (s.setSlot k { x with
    state := .settled
    endTime := some s.stamp
    endCause := cause.or x.endCause
    authDeadline := none
    endDeadline := none
    runPermit := false
    suspendCause := none })

/-- Step 3 of settlement: the bay's grant, scan slot, link-loss wait, state, session field and stop flag (R56, R64, R101). -/
def settleBay (b : BayId) (k : SlotId) (after : BayAfter) (s : State) : State :=
  let s := writeGrantSet b 0 (s.modBay b fun y => { y with scan := .empty, lostDeadline := none })
  match after with
  | .idle => s.modBay b fun y => { y with state := .idle, session := none }
  | .stopped => s.modBay b fun y => { y with state := .stopped, session := some k, stopFlag := true }
  | .fault => enterFault b s
  | .blocked => enterBlocked b (s.modBay b fun y => { y with stopFlag := true })

/-- Step 5 of settlement: the receipt is computed and RECEIPT_READY counted (R155, R161). -/
def makeReceipt (k : SlotId) (s : State) : State :=
  countNotice .receiptReady k.val 0 (s.modSlot k fun x => { x with receipt := some (receiptOf k x) })

/-- Settlement of a session in a live state, in the five steps of R56. -/
def settle (k : SlotId) (cause : Option EndCause) (after : BayAfter) (s : State) : State :=
  let x := s.slot k
  let s1 := settleSlot k cause s
  let s2 := if x.state.queued then leaveQueue k s1 else s1
  let s3 := settleBay x.bay k after s2
  makeReceipt k (releaseHoldings k s3)

/-- The settlement of a session in ENDING whose bay is lost (R65, R100). -/
def settleLost (k : SlotId) (s : State) : State :=
  settle k (some .linkLost) .fault
    (s.modSlot k fun x => { x with flags := { x.flags with endUnconfirmed := true, linkLostDuring := true } })

/-- A session in OPENING without energy is abandoned (R53, R54). -/
def abandon (k : SlotId) (s : State) : State :=
  let b := (s.slot k).bay
  (s.setSlot k {}).modBay b fun y =>
    if y.plug then { y with scan := .empty, lostDeadline := none, state := .stopped, session := none, stopFlag := true }
    else { y with scan := .empty, lostDeadline := none, state := .idle, session := none }

/-- The end of a session in OPENING: abandoned without energy, settled with its cause otherwise (R53, R54). -/
def endOpening (k : SlotId) (cause : EndCause) (s : State) : State :=
  if (s.slot k).energyWh = 0 then abandon k s
  else settle k (some cause) (afterByPlug (s.bay (s.slot k).bay).plug) s

/-! ## Ending with confirmation (R58) -/

/-- A session in WAITING, CHARGING or SUSPENDED enters ENDING; at an OFFLINE bay it is settled at once (R100, log 30). -/
def enterEnding (k : SlotId) (cause : EndCause) (s : State) : State :=
  let x := s.slot k
  let s1 := requestPassIf x.runPermit (s.setSlot k { x with
    state := .ending
    endCause := some cause
    runPermit := false
    suspendCause := none
    endDeadline := some (s.runTimer + s.sc.timing.tEnd * 1000) })
  let s2 := leaveQueue k s1
  let s3 := writeGrantSet x.bay 0 (s2.modBay x.bay fun y => { y with stopFlag := true, scan := .empty })
  if s3.bayOnline x.bay then s3 else settleLost k s3

/-! ## Authorisation (R51) -/

/-- The arrival counter after it has given its value: from 4,294,967,295 to 0 (R45). -/
def nextArrival (n : Nat) : Nat := (n + 1) % 4294967296

/-- A session in OPENING is authorised (R51). -/
def authorise (k : SlotId) (s : State) : State :=
  let n := s.st.arrival
  let s1 := s.modSlot k fun x => { x with authDeadline := none, arrival := n }
  let s2 := joinQueue k { s1 with st.arrival := nextArrival n }
  if s2.heldByShed (s2.slot k).cls then
    s2.modSlot k fun x => { x with state := .suspended, suspendCause := some .shed, runPermit := false }
  else
    requestPassIf (!(s2.slot k).runPermit) (s2.modSlot k fun x => { x with state := .waiting, runPermit := true })

/-- A session in OPENING is authorised; another is left as it is (R51: a session is authorised once). -/
def authoriseIfOpening (k : SlotId) (s : State) : State :=
  if (s.slot k).state = .opening then authorise k s else s

/-! ## The spend cap (R48, R148) -/

/-- The cost in hundredths, rounded down (R148). -/
def costHundredths (cost : Nat) : Nat := cost / 10000000

/-- The spend-cap test of a session under CARD (R48, R148). -/
def testSpendCap (k : SlotId) (s : State) : State :=
  let x := s.slot k
  match x.spendCap with
  | some cap =>
    if x.payment = .card ∧ x.state.queued ∧ cap ≤ costHundredths x.cost then enterEnding k .capReached s else s
  | none => s

end Sys2Proof.Machine
end

