-- ==== Sys2Proof/Machine/Lines.lean ====
section
/-! DEFINITION. The line inputs: qualification of the pins, line changes of SHED and RSV_REQ, shed onset and end, the reserve
(R12 to R17, R89, R103, R104, R108), and the rows LINE_PIN_CHANGE and LINE_QUALIFIED. -/

namespace Sys2Proof.Machine

/-! ## Shedding (R103, R104) -/

/-- A shed onset reaches the sessions of some classes (R103). -/
def shedOnset (classes : SessionClass → Bool) (s : State) : State :=
  (indices 64).foldl (fun t k =>
    if (t.slot k).state = .waiting ∨ (t.slot k).state = .charging then
      if classes (t.slot k).cls then suspendSlot k .shed t else t
    else t) s

/-- A shed end reaches the sessions of some classes, under the resume mode in force (R104). -/
def shedEnd (classes : SessionClass → Bool) (s : State) : State :=
  match s.sc.lines.resumeMode with
  | .commanded => s
  | .auto =>
    (indices 64).foldl (fun t k =>
      if (t.slot k).state = .suspended ∧ (t.slot k).suspendCause = some .shed ∧ classes (t.slot k).cls = true then
        resumeSlot k t
      else t) s

/-- A line change of SHED is handed to ST, AL and HP (R14). -/
def shedChanged (s : State) : State :=
  let s1 := if s.shedActive then shedOnset s.sc.lines.scope.has s else shedEnd s.sc.lines.scope.has s
  countNotice .lineChange 0 0 (requestPass s1)

/-! ## The reserve (R16, R89) -/

/-- The battery inverter is not declared or is OFFLINE. -/
def State.batteryAbsent (s : State) : Bool :=
  let d := s.device Role.battery.entry
  !d.declared || d.link == .offline

/-- The setpoint held becomes 0 at a claim, and a pass now running writes 0 at its end, whatever becomes of the claim until
then (R89, R108, log 32). -/
def zeroSetpoint (s : State) : State :=
  { s with al.battery := { s.al.battery with
      setpoint := 0, fresh := s.al.battery.fresh || s.al.passState == .running } }

/-- RSV_REQ goes ACTIVE: the reserve is CLAIMED, the setpoint held becomes 0, and with no battery to wait for it is GRANTED
at once (R16, R89). -/
def claimReserve (s : State) : State :=
  let s1 := if s.sc.reserve = .free then { s with sc.reserve := .claimed } else s
  let s2 := zeroSetpoint s1
  countNotice .lineChange 1 0 (requestPass (if s.batteryAbsent then grantReserve s2 else s2))

/-- RSV_REQ goes INACTIVE: the reserve is FREE (R16). -/
def releaseReserve (s : State) : State :=
  countNotice .lineChange 1 0 (requestPass { s with sc.reserve := .free })

/-- A line change of RSV_REQ (R16). -/
def rsvReqChanged (s : State) : State := if s.rsvReqActive then claimReserve s else releaseReserve s

/-! ## Pins -/

/-- The time a level must hold to be stable, in ms (R12). -/
def qualifyMillis : Nat := 20

/-- A pin as it stands after a level change: the 20 ms begin again (R12). -/
def Pin.moved (p : Pin) (level : Level) (now : Nat) : Pin :=
  if p.level = level then p else { p with level := level, since := now }

/-- A pin's level is stable and differs from the level last taken (R12). -/
def Pin.qualified (p : Pin) (now : Nat) : Bool := p.level != p.taken && p.since + qualifyMillis ≤ now

/-- LINE_PIN_CHANGE. -/
def execLinePinChange (line : Line) (level : Level) (s : State) : Outcome :=
  match line with
  | .shed => done { s with sc.shedPin := s.sc.shedPin.moved level s.runTimer }
  | .rsvReq => done { s with sc.rsvReqPin := s.sc.rsvReqPin.moved level s.runTimer }

/-- The level of SHED is taken; a change of the line state is a line change (R12, R14). -/
def takeShedLevel (s : State) : State :=
  let s1 := { s with sc.shedPin := { s.sc.shedPin with taken := s.sc.shedPin.level } }
  if s1.shedActive = s.shedActive then s1 else shedChanged s1

/-- The level of RSV_REQ is taken (R12, R16). -/
def takeRsvReqLevel (s : State) : State :=
  let s1 := { s with sc.rsvReqPin := { s.sc.rsvReqPin with taken := s.sc.rsvReqPin.level } }
  if s1.rsvReqActive = s.rsvReqActive then s1 else rsvReqChanged s1

/-- LINE_QUALIFIED: nothing is taken of a pin whose level is not stable or is the level last taken (R12). -/
def execLineQualified (line : Line) (s : State) : Outcome :=
  match line with
  | .shed => if s.sc.shedPin.qualified s.runTimer then done (takeShedLevel s) else .next s
  | .rsvReq => if s.sc.rsvReqPin.qualified s.runTimer then done (takeRsvReqLevel s) else .next s

/-! ## The LINES write (R13 to R15) -/

/-- The classes of a scope that are not in another. -/
def ShedScope.without (x y : ShedScope) : SessionClass → Bool := fun c => x.has c && !y.has c

/-- The partial onset and end of a scope change while SHED is ACTIVE (R15). -/
def scopeChanged (old : ShedScope) (s : State) : State :=
  shedEnd (old.without s.sc.lines.scope) (shedOnset (s.sc.lines.scope.without old) s)

/-- SHED after a LINES write: a line change by the re-evaluation, or the scope change of R15 while it stays ACTIVE. -/
def reevaluateShed (was : Bool) (oldScope : ShedScope) (s : State) : State :=
  if s.shedActive ≠ was then shedChanged s
  else if s.shedActive then scopeChanged oldScope s
  else s

/-- RSV_REQ after a LINES write (R13). -/
def reevaluateRsvReq (was : Bool) (s : State) : State := if s.rsvReqActive ≠ was then rsvReqChanged s else s

/-- An accepted LINES write: the settings, then both line states from the levels last taken. Where both lines change, their
order is free (R13, R14, log 10). -/
def applyLines (new : LineSettings) (s : State) : State :=
  let shedWas := s.shedActive
  let rsvWas := s.rsvReqActive
  let s1 := { s with sc.lines := new }
  let shed := fun t => reevaluateShed shedWas s.sc.lines.scope t
  let rsv := fun t => reevaluateRsvReq rsvWas t
  if s1.shedActive ≠ shedWas ∧ s1.rsvReqActive ≠ rsvWas then
    (freeOrder s.freeDraws [Line.shed, Line.rsvReq]).foldl (fun t l =>
      match l with
      | .shed => shed t
      | .rsvReq => rsv t) s1
  else rsv (shed s1)

end Sys2Proof.Machine
end

