-- ==== Sys2Proof/Machine/Port.lean ====
section
/-! DEFINITION. The host port: the write and read transactions, the request held in PROCESSING and its answer, the frames
that HP refuses itself, and RESET (R9, R168 to R171, R179). -/

namespace Sys2Proof.Machine

/-- The answer of an owning block: a status and the fields of the payload (R169, R181). -/
structure Reply where
  status : Status
  payload : List Field := []
deriving DecidableEq, Repr

/-- A refusal with an empty payload (R181). -/
def refuse (st : Status) (s : State) : Reply × State := (⟨st, []⟩, s)

/-- The response is stored and the port goes to RESPONSE_WAITING (R169). -/
def answer (request : List Byte) (r : Reply) (s : State) : State :=
  s.setPort (.responseWaiting ⟨r.status, request.getD 0 0, serialize s.freeDraws r.payload⟩)

/-- A request row: the owning block takes the request held in PROCESSING, when it is the one the row carries (log 4). -/
def serve (i : Instr) (act : State → Reply × State) (s : State) : Outcome :=
  match s.hp.port with
  | .processing f =>
    if requestOf f = i then
      let r := act s
      done (answer f r.1 r.2)
    else .next s
  | .idle | .responseWaiting _ => .next s

/-- The bytes of the frame a read transaction clocks out: the response waiting, or the idle frame, with the dropped-request
count as it stands (R170, Table 11-1). -/
def State.readFrame (s : State) : List Byte :=
  let frame := fun (status : Nat) (echo : Byte) (payload : List Byte) =>
    be 1 status ++ echo :: be 1 s.hp.dropped ++ be 2 payload.length ++ payload
  match s.hp.port with
  | .responseWaiting r => frame r.status.code r.kindEcho r.payload
  | .idle | .processing _ => frame 0 0 []

/-- The first bytes of a frame, with bytes of 0 past its end (R179). -/
def clockOut (count : Nat) (frame : List Byte) : List Byte :=
  frame.take count ++ List.replicate (count - frame.length) 0

/-- HOST_WRITE_TRANSACTION: taken in IDLE, dropped and counted otherwise (R168); with no byte there is no transaction (log 18). -/
def execHostWriteTransaction (bytes : List Byte) (s : State) : Outcome :=
  if bytes = [] then .next s
  else
    match s.hp.port with
    | .idle => done (s.setPort (.processing bytes))
    | .processing _ | .responseWaiting _ => done { s with hp.dropped := min 255 (s.hp.dropped + 1) }

/-- The port state after a read transaction (R170). -/
def Port.afterRead : Port → Port
  | .responseWaiting _ => .idle
  | .idle => .idle
  | .processing f => .processing f

/-- HOST_READ_TRANSACTION: the frame is clocked out, a response is consumed, and the dropped count is set to 0 (R170). -/
def execHostReadTransaction (count : Nat) (s : State) : Outcome :=
  if count = 0 then .next s
  else
    done { s with hp := { s.hp with
      miso := clockOut count s.readFrame
      dropped := 0
      port := s.hp.port.afterRead } }

/-- BAD_REQUEST_FRAME: HP answers a wrong frame or an unknown kind itself (R169). -/
def execBadRequestFrame (bytes : List Byte) (s : State) : Outcome :=
  serve (.badRequestFrame bytes) (refuse .badRequest) s

/-- A pin that keeps its level through reset: the level last taken is the inverse of the reset active level (R12). -/
def Pin.afterReset (p : Pin) : Pin := { level := p.level, since := 0, taken := .low }

/-- RESET: every record, table, counter, timer and line at its reset value; the commands that wait outside, the levels that
the pins are driven at, and the model's free-value counter are not the part's to reset (log 20). -/
def execReset (s : State) : Outcome :=
  .next { State.reset with
    pending := s.pending
    freeDraws := s.freeDraws
    sc.shedPin := s.sc.shedPin.afterReset
    sc.rsvReqPin := s.sc.rsvReqPin.afterReset }

end Sys2Proof.Machine
end

