-- ==== Sys2Proof/Machine/SiteRequests.lean ====
section
/-! DEFINITION. The configuration requests SITE LIMITS, FALLBACK LOAD, BATTERY, LAYOUT, TIMING and LINES, the gate, and READ
SITE (chapter 1, R174). -/

namespace Sys2Proof.Machine

/-- OK, or OK_CLAMPED when a number was changed (R1, step 4). -/
def okOr (clamped : Bool) : Status := if clamped then .okClamped else .ok

/-- A read of length 0, or a length that is not that of the request (R1, check 1): the answer carries the settings. -/
def settingsReply (st : Status) (fields : State → List Field) (s : State) : Reply × State := (⟨st, fields s⟩, s)

/-! ## The gate (R9, R11) -/

/-- The gate goes OPEN when the second mark is given, and hands the opening to AL and HP (R9, R11). -/
def openGateIfMarked (s : State) : State :=
  if s.sc.gate = .closed ∧ s.sc.limitsMark = true ∧ s.sc.layoutMark = true then
    evalAttn (requestPass { s with sc.gate := .opened })
  else s

/-! ## SITE LIMITS (R2) -/

def limitsFields (s : State) : List Field := [u2 s.sc.importCap, u2 s.sc.margin, u2 s.sc.exportCap]

/-- C, M and X brought within their ranges, and M within C (R2). -/
def clampLimits (c m x : Nat) : Nat × Nat × Nat :=
  let c' := min 20000 c
  (c', min (min 2000 m) c', min 20000 x)

def siteLimitsAct (p : List Byte) (s : State) : Reply × State :=
  if p.length = 0 then settingsReply .ok limitsFields s
  else if p.length ≠ 6 then settingsReply .badRequest limitsFields s
  else
    let asked := (arg p 0 2, arg p 2 2, arg p 4 2)
    let v := clampLimits asked.1 asked.2.1 asked.2.2
    let s1 := { s with sc := { s.sc with importCap := v.1, margin := v.2.1, exportCap := v.2.2, limitsMark := true } }
    let s2 := requestPass (openGateIfMarked s1)
    (⟨okOr (v != asked), limitsFields s2⟩, s2)

/-- SITE_LIMITS. -/
def execSiteLimits (p : List Byte) (s : State) : Outcome := serve (.siteLimits p) (siteLimitsAct p) s

/-! ## FALLBACK LOAD (R3) -/

def fallbackFields (s : State) : List Field :=
  match s.sc.fallback with
  | .follow => [u2 65535]
  | .fixed n => [u2 n]

def fallbackLoadAct (p : List Byte) (s : State) : Reply × State :=
  if p.length = 0 then settingsReply .ok fallbackFields s
  else if p.length ≠ 2 then settingsReply .badRequest fallbackFields s
  else
    let asked := arg p 0 2
    if asked = 65535 then
      let s1 := { s with sc.fallback := .follow }
      (⟨.ok, fallbackFields s1⟩, s1)
    else
      let s1 := { s with sc.fallback := .fixed (min 20000 asked) }
      (⟨okOr (20000 < asked), fallbackFields s1⟩, s1)

/-- FALLBACK_LOAD. -/
def execFallbackLoad (p : List Byte) (s : State) : Outcome := serve (.fallbackLoad p) (fallbackLoadAct p) s

/-! ## BATTERY (R4) -/

def batteryFields (s : State) : List Field := [u4 s.sc.eCap, u4 s.sc.eFloor, u2 s.sc.pDis, u2 s.sc.pCh]

def batteryAct (p : List Byte) (s : State) : Reply × State :=
  if p.length = 0 then settingsReply .ok batteryFields s
  else if p.length ≠ 12 then settingsReply .badRequest batteryFields s
  else
    let asked := (arg p 0 4, arg p 4 4, arg p 8 2, arg p 10 2)
    let cap := min 1000000 asked.1
    let v := (cap, min (min 1000000 asked.2.1) cap, min 5000 asked.2.2.1, min 5000 asked.2.2.2)
    let s1 := requestPass
      { s with sc := { s.sc with eCap := v.1, eFloor := v.2.1, pDis := v.2.2.1, pCh := v.2.2.2 } }
    (⟨okOr (v != asked), batteryFields s1⟩, s1)

/-- BATTERY. -/
def execBattery (p : List Byte) (s : State) : Outcome := serve (.battery p) (batteryAct p) s

/-! ## LAYOUT (R5, R6) -/

def layoutFields (s : State) : List Field :=
  [u1 s.sc.layoutMode, u2 s.sc.feederLimits[0], u2 s.sc.feederLimits[1], u2 s.sc.feederLimits[2], u2 s.sc.feederLimits[3]]

/-- A bay has a session in a live state or committed power above 0 (R6, R19). -/
def State.bayInUse (s : State) (b : BayId) : Bool := (s.liveSlot b).isSome || 0 < (s.bay b).committed

/-- The limits a LAYOUT applies: clamped for the feeders the mode uses, 0 for the others (R6). -/
def layoutLimits (mode : Nat) (p : List Byte) : Vector Nat 4 :=
  Vector.ofFn fun f => if modeUses mode f then min 10000 (arg p (1 + 2 * f.val) 2) else 0

/-- A limit of a used feeder above 10000 (R6). -/
def layoutClamps (mode : Nat) (p : List Byte) : Bool :=
  (indices 4).any fun f => modeUses mode f && 10000 < arg p (1 + 2 * f.val) 2

def layoutAct (p : List Byte) (s : State) : Reply × State :=
  if p.length = 0 then settingsReply .ok layoutFields s
  else if p.length ≠ 9 then settingsReply .badRequest layoutFields s
  else
    let mode := arg p 0 1
    if mode = 0 ∨ 4 < mode then settingsReply .outOfRange layoutFields s
    else if (indices 48).any s.bayInUse then settingsReply .inUse layoutFields s
    else
      let s1 := { s with
        sc := { s.sc with layoutMode := mode, feederLimits := layoutLimits mode p, layoutMark := true }
        bays := Vector.ofFn fun b => { s.bay b with feeder := feederOf mode b } }
      let s2 := openGateIfMarked s1
      (⟨okOr (layoutClamps mode p), layoutFields s2⟩, s2)

/-- LAYOUT. -/
def execLayout (p : List Byte) (s : State) : Outcome := serve (.layout p) (layoutAct p) s

/-! ## TIMING (R7, R8) -/

def timingFields (s : State) : List Field :=
  let t := s.sc.timing
  [u2 t.tAck, u2 t.tLost, u2 t.tAuth, u2 t.tEnd, u2 t.tQuery, u1 t.loopRate.code, u2 t.pollGap, u1 t.acAllowance,
    u1 t.dcAllowance, u1 t.sourceAllowance, u1 t.missThreshold]

/-- The loop rate of a TIMING (R180). -/
def loopRateOf : Nat → Option LoopRate
  | 0 => some .b19200
  | 1 => some .b57600
  | 2 => some .b115200
  | _ => none

/-- The timing parameters a TIMING carries, as asked. -/
def timingAsked (p : List Byte) (rate : LoopRate) : Timing :=
  { tAck := arg p 0 2, tLost := arg p 2 2, tAuth := arg p 4 2, tEnd := arg p 6 2, tQuery := arg p 8 2, loopRate := rate
    pollGap := arg p 11 2, acAllowance := arg p 13 1, dcAllowance := arg p 14 1, sourceAllowance := arg p 15 1
    missThreshold := arg p 16 1 }

/-- Each number brought within its range of Table 1-4. -/
def clampTiming (t : Timing) : Timing :=
  { tAck := clamp 1 60 t.tAck, tLost := clamp 10 600 t.tLost, tAuth := clamp 30 600 t.tAuth, tEnd := clamp 5 120 t.tEnd
    tQuery := clamp 5 120 t.tQuery, loopRate := t.loopRate, pollGap := clamp 0 1000 t.pollGap
    acAllowance := clamp 2 50 t.acAllowance, dcAllowance := clamp 2 50 t.dcAllowance
    sourceAllowance := clamp 2 50 t.sourceAllowance, missThreshold := clamp 1 15 t.missThreshold }

def timingAct (p : List Byte) (s : State) : Reply × State :=
  if p.length = 0 then settingsReply .ok timingFields s
  else if p.length ≠ 17 then settingsReply .badRequest timingFields s
  else
    match loopRateOf (arg p 10 1) with
    | none => settingsReply .outOfRange timingFields s
    | some rate =>
      let asked := timingAsked p rate
      let s1 := { s with sc.timing := clampTiming asked }
      (⟨okOr (clampTiming asked != asked), timingFields s1⟩, s1)

/-- TIMING. -/
def execTiming (p : List Byte) (s : State) : Outcome := serve (.timing p) (timingAct p) s

/-! ## LINES (R13 to R15) -/

def scopeBits (sc : ShedScope) : Nat := packBits [sc.firm, sc.rapid, sc.ordinary]

def linesFields (s : State) : List Field :=
  let l := s.sc.lines
  [u1 (levelCode l.shedActive), u1 (levelCode l.rsvReqActive), u1 (levelCode l.rsvAckActive), u1 (scopeBits l.scope),
    u1 l.resumeMode.code, flag s.shedActive, flag s.rsvReqActive, flag s.rsvAck]

/-- A level of a LINES (R180). -/
def levelOf : Nat → Option Level
  | 0 => some .high
  | 1 => some .low
  | _ => none

/-- A resume mode of a LINES (R180). -/
def resumeModeOf : Nat → Option ResumeMode
  | 0 => some .auto
  | 1 => some .commanded
  | _ => none

/-- A shed scope of a LINES (R180): a byte with a bit above bit 2 set is outside its set. -/
def scopeOf (n : Nat) : Option ShedScope :=
  if n < 8 then some ⟨n.testBit 0, n.testBit 1, n.testBit 2⟩ else none

/-- The settings a LINES carries; none when a field is outside its set (R13). -/
def linesAsked (p : List Byte) : Option LineSettings := do
  let shed ← levelOf (arg p 0 1)
  let req ← levelOf (arg p 1 1)
  let ack ← levelOf (arg p 2 1)
  let scope ← scopeOf (arg p 3 1)
  let mode ← resumeModeOf (arg p 4 1)
  return { shedActive := shed, rsvReqActive := req, rsvAckActive := ack, scope := scope, resumeMode := mode }

def linesAct (p : List Byte) (s : State) : Reply × State :=
  if p.length = 0 then settingsReply .ok linesFields s
  else if p.length ≠ 5 then settingsReply .badRequest linesFields s
  else
    match linesAsked p with
    | none => settingsReply .outOfRange linesFields s
    | some new =>
      let s1 := applyLines new s
      (⟨.ok, linesFields s1⟩, s1)

/-- LINES. -/
def execLines (p : List Byte) (s : State) : Outcome := serve (.lines p) (linesAct p) s

/-! ## READ SITE (R174, Table 11-4) -/

/-- How many bays hold committed power (R166, R174). -/
def State.baysCommitted (s : State) : Nat := ((indices 48).filter fun b => 0 < (s.bay b).committed).length

/-- The sum of committed power over a feeder (R174). -/
def State.feederCommitted (s : State) (f : FeederId) : Nat :=
  ((indices 48).map fun b => if (s.bay b).feeder = f then (s.bay b).committed else 0).sum

def readSiteFields (s : State) : List Field :=
  let r := s.al.lastPass
  let sh := s.al.share
  [u2 sh.passNumber, u2 r.load, u2 r.canopy, signedField 4 r.b0, u4 r.dm, u2 r.discharge, u2 r.charge, u2 r.budget,
    u4 r.granted, signedField 4 r.netImport, u2 sh.solar, u2 sh.battery, u2 sh.grid, flag r.curtailed.isSome,
    optional 2 r.curtailed, signedField 2 r.setpoint, flag r.batteryAvailable, u1 r.held, u1 r.trimmed,
    u1 s.al.passState.code, u1 (packBits [s.al.again, s.al.permit]),
    u1 (packBits [s.sc.gate == .opened, s.sc.limitsMark, s.sc.layoutMark]),
    u1 (packBits [s.shedActive, s.rsvReqActive]), u1 s.sc.reserve.code, u1 s.al.queue.length, u1 s.baysCommitted, u1 0]
    ++ (indices 4).map fun f => u4 (s.feederCommitted f)

/-- An answer that carries a read of the state as it stands. -/
def readAct (length : Nat) (p : List Byte) (fields : State → List Field) (s : State) : Reply × State :=
  if p.length = length then (⟨.ok, fields s⟩, s) else refuse .badRequest s

/-- READ_SITE. -/
def execReadSite (p : List Byte) (s : State) : Outcome := serve (.readSite p) (readAct 0 p readSiteFields) s

end Sys2Proof.Machine
end

