-- ==== Sys2Proof/Machine/ClockRequests.lean ====
section
/-! DEFINITION. CLOCK with the day rollover, TARIFF and BLOCK SIZE (R122, R132, R138, R149 to R154). -/

namespace Sys2Proof.Machine

/-! ## The day rollover (R122, R138, R150) -/

/-- A record whose expiry day has passed: retired while ISSUED, marked while HELD (R122). -/
def Credit.atRollover (day : Nat) (c : Credit) : Option Credit :=
  if c.expiryDay < day then
    match c.state with
    | .issued => none
    | .held => some { c with expired := true }
  else some c

/-- An account at the daily restore (R138). -/
def Account.restored (a : Account) : Account :=
  if a.enabled then { a with remainingWh := a.allowanceWh } else a

/-- A day rollover is handed to CS with the new day (R150). -/
def rollover (day : Nat) (s : State) : State :=
  { s with cs := { s.cs with
      credits := s.cs.credits.filterMap (Credit.atRollover day)
      accounts := s.cs.accounts.map Account.restored } }

/-! ## CLOCK (R151) -/

def clockFields (s : State) : List Field := [u2 s.tc.day, u4 s.tc.second]

/-- An accepted CLOCK write (R151). -/
def setClock (day second : Nat) (s : State) : State :=
  let s1 := { s with tc := { s.tc with day := day, second := second, millis := 0 } }
  if s.tc.day < day then rollover day s1 else s1

def clockAct (p : List Byte) (s : State) : Reply × State :=
  if p.length = 0 then settingsReply .ok clockFields s
  else if p.length ≠ 6 then refuse .badRequest s
  else if 86399 < arg p 2 4 then refuse .outOfRange s
  else
    let s1 := setClock (arg p 0 2) (arg p 2 4) s
    (⟨.ok, clockFields s1⟩, s1)

/-- CLOCK. -/
def execClock (p : List Byte) (s : State) : Outcome := serve (.clock p) (clockAct p) s

/-! ## TARIFF (R152) -/

/-- The mark of an unused band. -/
def unusedStart : Nat := 65535

def bandFields (b : Band) : List Field := [u2 (b.start.getD unusedStart), u2 b.price]

/-- The response to TARIFF: the table and the canopy price as stored, the band in force and its price (Table 11-9). -/
def tariffFields (s : State) : List Field :=
  s.tc.bands.toList.flatMap bandFields
    ++ [u2 s.tc.canopyPrice, u1 (match s.tc.bandNow with | some n => n.val | none => 255), u2 s.tc.bandPrice]

/-- The start a TARIFF carries for a band. -/
def askedStart (p : List Byte) (n : BandId) : Nat := arg p (4 * n.val) 2

/-- The price a TARIFF carries for a band. -/
def askedPrice (p : List Byte) (n : BandId) : Nat := arg p (4 * n.val + 2) 2

/-- A band that check 2 of R152 refuses. -/
def bandRefused (p : List Byte) (n : BandId) : Bool :=
  askedStart p n != unusedStart && (1439 < askedStart p n || 9999 < askedPrice p n)

/-- A band as it is stored (R152). -/
def storedBand (p : List Byte) (n : BandId) : Band :=
  if askedStart p n = unusedStart then {} else { start := some (askedStart p n), price := askedPrice p n }

def tariffAct (p : List Byte) (s : State) : Reply × State :=
  if p.length = 0 then settingsReply .ok tariffFields s
  else if p.length ≠ 18 then refuse .badRequest s
  else if (indices 4).any (bandRefused p) ∨ 9999 < arg p 16 2 then refuse .outOfRange s
  else
    let s1 := { s with tc := { s.tc with bands := Vector.ofFn (storedBand p), canopyPrice := arg p 16 2 } }
    (⟨.ok, tariffFields s1⟩, s1)

/-- TARIFF. -/
def execTariff (p : List Byte) (s : State) : Outcome := serve (.tariff p) (tariffAct p) s

/-! ## BLOCK SIZE (R132) -/

def blockSizeFields (s : State) : List Field := [u2 s.cs.blockSize]

def blockSizeAct (p : List Byte) (s : State) : Reply × State :=
  if p.length = 0 then settingsReply .ok blockSizeFields s
  else if p.length ≠ 2 then refuse .badRequest s
  else if arg p 0 2 < 100 ∨ 5000 < arg p 0 2 then refuse .outOfRange s
  else
    let s1 := { s with cs.blockSize := arg p 0 2 }
    (⟨.ok, blockSizeFields s1⟩, s1)

/-- BLOCK_SIZE. -/
def execBlockSize (p : List Byte) (s : State) : Outcome := serve (.blockSize p) (blockSizeAct p) s

end Sys2Proof.Machine
end

