-- ==== Sys2Proof/Machine/Blocks.lean ====
section
/-! DEFINITION. Drawing energy blocks from credits and accounts, exhaustion, attaching a credit, and the scans of tokens and
receipts at a bay (chapters 6 and 7, R48 to R50). -/

namespace Sys2Proof.Machine

/-! ## Draw and exhaustion (R133, R135) -/

/-- The available energy of a source (R133): a disabled account has none. -/
def State.available (s : State) : Source → Nat
  | .credit key =>
    match s.cs.credits.find? (fun c => c.key == key) with
    | some c => c.remainingWh
    | none => 0
  | .account i => if (s.account i).enabled then (s.account i).remainingWh else 0

/-- A source's remaining_Wh falls by the Wh of a block (R133). -/
def takeFrom (w : Nat) (s : State) : Source → State
  | .credit key => s.setCredits (updateCredit key (fun c => { c with remainingWh := c.remainingWh - w }) s.cs.credits)
  | .account i => s.modAccount i fun a => { a with remainingWh := a.remainingWh - w }

/-- Whether a source covers only solar energy (R146). -/
def State.sourceSolarOnly (s : State) : Source → Bool
  | .credit key =>
    match s.cs.credits.find? (fun c => c.key == key) with
    | some c => c.solarOnly
    | none => false
  | .account i => (s.account i).solarOnly

/-- The notice of an exhaustion: ACCOUNT_EXHAUSTED for an account, none for a credit (R135, step 2). -/
def countExhausted (s : State) : Source → State
  | .credit _ => s
  | .account i => countNotice .accountExhausted i.val 0 s

/-- A source found exhausted (R135): release, notice, and the session goes on by its payment and state. -/
def exhaust (k : SlotId) (src : Source) (s : State) : State :=
  let s' := countExhausted (releaseSource k s) src
  if (s'.slot k).payment = .unpaid ∧ (s'.slot k).state.queued then enterEnding k .creditExhausted s' else s'

/-- A draw for a session from its allowance source (R133). -/
def draw (k : SlotId) (s : State) : State :=
  match (s.slot k).source with
  | none => s
  | some src =>
    let avail := s.available src
    if 0 < avail then
      let w := min s.cs.blockSize avail
      (takeFrom w s src).modSlot k fun x => { x with blockLeft := w * 1000, finalBlock := avail == w }
    else exhaust k src s

/-! ## Attach (R114) -/

/-- An ISSUED record is joined to the session of a bay (R114). -/
def attach (key : Nat) (k : SlotId) (b : BayId) (s : State) : State :=
  let s1 := s.setCredits (updateCredit key (fun c => { c with state := .held, holder := some k }) s.cs.credits)
  let s2 := s1.modSlot k fun x => { x with source := some (.credit key), lastCreditKey := some key }
  let s3 := draw k s2
  authoriseIfOpening k (emptyScan b (setMessage b .creditOk s3))

/-! ## Card approval (R48) -/

/-- A card approval taken at step 7 of R42. -/
def takeCard (k : SlotId) (cap : Nat) (s : State) : State :=
  let x := s.slot k
  if cap = 0 ∨ x.payment = .account then s
  else
    let s1 := s.modSlot k fun x => { x with payment := .card, spendCap := some cap }
    testSpendCap k (authoriseIfOpening k s1)

/-! ## Token scan (R49, R127) -/

/-- The enabled entry whose token equals a key; a key of 0 finds none (R127, log 34). -/
def findToken (key : Nat) (s : State) : Option AccountId :=
  if key = 0 then none
  else (indices 16).find? fun i => (s.account i).enabled && (s.account i).token == key

/-- The session's class after a token of an account (R49). -/
def classUnder : AccountClass → SessionClass → SessionClass
  | .firm, _ => .firm
  | .ordinary, c => c

/-- A token is accepted: payment, hold, class, first block, scan slot, message, authorisation (R49, R127, R128). -/
def acceptToken (i : AccountId) (k : SlotId) (b : BayId) (s : State) : State :=
  let a := s.account i
  let s1 := s.modAccount i fun a => { a with holders := a.holders + 1 }
  let s2 := s1.modSlot k fun x =>
    { x with payment := .account, accountIndex := some i, accountHold := true, cls := classUnder a.cls x.cls }
  let s3 := if 0 < a.allowanceWh then draw k (s2.modSlot k fun x => { x with source := some (.account i) }) else s2
  authoriseIfOpening k (setMessage b .creditOk (emptyScan b s3))

/-- A scan of kind TOKEN at a bay with a session in a live state (R49). -/
def takeToken (key : Nat) (k : SlotId) (b : BayId) (s : State) : State :=
  if (s.slot k).state = .opening then
    match findToken key s with
    | some i =>
      if (s.account i).holders < (s.account i).maxHolders then acceptToken i k b s else setMessage b .creditInUse s
    | none => setMessage b .creditNotValid s
  else setMessage b .creditNotValid s

/-! ## Receipt scan (R113, R115, R116) -/

/-- The overwrite count of the query a new one replaces: raised by 1, staying at 255 (R116); 0 at an EMPTY slot (R115). -/
def nextOverwrites : ScanSlot → Nat
  | .empty => 0
  | .pending _ n _ => min 255 (n + 1)

/-- The scan slot becomes PENDING with a key (R115, R116, log 36). -/
def makePending (key : Nat) (b : BayId) (s : State) : State :=
  countNotice .creditQuery b.val key
    (s.modBay b fun y =>
      { y with
        scan := .pending key (nextOverwrites y.scan) (s.runTimer + s.sc.timing.tQuery * 1000)
        message := none })

/-- A refused receipt scan: the message is set, and a query the slot holds is ended (R113, R116). -/
def refuseReceipt (b : BayId) (c : MessageCode) (s : State) : State := emptyScan b (setMessage b c s)

/-- A scan of kind RECEIPT handed to CS: the first case of Table 6-3 that applies. -/
def takeReceiptScan (key : Nat) (k : SlotId) (b : BayId) (s : State) : State :=
  if (s.slot k).source.isSome then refuseReceipt b .creditInUse s
  else if (s.slot k).payment = .account then refuseReceipt b .creditNotValid s
  else
    match lookupCredit key s with
    | some c => if c.state = .issued then attach key k b s else refuseReceipt b .creditInUse s
    | none => makePending key b s

/-- Step 8 of R42 (R49, R50). -/
def takeScan (sc : Scan) (b : BayId) (s : State) : State :=
  match s.liveSlot b with
  | none => setMessage b .plugFirst s
  | some k =>
    match sc.kind with
    | .token => takeToken sc.key k b s
    | .receipt =>
      if (s.slot k).state = .ending then setMessage b .creditNotValid s else takeReceiptScan sc.key k b s

end Sys2Proof.Machine
end

