-- ==== Sys2Proof/Machine/Metering.lean ====
section
/-! DEFINITION. The absorption of a meter register: baseline, difference, plausibility, accrual with its split, coverage,
pricing and the spend-cap test (chapter 8, R139 to R148). -/

namespace Sys2Proof.Machine

/-- The difference between registers of a width (R141). -/
def meterDelta (width register last : Nat) : Nat := (register + 2 ^ width - last % 2 ^ width) % 2 ^ width

/-- The whole seconds since the last absorbed report, and 1 if that is 0 (R142). -/
def elapsedSeconds (now last : Nat) : Nat := max 1 ((now - last) / 1000)

/-- The plausibility bound in Wh (R142). -/
def plausibleBound (maxSteps seconds : Nat) : Nat := ceilDiv (maxSteps * seconds) 36 + 50

/-- The greatest energy_Wh (R143). -/
def energyLimit : Nat := 4294967295

/-- One part of the eligible energy is covered from the open block, with a draw whenever the block empties (R146). Gives the
part's uncovered mWh. A block drawn is at least 1000 mWh, so `part / 1000 + 2` rounds always suffice. -/
def coverPart (k : SlotId) : Nat → Nat → State → Nat × State
  | 0, part, s => (part, s)
  | fuel + 1, part, s =>
    if part = 0 ∨ (s.slot k).source = none then (part, s)
    else
      let take := min part (s.slot k).blockLeft
      let left := (s.slot k).blockLeft - take
      let s1 := s.modSlot k fun x => { x with covered := x.covered + take, blockLeft := left }
      coverPart k fuel (part - take) (if left = 0 then draw k s1 else s1)

/-- A part covered whole, as far as the source goes. -/
def cover (k : SlotId) (part : Nat) (s : State) : Nat × State := coverPart k (part / 1000 + 2) part s

/-- The uncovered parts of one report, and the state. -/
structure Uncovered where
  solar : Nat
  battery : Nat
  grid : Nat
  state : State

/-- Coverage of the three parts in the order solar, battery, grid; the solar part alone for a solar-only source (R146). -/
def coverAll (k : SlotId) (solar battery grid : Nat) (s : State) : Uncovered :=
  match (s.slot k).source with
  | none => ⟨solar, battery, grid, s⟩
  | some src =>
    let c1 := cover k solar s
    if s.sourceSolarOnly src then ⟨c1.1, battery, grid, c1.2⟩
    else
      let c2 := cover k battery c1.2
      let c3 := cover k grid c2.2
      ⟨c1.1, c2.1, c3.1, c3.2⟩

/-- The price of the uncovered parts in nano-CU (R147). -/
def priceOf (u : Uncovered) (canopyPrice bandPrice : Nat) : Nat :=
  u.solar * canopyPrice + (u.battery + u.grid) * bandPrice

/-- A plausible difference is accrued, covered, priced and tested against the spend cap (R145 to R148). -/
def accrue (k : SlotId) (delta : Nat) (s : State) : State :=
  let solar := delta * s.al.share.solar
  let battery := delta * s.al.share.battery
  let grid := delta * s.al.share.grid
  let s1 := s.modSlot k fun x =>
    { x with
      energyWh := x.energyWh + delta
      solar := x.solar + solar
      battery := x.battery + battery
      grid := x.grid + grid }
  let u := coverAll k solar battery grid s1
  let s2 := u.state.modSlot k fun x => { x with cost := x.cost + priceOf u s.tc.canopyPrice s.tc.bandPrice }
  testSpendCap k s2

/-- An implausible difference is a discontinuity of the meter (R143). -/
def meterJump (k : SlotId) (b : BayId) (s : State) : State :=
  countNotice .meterJump b.val 0
    (s.modSlot k fun x => { x with flags := { x.flags with meterDiscontinuity := true } })

/-- last_register and last_report_time at the end of an absorption (R140, R144). -/
def rebase (b : BayId) (register : Nat) (s : State) : State :=
  s.modBay b fun y => { y with lastRegister := register, lastReportTime := s.runTimer }

/-- Whether a difference is plausible (R142, R143). -/
def plausible (y : Bay) (x : Slot) (now delta : Nat) : Bool :=
  delta ≤ plausibleBound y.maxSteps (elapsedSeconds now y.lastReportTime) && x.energyWh + delta ≤ energyLimit

/-- A register is absorbed for the session of a bay (R139). -/
def absorb (b : BayId) (k : SlotId) (register : Nat) (s : State) : State :=
  let y := s.bay b
  let x := s.slot k
  if x.baselineSet = false then rebase b register (s.modSlot k fun x => { x with baselineSet := true })
  else
    let delta := meterDelta y.meterWidth register y.lastRegister
    let s1 :=
      if delta = 0 then s
      else if plausible y x s.runTimer delta then accrue k delta s
      else meterJump k b s
    rebase b register s1

end Sys2Proof.Machine
end

