-- ==== Sys2Proof/Machine/Reports.lean ====
section
/-! DEFINITION. What the outcome of an exchange does: a miss, a good report, the link hand-offs, the identity check, the ten
steps of a bay report, and the source reports (R27 to R38, R42 to R44, R54 to R62, R92, R93, R97 to R101). -/

namespace Sys2Proof.Machine

/-! ## Link changes (R28 to R30, R97, R100, R101) -/

/-- The link loss of a bay as BT takes it (R97, R100, R65). -/
def linkLossBay (b : BayId) (s : State) : State :=
  let s1 := s.modBay b fun y => { y with ackWait := none }
  match s1.liveSlot b with
  | none => s1
  | some k =>
    if (s1.slot k).state = .ending then settleLost k s1
    else
      (s1.modSlot k fun x => { x with flags := { x.flags with linkLostDuring := true } }).modBay b fun y =>
        { y with lostDeadline := some (s.runTimer + s.sc.timing.tLost * 1000) }

/-- The link return of a bay as BT takes it (R101). -/
def linkReturnBay (b : BayId) (s : State) : State := s.modBay b fun y => { y with lostDeadline := none }

/-- The hand-offs of a device that has gone OFFLINE (R30). -/
def handLoss (e : Entry) (s : State) : State :=
  match roleOf e with
  | .bay b => linkLossBay b s
  | .battery => grantReserve s
  | .canopy _ | .meter => s

/-- The hand-offs of a device that has come ONLINE (R30). -/
def handReturn (e : Entry) (s : State) : State :=
  match roleOf e with
  | .bay b => linkReturnBay b s
  | .battery | .canopy _ | .meter => s

/-- A change of link state: the notice, the pass request to AL (R28 to R30). -/
def countLink (e : Entry) (s : State) : State := requestPass (countNotice .loopDevice (loopAddress e) 0 s)

/-- A miss of the polled device (R28). -/
def takeMiss (e : Entry) (kind : MissKind) (s : State) : State :=
  let d := s.device e
  let count := min 15 (d.missCount + 1)
  let s1 := s.setDevice e { d with lastMiss := kind, missCount := count }
  if d.link = .online ∧ s.sc.timing.missThreshold ≤ count then
    handLoss e (countLink e (s1.modDevice e fun d => { d with link := .offline }))
  else s1

/-- A good report acts on the device entry (R29). -/
def takeGood (e : Entry) (s : State) : State :=
  let d := s.device e
  let s1 := s.setDevice e { d with missCount := 0, lastReportTime := s.runTimer, link := .online }
  if d.link = .offline then handReturn e (countLink e s1) else s1

/-! ## The demand (R55, R72) -/

/-- Whether a demand requests a pass against the demand in use (R72). -/
def demandMoved (new used : Nat) : Bool := 2 ≤ new - used || 2 ≤ used - new || (new == 0) != (used == 0)

/-- AL compares a demand with the demand in use (R72). -/
def compareDemand (k : SlotId) (demand : Nat) (s : State) : State :=
  let x := s.slot k
  match s.al.queue.find? fun m => m.slot == k with
  | some m =>
    requestPassIf ((x.state == .waiting || x.state == .charging) && x.runPermit && demandMoved demand m.demandInUse) s
  | none => s

/-- Step 10 of R42: the demand is kept and handed to AL (R55). -/
def takeDemand (b : BayId) (demand : Nat) (s : State) : State :=
  match s.liveSlot b with
  | some k => compareDemand k demand (s.modSlot k fun x => { x with demand := demand })
  | none => s

/-! ## Opening (R46, R47) -/

/-- The sequence counter after it has given its value: from 65535 to 1 (R45). -/
def nextSequence (n : Nat) : Nat := if 65535 ≤ n then 1 else n + 1

/-- The slot of a session that opens at a bay (R46). -/
def State.openedSlot (s : State) (b : BayId) : Slot :=
  { state := .opening
    sequence := s.st.sequence
    bay := b
    cls := if (s.bay b).kind = .dc then .rapid else .ordinary
    openTime := s.stamp
    authDeadline := some (s.runTimer + s.sc.timing.tAuth * 1000) }

/-- The lowest-numbered FREE slot. -/
def State.freeSlot (s : State) : Option SlotId := (indices 64).find? fun k => (s.slot k).state == .free

/-- Step 2 of R42: an opening is attempted (R46, R47). -/
def attemptOpening (b : BayId) (s : State) : State :=
  if s.sc.gate = .closed then s
  else
    match s.freeSlot with
    | some k =>
      let s1 := s.setSlot k (s.openedSlot b)
      let s2 := { s1 with st.sequence := nextSequence s.st.sequence }
      s2.modBay b fun y => { y with state := .occupied, session := some k, stopFlag := false }
    | none =>
      let s1 := s.modBay b fun y => { y with state := .waitingSlot }
      if (s.bay b).state = .idle then countNotice .slotShortage b.val 0 s1 else s1

/-! ## The steps of a bay report (R42) -/

/-- Step 2. -/
def stepOpening (b : BayId) (r : BayReport) (s : State) : State :=
  if r.plug ∧ ((s.bay b).state = .idle ∨ (s.bay b).state = .waitingSlot) then attemptOpening b s else s

/-- Step 3: the register is taken modulo 2 to the power meter_width (R33) and absorbed. -/
def stepMeter (b : BayId) (r : BayReport) (s : State) : State :=
  match s.liveSlot b with
  | some k => absorb b k (r.register % 2 ^ (s.bay b).meterWidth) s
  | none => s

/-- A fault found in a report or by a deadline: the live session is settled with cause BAY_FAULT and the bay enters FAULT. -/
def failBay (b : BayId) (s : State) : State :=
  match s.liveSlot b with
  | some k => settle k (some .bayFault) .fault s
  | none => enterFault b s

/-- The acknowledgement of step 4 (R92, R93, R98). -/
def takeAck (b : BayId) (r : BayReport) (s : State) : State :=
  let y := s.bay b
  let sent := (s.bayDevice b).lastSent.toNat
  if y.state = .fault ∨ y.state = .blocked then
    if r.output then s else writeGrantAck b 0 s
  else if r.output = false then writeGrantAck b 0 s
  else if r.applied ≤ sent then writeGrantAck b (y.kind.toSteps r.applied) s
  else failBay b (writeGrantAck b (y.kind.toSteps sent) s)

/-- A session in ENDING is completed (R62): the cause is kept, and the bay goes by the report's plug. -/
def completeEnding (b : BayId) (r : BayReport) (s : State) : State :=
  match s.liveSlot b with
  | some k => if (s.slot k).state = .ending then settle k none (afterByPlug r.plug) s else s
  | none => s

/-- Step 4: acknowledgement, then the test of an ending for completion (R62). -/
def stepAck (b : BayId) (r : BayReport) (s : State) : State :=
  let s1 := takeAck b r s
  if r.output then s1 else completeEnding b r s1

/-- Step 5 (R43). -/
def stepFault (b : BayId) (r : BayReport) (s : State) : State :=
  if r.faultCode ≠ 0 ∧ (s.bay b).state ≠ .fault ∧ (s.bay b).state ≠ .blocked then failBay b s else s

/-- Step 6: the plug is not connected (R44, R54, R57, R62). -/
def stepUnplugged (b : BayId) (r : BayReport) (s : State) : State :=
  if r.plug then s
  else
    match s.liveSlot b with
    | some k =>
      match (s.slot k).state with
      | .opening => endOpening k .unplugged s
      | .ending => settle k none .idle s
      | .waiting | .charging | .suspended => settle k (some .unplugged) .idle s
      | .free | .settled => s
    | none =>
      match (s.bay b).state with
      | .waitingSlot | .stopped => s.modBay b fun y => { y with state := .idle, session := none }
      | .idle | .occupied | .fault | .blocked => s

/-- Step 7 (R48). -/
def stepCard (b : BayId) (r : BayReport) (s : State) : State :=
  match r.cardCap, s.liveSlot b with
  | some cap, some k => takeCard k cap s
  | _, _ => s

/-- Step 8: the scan handed on by FLC (R34, R49, R50). -/
def stepScan (b : BayId) (scan : Option Scan) (s : State) : State :=
  match scan with
  | some sc => takeScan sc b s
  | none => s

/-- A stop button or a STOP request at a session in a live state (R54, R59, R60). -/
def stopSession (k : SlotId) (cause : EndCause) (s : State) : State :=
  match (s.slot k).state with
  | .opening => endOpening k cause s
  | .waiting | .charging | .suspended => enterEnding k cause s
  | .ending | .free | .settled => s

/-- Step 9 (R54, R59). -/
def stepButton (b : BayId) (r : BayReport) (s : State) : State :=
  match s.liveSlot b with
  | some k => if r.stopButton then stopSession k .customerStop s else s
  | none => s

/-- BT takes a report in the ten steps of R42; `scan` is what FLC hands on of the report's scan (R34), and the demand is
clamped to max_steps (R33). -/
def takeBayReport (b : BayId) (r : BayReport) (scan : Option Scan) (s : State) : State :=
  let demand := min r.demand (s.bay b).maxSteps
  let s1 := s.modBay b fun y => { y with plug := r.plug, output := r.output }
  let s4 := stepAck b r (stepMeter b r (stepOpening b r s1))
  let s7 := stepCard b r (stepUnplugged b r (stepFault b r s4))
  takeDemand b demand (stepButton b r (stepScan b scan s7))

/-! ## Scans and identity (R31 to R34) -/

/-- Whether the report's scan is handed on: a new tag, and a key other than 0 (R34). -/
def handedScan (r : BayReport) (last : Nat) : Option Scan :=
  match r.scan with
  | some sc => if r.scanTag = last ∨ sc.key = 0 then none else some sc
  | none => none

/-- The last scan tag after a good report (R34): kept by tag 0. -/
def nextScanTag (r : BayReport) (last : Nat) : Nat := if r.scanTag = 0 then last else r.scanTag

/-- A report handed on to BT with its scan (R33, R34). -/
def handToBay (b : BayId) (r : BayReport) (s : State) : State :=
  let last := (s.bayDevice b).lastScanTag
  takeBayReport b r (handedScan r last)
    (s.modDevice (Role.bay b).entry fun d => { d with lastScanTag := nextScanTag r last })

/-- The reported identity matches the declaration (R31). -/
def identityMatches (y : Bay) (r : BayReport) : Bool := r.idKind == y.kind && y.kind.minSteps ≤ r.idMax

/-- The output state alone is handed to BT (R32, R98). -/
def takeBlockedOutput (b : BayId) (r : BayReport) (s : State) : State :=
  let s1 := s.modBay b fun y => { y with output := r.output }
  if r.output then s1 else writeGrantAck b 0 s1

/-- A matching report: identity MATCH and max_steps the smaller of the declared and the reported maximum (R31). -/
def takeMatch (b : BayId) (r : BayReport) (s : State) : State :=
  s.modBay b fun y => { y with identity := .matched, maxSteps := min (s.bayDevice b).declaredMax r.idMax }

/-- A mismatching report: identity MISMATCH; a bay not BLOCKED goes to BLOCKED, with its session settled and BAY_FAULT
counted (R31, R64). -/
def takeMismatch (b : BayId) (s : State) : State :=
  let s1 := s.modBay b fun y => { y with identity := .mismatch }
  if (s.bay b).state = .blocked then s1
  else
    let s2 := match s1.liveSlot b with
      | some k => settle k (some .bayFault) .blocked s1
      | none => enterBlocked b s1
    countNotice .bayFault b.val 0 s2

/-- A good bay report after R29: the identity check, then the report by the bay's state (R31, R32). Of a matching report from a
bay BLOCKED with identity MISMATCH the output alone is taken, by R32, and max_steps is left as it is (log 43). -/
def takeGoodBay (b : BayId) (r : BayReport) (s : State) : State :=
  let y := s.bay b
  if y.state = .blocked ∧ y.identity = .mismatch then takeBlockedOutput b r s
  else if identityMatches y r then
    let s1 := takeMatch b r s
    handToBay b r (if y.state = .blocked then s1.modBay b fun y => { y with state := .idle } else s1)
  else takeBlockedOutput b r (takeMismatch b s)

/-! ## Source reports (R35 to R37, R73, R74) -/

/-- The canopy total formed anew: the last power of every declared inverter that is ONLINE (R73). -/
def State.canopyTotal (s : State) : Nat :=
  ((indices 6).map fun k =>
    let d := s.device (Role.canopy k).entry
    if d.declared && d.link == .online then (s.inverter k).lastPower else 0).sum

/-- A difference of 10 steps or more from a value last used (R73). -/
def movedByTen (new used : Nat) : Bool := 10 ≤ new - used || 10 ≤ used - new

/-- A canopy report (R35, R73). -/
def takeCanopy (k : InverterId) (power : Nat) (s : State) : State :=
  let s1 := s.modInverter k fun v => { v with lastPower := min power v.rating }
  requestPassIf (movedByTen s1.canopyTotal s1.al.usedCanopy) s1

/-- The discharge permit after a battery report (R74). -/
def nextPermit (soe eFloor eCap : Nat) (permit : Bool) : Bool :=
  if soe ≤ eFloor then false
  else if eFloor + ceilDiv eCap 100 ≤ soe then true
  else permit

/-- A battery report (R36, R74, R17). -/
def takeBattery (soe : Nat) (applied : Int) (s : State) : State :=
  let soe := min soe s.sc.eCap
  let permit := nextPermit soe s.sc.eFloor s.sc.eCap s.al.permit
  let s1 := { s with al.battery := { s.al.battery with soe := soe, applied := applied }, al.permit := permit }
  let s2 := requestPassIf (permit != s.al.permit) s1
  if applied = 0 then grantReserve s2 else s2

/-- A store meter report (R37, R73). -/
def takeStoreLoad (load : Nat) (s : State) : State :=
  requestPassIf (movedByTen load s.al.usedLoad) { s with al.storeLoad := load }

/-- A good report is handed on (R29, section 2.7). -/
def takeReport (e : Entry) (r : Report) (s : State) : State :=
  let s1 := takeGood e s
  match roleOf e, r with
  | .bay b, .bay r => takeGoodBay b r s1
  | .canopy k, .canopy p => takeCanopy k p s1
  | .battery, .battery soe applied => takeBattery soe applied s1
  | .meter, .meter load => takeStoreLoad load s1
  | _, _ => s1

/-! ## The end of an exchange (R23, R24, R38) -/

/-- The exchange ends; the poll gap is counted from now (R24). -/
def endExchange (s : State) : State := { s with flc.exchange := .quiet, flc.gapFrom := s.runTimer }

/-- The response of an exchange judged (R27), unless the device was removed meanwhile (R38). -/
def concludeExchange (p : Poll) (chars : List RxChar) (s : State) : State :=
  let s1 := endExchange s
  if p.removed then s1
  else
    match judge p.entry chars with
    | .ok r => takeReport p.entry r s1
    | .error kind => takeMiss p.entry kind s1

end Sys2Proof.Machine
end

