-- ==== Sys2Proof/Machine/Loop.lean ====
section
/-! DEFINITION. The field loop rows: BAY_POLL, SOURCE_POLL, BAY_POLL_SENT, SOURCE_POLL_SENT, RESPONSE_TIMEOUT,
RESPONSE_RECEIVED (chapter 2, R41, R94). -/

namespace Sys2Proof.Machine

/-! ## Choosing and building a poll (R22 to R26) -/

/-- The declared entries in ascending order of address: the poll list (R22). -/
def State.pollList (s : State) : List Entry := (indices 56).filter fun e => (s.device e).declared

/-- The next declared entry above the poll position, or the lowest (R22). -/
def nextAbove (position : Option Entry) (list : List Entry) : Option Entry :=
  match position with
  | none => list.head?
  | some p => (list.find? fun e => p < e).or list.head?

/-- The device to poll next: the one whose declaration starts the cycle while it is declared, else by the poll position
(R22, log 23). -/
def State.nextPoll (s : State) : Option Entry :=
  match s.flc.start with
  | some e => if (s.device e).declared then some e else nextAbove s.flc.position s.pollList
  | none => nextAbove s.flc.position s.pollList

/-- The whole ms of a number of bit times at the loop rate in force (R24, log 24). -/
def gapMillis (t : Timing) : Nat := t.pollGap * 1000 / t.loopRate.baud

/-- No exchange is in flight and the poll gap has passed (R24). -/
def State.mayPoll (s : State) : Bool :=
  s.flc.exchange == .quiet && s.flc.gapFrom + gapMillis s.sc.timing ≤ s.runTimer

/-- The response allowance of a bay by its kind (R23). -/
def bayAllowance (t : Timing) : BayKind → Nat
  | .ac1 | .ac3 => t.acAllowance
  | .dc => t.dcAllowance

/-- A poll is begun: DE is asserted and the frame goes out under the settings in force (R8, R22, R23). -/
def beginPoll (e : Entry) (value : Int) (frame : List Byte) (allowance : Nat) (s : State) : State :=
  { s with
    flc.position := some e
    flc.start := none
    flc.exchange := .sending ⟨e, value, frame, allowance, s.sc.timing.loopRate, false⟩ }

/-- The grant of a BAY_POLL, in the bay's own unit (R25, R86). -/
def State.pollGrant (s : State) (b : BayId) : Nat := (s.bay b).kind.toWire (s.bay b).grantSet

/-- The payload of a BAY_POLL (R25, Table 11-5); the bits of its flags byte other than bit 0 are sent as 0 (log 48). -/
def State.bayPollPayload (s : State) (b : BayId) : List Byte :=
  be 2 (s.pollGrant b) ++ be 1 (s.bay b).stopFlag.toNat ++ be 1 (s.displayCode b).code
    ++ be 1 (s.bayDevice b).lastScanTag

/-- A BAY_POLL is built and starts to be sent; a message present is the one this poll carries (R25, R41). The allowance is that of
the bay's kind when the poll is built, whatever is declared while it is sent (log 44). -/
def sendBayPoll (b : BayId) (s : State) : State :=
  let e := (Role.bay b).entry
  let s1 := s.modBay b fun y => { y with message := y.message.map fun m => { m with inPoll := true } }
  beginPoll e (s.pollGrant b) (loopFrame (loopAddress e) 1 (s.bayPollPayload b))
    (bayAllowance s.sc.timing (s.bay b).kind) s1

/-- The value a SOURCE_POLL carries, and its payload (R26, Table 11-5). -/
def State.sourcePoll (s : State) : Role → Int × List Byte
  | .canopy k => ((s.inverter k).limit, be 2 (s.inverter k).limit)
  | .battery => (s.al.battery.setpoint, be 2 (s.al.battery.setpoint % 65536).toNat)
  | .meter | .bay _ => (0, [])

/-- A SOURCE_POLL is built and starts to be sent (R26). -/
def sendSourcePoll (e : Entry) (s : State) : State :=
  let p := s.sourcePoll (roleOf e)
  beginPoll e p.1 (loopFrame (loopAddress e) 3 p.2) s.sc.timing.sourceAllowance s

/-- BAY_POLL: the poll gap is over and the next device of the cycle is a bay. -/
def execBayPoll (s : State) : Outcome :=
  match s.mayPoll, s.nextPoll.map roleOf with
  | true, some (.bay b) => done (sendBayPoll b s)
  | _, _ => .next s

/-- SOURCE_POLL: the poll gap is over and the next device of the cycle is a source. -/
def execSourcePoll (s : State) : Outcome :=
  match s.mayPoll, s.nextPoll with
  | true, some e =>
    match roleOf e with
    | .bay _ => .next s
    | .canopy _ | .battery | .meter => done (sendSourcePoll e s)
  | _, _ => .next s

/-! ## The end of a poll's transmission (R23, R25, R26, R94) -/

/-- The message of a bay after a poll of it has been sent (R41). -/
def Message.afterPoll (m : Message) : Option Message :=
  if m.inPoll then (if m.count ≤ 1 then none else some { m with count := m.count - 1, inPoll := false }) else some m

/-- The ack wait after a poll-sent event that carried `sent` steps while ONLINE, by the table of R94 alone: a grant_set raised to
or above grant_ack while the poll was sent does not keep the deadline from being set (log 46). -/
def ackWaitAfter (y : Bay) (sent now tAck : Nat) : Option AckWait :=
  if y.grantAck ≤ sent then y.ackWait
  else
    match y.ackWait with
    | none => some ⟨now + tAck * 1000, sent⟩
    | some w => if sent < w.grant then some ⟨now + tAck * 1000, sent⟩ else some w

/-- The poll-sent event as BT takes it (R25, R41, R94, R97). -/
def pollSentBay (b : BayId) (value : Nat) (s : State) : State :=
  s.modBay b fun y =>
    let y := { y with message := y.message.bind Message.afterPoll }
    if y.state = .fault ∨ y.state = .blocked ∨ s.bayOnline b = false then y
    else { y with ackWait := ackWaitAfter y (y.kind.toSteps value) s.runTimer s.sc.timing.tAck }

/-- The response allowance starts at the release of DE (R23). -/
def awaitResponse (p : Poll) (s : State) : State :=
  s.setExchange (.awaiting p (s.runTimer + p.allowance))

/-- The value carried becomes the device's last sent, unless the device was removed meanwhile (R23, R26, R38). -/
def recordSent (p : Poll) (s : State) : State :=
  if p.removed then s else s.modDevice p.entry fun d => { d with lastSent := p.value }

/-- BAY_POLL_SENT: the end of a bay poll's transmission. -/
def execBayPollSent (s : State) : Outcome :=
  match s.flc.exchange with
  | .sending p =>
    match roleOf p.entry with
    | .bay b =>
      let s1 := recordSent p (awaitResponse p s)
      done (if p.removed then s1 else pollSentBay b p.value.toNat s1)
    | .canopy _ | .battery | .meter => .next s
  | .quiet | .awaiting _ _ => .next s

/-- SOURCE_POLL_SENT: the end of a source poll's transmission. -/
def execSourcePollSent (s : State) : Outcome :=
  match s.flc.exchange with
  | .sending p =>
    match roleOf p.entry with
    | .bay _ => .next s
    | .canopy _ | .battery | .meter => done (recordSent p (awaitResponse p s))
  | .quiet | .awaiting _ _ => .next s

/-! ## The end of an exchange (R23, R27, R28) -/

/-- RESPONSE_TIMEOUT: the allowance has expired with no start bit. -/
def execResponseTimeout (s : State) : Outcome :=
  match s.flc.exchange with
  | .awaiting p deadline =>
    if deadline ≤ s.runTimer then
      done (if p.removed then endExchange s else takeMiss p.entry .timeout (endExchange s))
    else .next s
  | .quiet | .sending _ => .next s

/-- RESPONSE_RECEIVED: reception has ended; characters outside an exchange are discarded (R24). -/
def execResponseReceived (chars : List RxChar) (s : State) : Outcome :=
  match s.flc.exchange with
  | .awaiting p _ => done (concludeExchange p chars s)
  | .quiet | .sending _ => .next s

end Sys2Proof.Machine
end

