-- ==== Sys2Proof/Machine/DeviceRequests.lean ====
section
/-! DEFINITION. DECLARE BAY and DECLARE SOURCE with their removals, READ BAY and CLEAR BAY FAULT (R19 to R22, R38, R99, R173). -/

namespace Sys2Proof.Machine

/-! ## Payload fields -/

/-- The time left to a deadline, 0 once it has passed (R181, log 28). -/
def State.timeLeft (s : State) (deadline : Nat) : Nat := deadline - s.runTimer

/-- An optional deadline, sent as the time left (R181). -/
def State.optionalLeft (s : State) (o : Option Nat) : Field := optional 4 (o.map s.timeLeft)

/-- A device entry (Table 2-2). -/
def deviceFields (d : Device) : List Field :=
  [flag d.declared, u1 d.kind.code, u2 d.declaredMax, u1 d.link.code, u1 d.missCount, u1 d.lastMiss.code,
    signedField 2 d.lastSent, u1 d.lastScanTag, u4 d.lastReportTime]

/-- The response to DECLARE BAY: the device entry, then the identity (Table 11-9). -/
def bayDeclarationFields (s : State) (b : BayId) : List Field :=
  deviceFields (s.bayDevice b) ++ [u1 (s.bay b).identity.code]

/-- The source record of a role (Table 11-9). -/
def sourceFields (s : State) : Role → List Field
  | .canopy k => [u2 (s.inverter k).rating, u2 (s.inverter k).lastPower, u2 (s.inverter k).limit]
  | .battery => [u4 s.al.battery.soe, signedField 2 s.al.battery.applied, signedField 2 s.al.battery.setpoint]
  | .meter => [u2 s.al.storeLoad]
  | .bay _ => []

/-- The response to DECLARE SOURCE: the device entry, then the source record. -/
def sourceReplyFields (s : State) (r : Role) : List Field := deviceFields (s.device r.entry) ++ sourceFields s r

/-! ## Joining and leaving the poll list (R22, R38) -/

/-- A device joins the poll list; into an empty list, it starts the cycle after the poll gap (R22, log 23). -/
def joinPollList (e : Entry) (s : State) : State :=
  if s.pollList = [] then { s with flc.start := some e, flc.gapFrom := s.runTimer } else s

/-- The exchange in flight with a device, marked when the device is removed (R38). -/
def Exchange.markRemoved (e : Entry) : Exchange → Exchange
  | .quiet => .quiet
  | .sending p => .sending (if p.entry = e then { p with removed := true } else p)
  | .awaiting p d => .awaiting (if p.entry = e then { p with removed := true } else p) d

/-- A device entry returns to its reset values, and the device leaves the poll list (R20, R21, R38). -/
def clearDevice (e : Entry) (s : State) : State :=
  let s1 := (s.setDevice e { kind := resetKind e }).setExchange (s.flc.exchange.markRemoved e)
  if s.flc.start = some e then { s1 with flc.start := none } else s1

/-! ## DECLARE BAY (R19, R20) -/

/-- The kind a DECLARE BAY carries: a bay kind, or NONE (R180). -/
def declaredKindOf : Nat → Option (Option BayKind)
  | 0 => some (some .ac1)
  | 1 => some (some .ac3)
  | 2 => some (some .dc)
  | 3 => some none
  | _ => none

/-- A meter width of R19. -/
def validWidth (w : Nat) : Bool := w == 16 || w == 20 || w == 24 || w == 32

/-- An accepted declaration of a bay (R19). -/
def declareBayAt (b : BayId) (kind : BayKind) (maximum width : Nat) (s : State) : State :=
  let e := (Role.bay b).entry
  let s1 := if (s.device e).declared then s else joinPollList e s
  let s2 := s1.modDevice e fun d => { d with declared := true, kind := kind.device, declaredMax := maximum }
  s2.modBay b fun y => { y with
    declared := true
    kind := kind
    maxSteps := maximum
    minSteps := kind.minSteps
    meterWidth := width
    feeder := feederOf s.sc.layoutMode b
    identity := .unchecked
    scan := .empty }

/-- An accepted removal of a bay (R20); of an undeclared bay it changes nothing. -/
def removeBayAt (b : BayId) (s : State) : State :=
  if (s.bayDevice b).declared then
    (clearDevice (Role.bay b).entry s).setBay b { feeder := feederOf s.sc.layoutMode b }
  else s

/-- The checks of R19 and the effect of R19 or R20. A refusal carries the device entry where the request names one (log 15). -/
def declareBayAct (p : List Byte) (s : State) : Reply × State :=
  if p.length ≠ 5 then refuse .badRequest s
  else
    match index? 48 (arg p 0 1) with
    | none => refuse .outOfRange s
    | some b =>
      match declaredKindOf (arg p 1 1) with
      | none => (⟨.outOfRange, bayDeclarationFields s b⟩, s)
      | some none =>
        if s.bayInUse b then (⟨.inUse, bayDeclarationFields s b⟩, s)
        else
          let s1 := removeBayAt b s
          (⟨.ok, bayDeclarationFields s1 b⟩, s1)
      | some (some kind) =>
        if !validWidth (arg p 4 1) then (⟨.outOfRange, bayDeclarationFields s b⟩, s)
        else if s.bayInUse b then (⟨.inUse, bayDeclarationFields s b⟩, s)
        else
          let maximum := clamp kind.minSteps kind.maxBound (arg p 2 2)
          let s1 := declareBayAt b kind maximum (arg p 4 1) s
          (⟨okOr (maximum != arg p 2 2), bayDeclarationFields s1 b⟩, s1)

/-- DECLARE_BAY. -/
def execDeclareBay (p : List Byte) (s : State) : Outcome := serve (.declareBay p) (declareBayAct p) s

/-- REMOVE_BAY: DECLARE BAY of kind NONE. -/
def execRemoveBay (p : List Byte) (s : State) : Outcome := serve (.removeBay p) (declareBayAct p) s

/-! ## DECLARE SOURCE (R21, R88, R89) -/

/-- A declaration of a canopy inverter with a rating (R21): a new rating lowers the kept last power; the limit held is the
rating for an inverter not declared before or a changed rating, and a pass now running writes no limit for it (R88). -/
def declareInverter (k : InverterId) (rating : Nat) (was : Bool) (s : State) : State :=
  s.modInverter k fun v =>
    if was ∧ v.rating = rating then v
    else { rating := rating, lastPower := min v.lastPower rating, limit := rating
           fresh := s.al.passState == .running }

/-- A declaration that finds the battery inverter not declared: setpoint 0, and a pass now running writes 0 (R89). -/
def declareBattery (was : Bool) (s : State) : State :=
  if was then s
  else { s with al.battery := { s.al.battery with setpoint := 0, fresh := s.al.passState == .running } }

/-- The source record of a role at its reset values (R21); the mark that a pass now running writes setpoint 0 is no part of the
record (R108, log 32). -/
def clearSource (r : Role) (s : State) : State :=
  match r with
  | .canopy k => s.setInverter k {}
  | .battery => { s with al.battery := { fresh := s.al.battery.fresh } }
  | .meter => { s with al.storeLoad := 0 }
  | .bay _ => s

/-- A source that was not declared before starts from the reset values of its entry and record, and joins the poll list (R21). -/
def startSource (r : Role) (s : State) : State :=
  joinPollList r.entry (clearSource r (s.setDevice r.entry { kind := resetKind r.entry }))

/-- An accepted declaration of a source (R21). -/
def declareSourceAt (r : Role) (rating : Nat) (s : State) : State :=
  let was := (s.device r.entry).declared
  let s1 := if was then s else startSource r s
  let s2 := s1.modDevice r.entry fun d => { d with declared := true }
  requestPass (match r with
    | .canopy k => declareInverter k rating was s2
    | .battery => declareBattery was s2
    | .meter | .bay _ => s2)

/-- An accepted removal of a source (R21); while the reserve is CLAIMED the removal of the battery grants it (R17). -/
def removeSourceAt (r : Role) (s : State) : State :=
  if (s.device r.entry).declared then
    let s1 := clearSource r (clearDevice r.entry s)
    requestPass (if r = .battery then grantReserve s1 else s1)
  else s

/-- The rating a declaration applies: within 1 to 2000 for a canopy inverter (R21, check 3). -/
def appliedRating (r : Role) (asked : Nat) : Nat :=
  match r with
  | .canopy _ => clamp 1 2000 asked
  | .battery | .meter | .bay _ => asked

/-- The checks of R21 and its effect. A read of an address that is no source is answered OUT_OF_RANGE (log 17). A removal ignores
the rating it carries, of a canopy inverter too, and is answered OK (log 42). -/
def declareSourceAct (p : List Byte) (s : State) : Reply × State :=
  if p.length ≠ 1 ∧ p.length ≠ 4 then refuse .badRequest s
  else
    match sourceAt (arg p 0 1) with
    | none => refuse .outOfRange s
    | some r =>
      if p.length = 1 then (⟨.ok, sourceReplyFields s r⟩, s)
      else if arg p 1 1 = 0 then
        let rating := appliedRating r (arg p 2 2)
        let s1 := declareSourceAt r rating s
        (⟨okOr (rating != arg p 2 2), sourceReplyFields s1 r⟩, s1)
      else if arg p 1 1 = 1 then
        let s1 := removeSourceAt r s
        (⟨.ok, sourceReplyFields s1 r⟩, s1)
      else refuse .outOfRange s

/-- DECLARE_SOURCE. -/
def execDeclareSource (p : List Byte) (s : State) : Outcome := serve (.declareSource p) (declareSourceAct p) s

/-- REMOVE_SOURCE: DECLARE SOURCE with the mark remove. -/
def execRemoveSource (p : List Byte) (s : State) : Outcome := serve (.removeSource p) (declareSourceAct p) s

/-! ## READ BAY (R173) -/

/-- The scan slot as sent in READ BAY: state, key, overwrite count and time left, 0 when EMPTY (Table 11-9). -/
def scanFields (s : State) : ScanSlot → List Field
  | .empty => [u1 0, u4 0, u1 0, u4 0]
  | .pending key n deadline => [u1 1, u4 key, u1 n, u4 (s.timeLeft deadline)]

/-- The message as its code and count (Table 11-9). -/
def messageFields (m : Option Message) : List Field :=
  match m with
  | none => [u1 0, u1 0]
  | some m => [u1 m.code.display.code, u1 m.count]

/-- The response to READ BAY and CLEAR BAY FAULT (R173, Table 11-9). -/
def bayFields (s : State) (b : BayId) : List Field :=
  let y := s.bay b
  let d := s.bayDevice b
  presence [y.session.isSome, y.ackWait.isSome, y.message.isSome, y.ackWait.isSome, y.lostDeadline.isSome]
    ++ [flag y.declared, u1 y.kind.code, u2 y.maxSteps, u2 y.minSteps, u1 y.meterWidth, u1 y.feeder.val,
      u1 y.identity.code, u1 y.state.code, flag y.plug, flag y.output, optional 1 (y.session.map (·.val)), u2 y.grantSet,
      u2 y.grantAck, u2 y.committed, s.optionalLeft (y.ackWait.map (·.deadline)), flag y.stopFlag, u4 y.lastRegister,
      u4 y.lastReportTime]
    ++ scanFields s y.scan ++ messageFields y.message
    ++ [u1 d.link.code, u1 d.missCount, u1 d.lastMiss.code, signedField 2 d.lastSent, u4 d.lastReportTime,
      u1 (s.displayCode b).code, u1 y.ackState.code, optional 2 (y.ackWait.map (·.grant)), s.optionalLeft y.lostDeadline]

def readBayAct (p : List Byte) (s : State) : Reply × State :=
  if p.length ≠ 1 then refuse .badRequest s
  else
    match index? 48 (arg p 0 1) with
    | none => refuse .outOfRange s
    | some b => (⟨.ok, bayFields s b⟩, s)

/-- READ_BAY. -/
def execReadBay (p : List Byte) (s : State) : Outcome := serve (.readBay p) (readBayAct p) s

/-! ## CLEAR BAY FAULT (R99) -/

/-- An accepted CLEAR BAY FAULT (R99). -/
def clearFaultAt (b : BayId) (s : State) : State :=
  let s1 := writeGrants b 0 0 s
  s1.modBay b fun y =>
    { y with stopFlag := false, session := none, state := if y.plug then .stopped else .idle }

def clearBayFaultAct (p : List Byte) (s : State) : Reply × State :=
  if p.length ≠ 1 then refuse .badRequest s
  else
    match index? 48 (arg p 0 1) with
    | none => refuse .outOfRange s
    | some b =>
      if (s.bay b).state ≠ .fault then refuse .wrongState s
      else if s.bayOnline b = false ∨ (s.bay b).output = true then refuse .notSafe s
      else
        let s1 := clearFaultAt b s
        (⟨.ok, bayFields s1 b⟩, s1)

/-- CLEAR_BAY_FAULT. -/
def execClearBayFault (p : List Byte) (s : State) : Outcome := serve (.clearBayFault p) (clearBayFaultAct p) s

end Sys2Proof.Machine
end

