-- ==== Sys2Proof/Machine/CreditRequests.lean ====
section
/-! DEFINITION. ISSUE CREDIT, DECLINE, VOID CREDIT, QUERY CREDIT with the pending list, ACCOUNT and READ ACCOUNT (chapters 6
and 7). -/

namespace Sys2Proof.Machine

/-! ## The credit record in a response (Table 11-9) -/

/-- The holder's sequence number, bay, block and final block, 0 when the record is ISSUED. -/
def holderFields (s : State) : Option SlotId → List Field
  | some k => [u2 (s.slot k).sequence, u1 (s.slot k).bay.val, u8 (s.slot k).blockLeft, flag (s.slot k).finalBlock]
  | none => [u2 0, u1 0, u8 0, flag false]

/-- A credit record with its holder (Table 6-2, Table 11-9). -/
def creditFields (s : State) (c : Credit) : List Field :=
  presence [c.holder.isSome]
    ++ [u4 c.key, u1 c.state.code, u2 c.originalWh, u2 c.remainingWh, flag c.solarOnly, u2 c.expiryDay, u1 c.till,
      optional 1 (c.holder.map (·.val)), flag c.voided, flag c.expired]
    ++ holderFields s c.holder

/-- The record with a key, as a response carries it; nothing where there is none. -/
def foundFields (s : State) (key : Nat) : List Field :=
  match lookupCredit key s with
  | some c => creditFields s c
  | none => []

/-! ## ISSUE CREDIT (R111, R112) -/

/-- The fields of an ISSUE CREDIT (Table 11-2); the bay is absent when flag bit 1 is clear. -/
structure IssueArgs where
  key : Nat
  wh : Nat
  validity : Nat
  solarOnly : Bool
  till : Nat
  bay : Option Nat

def issueArgs (p : List Byte) : IssueArgs where
  key := arg p 0 4
  wh := arg p 4 2
  validity := arg p 6 1
  solarOnly := (arg p 7 1).testBit 0
  till := arg p 8 1
  bay := if (arg p 7 1).testBit 1 then some (arg p 9 1) else none

/-- Check 2 of R111. -/
def IssueArgs.valid (a : IssueArgs) : Bool :=
  a.key != 0 && 1 ≤ a.wh && a.wh ≤ 60000 && a.validity ≤ 30 && 1 ≤ a.till && a.till ≤ 63
    && (match a.bay with | some b => b ≤ 47 | none => true)

/-- The most live records (R109). -/
def creditCapacity : Nat := 256

/-- The record an accepted ISSUE CREDIT creates (R112). -/
def issuedCredit (a : IssueArgs) (day : Nat) : Credit where
  key := a.key
  state := .issued
  originalWh := a.wh
  remainingWh := a.wh
  solarOnly := a.solarOnly
  expiryDay := day + a.validity
  till := a.till
  holder := none
  voided := false
  expired := false

/-- The key of a PENDING scan slot. -/
def ScanSlot.key? : ScanSlot → Option Nat
  | .pending key _ _ => some key
  | .empty => none

/-- A record issued for a bay is attached to its session, when the bay's scan slot is PENDING with the key (R112). -/
def attachIssued (key : Nat) (bay : Option Nat) (s : State) : State :=
  match bay.bind (index? 48) with
  | none => s
  | some b =>
    match s.liveSlot b with
    | some k => if (s.bay b).scan.key? = some key then attach key k b s else s
    | none => s

/-- An accepted ISSUE CREDIT (R112). -/
def issueCredit (a : IssueArgs) (s : State) : State :=
  attachIssued a.key a.bay (s.setCredits (insertCredit (issuedCredit a s.tc.day) s.cs.credits))

def issueCreditAct (p : List Byte) (s : State) : Reply × State :=
  let a := issueArgs p
  if p.length ≠ 10 then refuse .badRequest s
  else if a.valid = false then refuse .outOfRange s
  else if (lookupCredit a.key s).isSome then refuse .duplicate s
  else if creditCapacity ≤ s.cs.credits.length then refuse .tableFull (countNotice .tableFullCredit a.till 0 s)
  else
    let s1 := issueCredit a s
    (⟨.ok, foundFields s1 a.key⟩, s1)

/-- ISSUE_CREDIT. -/
def execIssueCredit (p : List Byte) (s : State) : Outcome := serve (.issueCredit p) (issueCreditAct p) s

/-! ## DECLINE (R117) -/

def declineAct (p : List Byte) (s : State) : Reply × State :=
  if p.length ≠ 5 then refuse .badRequest s
  else
    match index? 48 (arg p 0 1) with
    | none => refuse .outOfRange s
    | some b =>
      if (s.bay b).scan.key? = some (arg p 1 4) then
        (⟨.ok, []⟩, setMessage b .creditNotValid (emptyScan b s))
      else refuse .notFound s

/-- DECLINE. -/
def execDecline (p : List Byte) (s : State) : Outcome := serve (.decline p) (declineAct p) s

/-! ## VOID CREDIT (R121) -/

/-- A HELD record voided (R121): no further block, the open block honoured. -/
def Credit.voidHeld (c : Credit) : Credit := if c.voided then c else { c with remainingWh := 0, voided := true }

/-- R121. The response to a void that retires its record carries the record with the fields it had: no rule changes a field at a
retirement (log 13). -/
def voidCreditAct (p : List Byte) (s : State) : Reply × State :=
  let key := arg p 0 4
  if p.length ≠ 4 then refuse .badRequest s
  else if key = 0 then refuse .outOfRange s
  else
    match lookupCredit key s with
    | none => refuse .notFound s
    | some c =>
      match c.state with
      | .issued => (⟨.ok, creditFields s c⟩, s.setCredits (removeCredit key s.cs.credits))
      | .held =>
        let s1 := s.setCredits (updateCredit key Credit.voidHeld s.cs.credits)
        (⟨.ok, foundFields s1 key⟩, s1)

/-- VOID_CREDIT. -/
def execVoidCredit (p : List Byte) (s : State) : Outcome := serve (.voidCredit p) (voidCreditAct p) s

/-! ## QUERY CREDIT (R124, R125) -/

/-- The bays whose scan slots are PENDING with a key, in ascending address. -/
def State.baysPending (s : State) (key : Nat) : List BayId :=
  (indices 48).filter fun b => (s.bay b).scan.key? == some key

/-- QUERY CREDIT with a key other than 0 (R124). -/
def queryCreditAct (p : List Byte) (s : State) : Reply × State :=
  if p.length ≠ 4 then refuse .badRequest s
  else
    match lookupCredit (arg p 0 4) s with
    | some c => (⟨.ok, creditFields s c⟩, s)
    | none =>
      let bays := s.baysPending (arg p 0 4)
      (⟨.notFound, u1 bays.length :: bays.map fun b => u1 b.val⟩, s)

/-- QUERY_CREDIT. -/
def execQueryCredit (p : List Byte) (s : State) : Outcome := serve (.queryCredit p) (queryCreditAct p) s

/-- The entry of the pending list for a bay: none where its scan slot is EMPTY. -/
def pendingEntry (s : State) (b : BayId) : Option (List Field) :=
  match (s.bay b).scan with
  | .pending key n deadline => some [u1 b.val, u4 key, u1 n, u4 (s.timeLeft deadline)]
  | .empty => none

/-- The pending list (R125). -/
def pendingListFields (s : State) : List Field :=
  let entries := (indices 48).filterMap (pendingEntry s)
  u1 entries.length :: entries.flatten

/-- QUERY_PENDING_LIST: QUERY CREDIT with key 0. -/
def execQueryPendingList (p : List Byte) (s : State) : Outcome :=
  serve (.queryPendingList p) (readAct 4 p pendingListFields) s

/-! ## ACCOUNT (R129, R130) -/

/-- The entry of Table 7-1. -/
def accountFields (a : Account) : List Field :=
  [u4 a.token, flag a.enabled, u1 a.cls.code, u2 a.firmSteps, u2 a.allowanceWh, u2 a.remainingWh, flag a.solarOnly,
    u1 a.maxHolders, u1 a.holders]

/-- The index, then the entry. -/
def indexedAccountFields (s : State) (i : AccountId) : List Field := u1 i.val :: accountFields (s.account i)

/-- The class of an ACCOUNT (R180). -/
def accountClassOf : Nat → Option AccountClass
  | 0 => some .firm
  | 1 => some .ordinary
  | _ => none

/-- The enabled field of an ACCOUNT. -/
def enabledOf : Nat → Option Bool
  | 0 => some false
  | 1 => some true
  | _ => none

/-- The settings an ACCOUNT carries, firm_steps as asked. -/
structure AccountArgs where
  index : AccountId
  token : Nat
  enabled : Bool
  cls : AccountClass
  firmSteps : Nat
  allowanceWh : Nat
  solarOnly : Bool
  maxHolders : Nat

/-- Check 2 of R129. -/
def accountArgs (p : List Byte) : Option AccountArgs := do
  let index ← index? 16 (arg p 0 1)
  let enabled ← enabledOf (arg p 5 1)
  let cls ← accountClassOf (arg p 6 1)
  let a : AccountArgs := {
    index := index, token := arg p 1 4, enabled := enabled, cls := cls, firmSteps := arg p 7 2
    allowanceWh := arg p 9 2, solarOnly := (arg p 11 1).testBit 0, maxHolders := arg p 12 1 }
  if a.allowanceWh ≤ 65000 ∧ 1 ≤ a.maxHolders ∧ a.maxHolders ≤ 8 ∧ ¬(a.enabled = true ∧ a.token = 0) then some a else none

/-- Check 3 of R129: another enabled entry has the token. -/
def State.tokenTaken (s : State) (a : AccountArgs) : Bool :=
  a.enabled && (indices 16).any fun i => i != a.index && (s.account i).enabled && (s.account i).token == a.token

/-- Check 4 of R129. -/
def accountInUse (a : AccountArgs) (old : Account) : Bool :=
  (0 < old.holders && a.token != old.token) || a.maxHolders < old.holders

/-- remaining_Wh after a write: all of the changes the write makes (R130). -/
def remainingAfter (a : AccountArgs) (old : Account) : Nat :=
  if (a.enabled = true ∧ old.enabled = false) ∨ a.token ≠ old.token then a.allowanceWh
  else min old.remainingWh a.allowanceWh

/-- The entry after an accepted ACCOUNT write (R129, R130). -/
def writtenAccount (a : AccountArgs) (old : Account) : Account where
  token := a.token
  enabled := a.enabled
  cls := a.cls
  firmSteps := min 1500 a.firmSteps
  allowanceWh := a.allowanceWh
  remainingWh := remainingAfter a old
  solarOnly := a.solarOnly
  maxHolders := a.maxHolders
  holders := old.holders

def accountAct (p : List Byte) (s : State) : Reply × State :=
  if p.length ≠ 13 then refuse .badRequest s
  else
    match accountArgs p with
    | none => refuse .outOfRange s
    | some a =>
      if s.tokenTaken a then refuse .duplicate s
      else if accountInUse a (s.account a.index) then refuse .inUse s
      else
        let s1 := s.modAccount a.index (writtenAccount a)
        (⟨okOr (1500 < a.firmSteps), indexedAccountFields s1 a.index⟩, s1)

/-- ACCOUNT. -/
def execAccount (p : List Byte) (s : State) : Outcome := serve (.account p) (accountAct p) s

/-! ## READ ACCOUNT (R131) -/

/-- The slots that hold an account, in ascending number. -/
def State.holdersOf (s : State) (i : AccountId) : List SlotId :=
  (indices 64).filter fun k => (s.slot k).accountHold && (s.slot k).accountIndex == some i

/-- A slot that holds an account, as READ ACCOUNT gives it. -/
def holdFields (s : State) (i : AccountId) (k : SlotId) : List Field :=
  let x := s.slot k
  [u1 k.val, u2 x.sequence, u1 x.bay.val, u1 x.state.code, flag (x.source == some (.account i)), u8 x.blockLeft,
    flag x.finalBlock]

def readAccountAct (p : List Byte) (s : State) : Reply × State :=
  if p.length ≠ 1 then refuse .badRequest s
  else
    match index? 16 (arg p 0 1) with
    | none => refuse .outOfRange s
    | some i =>
      let ks := s.holdersOf i
      (⟨.ok, indexedAccountFields s i ++ u1 ks.length :: ks.flatMap (holdFields s i)⟩, s)

/-- READ_ACCOUNT. -/
def execReadAccount (p : List Byte) (s : State) : Outcome := serve (.readAccount p) (readAccountAct p) s

end Sys2Proof.Machine
end

