-- ==== Sys2Proof/Machine/NoticeRequests.lean ====
section
/-! DEFINITION. READ NOTICES, ACK NOTICE and NOTICE MASK (R176 to R178). -/

namespace Sys2Proof.Machine

/-- The notice kinds in index order (Table 10-4). -/
def noticeKinds : List NoticeKind :=
  [.receiptReady, .creditQuery, .bayFault, .meterJump, .slotShortage, .supplyShort, .loopDevice, .lineChange,
    .accountExhausted, .tableFullCredit]

/-- An argument in 5 bytes: the bay and the key for CREDIT_QUERY, the argument and 0 for every other kind (Table 11-9). -/
def argumentFields (n : Notice) : NoticeKind → List Field
  | .creditQuery => [u1 n.argument, u4 n.key]
  | _ => [u1 n.argument, u4 0]

def noticeFields (s : State) (k : NoticeKind) : List Field :=
  u1 (s.notice k).count :: argumentFields (s.notice k) k ++ [flag (s.notice k).masked]

def readNoticesFields (s : State) : List Field := noticeKinds.flatMap (noticeFields s) ++ [flag s.hp.attn]

/-- READ_NOTICES. -/
def execReadNotices (p : List Byte) (s : State) : Outcome := serve (.readNotices p) (readAct 0 p readNoticesFields) s

/-- A kind acknowledged: the count is 0, the argument and the mask bit are kept, and ATTN is evaluated (R177). -/
def acknowledge (k : NoticeKind) (s : State) : State := evalAttn (s.setNotice k { s.notice k with count := 0 })

def ackNoticeAct (p : List Byte) (s : State) : Reply × State :=
  if p.length ≠ 1 then refuse .badRequest s
  else
    match noticeKinds[arg p 0 1]? with
    | none => refuse .outOfRange s
    | some k => (⟨.ok, u1 (s.notice k).count :: argumentFields (s.notice k) k⟩, acknowledge k s)

/-- ACK_NOTICE. -/
def execAckNotice (p : List Byte) (s : State) : Outcome := serve (.ackNotice p) (ackNoticeAct p) s

/-- The ten mask bits, bit n for kind n (Table 11-8). -/
def maskFields (s : State) : List Field := [u2 (packBits (s.hp.notices.toList.map (·.masked)))]

/-- All ten mask bits replaced, and ATTN evaluated (R176). -/
def setMasks (bits : Nat) (s : State) : State :=
  evalAttn { s with hp.notices := Vector.ofFn fun n => { s.hp.notices[n.val] with masked := bits.testBit n.val } }

def noticeMaskAct (p : List Byte) (s : State) : Reply × State :=
  if p.length = 0 then settingsReply .ok maskFields s
  else if p.length ≠ 2 then refuse .badRequest s
  else
    let s1 := setMasks (arg p 0 2) s
    (⟨.ok, maskFields s1⟩, s1)

/-- NOTICE_MASK. -/
def execNoticeMask (p : List Byte) (s : State) : Outcome := serve (.noticeMask p) (noticeMaskAct p) s

end Sys2Proof.Machine
end

