-- ==== Sys2Proof/Machine/SessionRequests.lean ====
section
/-! DEFINITION. LIST SESSIONS, READ SESSION, TAKE RECEIPT, STOP, SUSPEND, RESUME with RESUME ALL, and CLEAR SITE (R60, R66,
R105, R106, R163, R166, R172). -/

namespace Sys2Proof.Machine

/-! ## LIST SESSIONS (R172) -/

/-- A slot in LIST SESSIONS: bay and sequence are 0 for a FREE slot. -/
def listedSlot (x : Slot) : List Field :=
  if x.state = .free then [u1 x.state.code, u1 0, u2 0] else [u1 x.state.code, u1 x.bay.val, u2 x.sequence]

/-- How many slots are in a state. -/
def State.countSlots (s : State) (st : SessionState) : Nat := ((indices 64).filter fun k => (s.slot k).state == st).length

def listSessionsFields (s : State) : List Field :=
  ((indices 64).flatMap fun k => listedSlot (s.slot k)) ++ [u1 (s.countSlots .free), u1 (s.countSlots .settled)]

/-- LIST_SESSIONS. -/
def execListSessions (p : List Byte) (s : State) : Outcome :=
  serve (.listSessions p) (readAct 0 p listSessionsFields) s

/-! ## READ SESSION (R172) -/

def stampFields (t : Stamp) : List Field := [u2 t.day, u4 t.second]

/-- The receipt flags as one byte (Table 11-3). -/
def flagsField (f : ReceiptFlags) : Field := u1 (packBits [f.meterDiscontinuity, f.endUnconfirmed, f.linkLostDuring])

/-- The receipt record (Table 11-3). -/
def receiptFields (r : Receipt) : List Field :=
  [u1 r.slot.val, u2 r.sequence, u1 r.bay.val] ++ stampFields r.openTime ++ stampFields r.endTime
    ++ [optional 1 (r.endCause.map EndCause.code), u1 r.payment.code,
      u1 (packBits [r.spendCap.isSome, r.accountIndex.isSome, r.creditKey.isSome]), optional 2 r.spendCap,
      optional 1 (r.accountIndex.map (·.val)), optional 4 r.creditKey, u4 r.energyWh, u4 r.solarWh, u4 r.batteryWh,
      u4 r.gridWh, u4 r.coveredWh, u4 r.amountDue, flagsField r.flags]

/-- The receipt that a SETTLED slot keeps. -/
def Slot.keptReceipt (k : SlotId) (x : Slot) : Receipt := x.receipt.getD (receiptOf k x)

/-- An allowance source as a kind byte and 4 bytes (Table 11-9). -/
def sourceKeyFields : Option Source → List Field
  | none => [u1 0, u4 0]
  | some (.credit key) => [u1 0, u4 key]
  | some (.account i) => [u1 1, u4 i.val]

/-- The energy and cost accumulators. -/
def accumulatorFields (x : Slot) : List Field :=
  [u4 x.energyWh, u8 x.solar, u8 x.battery, u8 x.grid, u8 x.covered, u8 x.cost]

/-- A slot in a live state, after its state byte (Table 3-5, Table 11-9). -/
def liveSlotFields (s : State) (x : Slot) : List Field :=
  presence [x.endTime.isSome, x.spendCap.isSome, x.accountIndex.isSome, x.source.isSome, x.suspendCause.isSome,
      x.endCause.isSome, x.authDeadline.isSome, x.endDeadline.isSome, x.lastCreditKey.isSome]
    ++ [u2 x.sequence, u1 x.bay.val, u1 x.cls.code, u4 x.arrival] ++ stampFields x.openTime
    ++ stampFields (x.endTime.getD {})
    ++ [u1 x.payment.code, optional 2 x.spendCap, optional 1 (x.accountIndex.map (·.val))] ++ sourceKeyFields x.source
    ++ [u8 x.blockLeft, flag x.finalBlock, flag x.runPermit, optional 1 (x.suspendCause.map SuspendCause.code)]
    ++ accumulatorFields x
    ++ [u2 x.demand, flag x.baselineSet, optional 1 (x.endCause.map EndCause.code), flagsField x.flags,
      s.optionalLeft x.authDeadline, s.optionalLeft x.endDeadline, flag x.accountHold, optional 4 x.lastCreditKey]

/-- The answer to READ SESSION by the slot's state (R172). -/
def readSessionFields (s : State) (k : SlotId) : List Field :=
  let x := s.slot k
  u1 x.state.code ::
    (match x.state with
    | .free => []
    | .settled => receiptFields (x.keptReceipt k) ++ accumulatorFields x
    | .opening | .waiting | .charging | .suspended | .ending => liveSlotFields s x)

/-- A request that names one slot: its length, and its slot number (chapters 3, 5, 9, 10). -/
def withSlot (p : List Byte) (act : SlotId → State → Reply × State) (s : State) : Reply × State :=
  if p.length ≠ 1 then refuse .badRequest s
  else
    match index? 64 (arg p 0 1) with
    | none => refuse .outOfRange s
    | some k => act k s

/-- READ_SESSION. -/
def execReadSession (p : List Byte) (s : State) : Outcome :=
  serve (.readSession p) (withSlot p fun k s => (⟨.ok, readSessionFields s k⟩, s)) s

/-! ## TAKE RECEIPT (R163) -/

/-- The bay's reference to a collected slot ends (R163, R164). -/
def dropReference (b : BayId) (k : SlotId) (s : State) : State :=
  if (s.bay b).state = .stopped ∧ (s.bay b).session = some k then s.modBay b fun y => { y with session := none } else s

def takeReceiptAt (k : SlotId) (s : State) : Reply × State :=
  if (s.slot k).state = .settled then
    let r := (s.slot k).keptReceipt k
    (⟨.ok, receiptFields r⟩, dropReference r.bay k (s.setSlot k {}))
  else refuse .wrongState s

/-- TAKE_RECEIPT. -/
def execTakeReceipt (p : List Byte) (s : State) : Outcome := serve (.takeReceipt p) (withSlot p takeReceiptAt) s

/-! ## The gate of the session commands (R10) -/

/-- A command that is answered NOT_CONFIGURED while the gate is CLOSED. -/
def whenOpen (act : State → Reply × State) (s : State) : Reply × State :=
  if s.sc.gate = .closed then refuse .notConfigured s else act s

/-! ## STOP (R60) -/

def stopAt (k : SlotId) (s : State) : Reply × State :=
  if (s.slot k).state.live then (⟨.ok, []⟩, stopSession k .commandStop s) else refuse .wrongState s

/-- STOP. -/
def execStop (p : List Byte) (s : State) : Outcome := serve (.stop p) (whenOpen (withSlot p stopAt)) s

/-! ## SUSPEND (R105) -/

/-- The slot's state and suspend cause, with its presence byte. -/
def suspensionFields (s : State) (k : SlotId) : List Field :=
  let x := s.slot k
  presence [x.suspendCause.isSome] ++ [u1 x.state.code, optional 1 (x.suspendCause.map SuspendCause.code)]

/-- A slot after a SUSPEND (R105). -/
def commandSuspend (k : SlotId) (s : State) : State :=
  if (s.slot k).state = .suspended then s.modSlot k fun x => { x with suspendCause := some .commanded }
  else suspendSlot k .commanded s

def suspendAt (k : SlotId) (s : State) : Reply × State :=
  if (s.slot k).state.queued then
    let s1 := commandSuspend k s
    (⟨.ok, suspensionFields s1 k⟩, s1)
  else refuse .wrongState s

/-- SUSPEND. -/
def execSuspend (p : List Byte) (s : State) : Outcome := serve (.suspend p) (whenOpen (withSlot p suspendAt)) s

/-! ## RESUME (R106) -/

def resumeAt (k : SlotId) (s : State) : Reply × State :=
  if (s.slot k).state ≠ .suspended then refuse .wrongState s
  else if s.heldByShed (s.slot k).cls then refuse .notSafe s
  else (⟨.ok, []⟩, resumeSlot k s)

/-- RESUME of one slot. -/
def execResume (p : List Byte) (s : State) : Outcome := serve (.resume p) (whenOpen (withSlot p resumeAt)) s

/-- The sessions that RESUME of all slots resumes. -/
def State.resumable (s : State) : List SlotId :=
  (indices 64).filter fun k => (s.slot k).state == .suspended && !s.heldByShed (s.slot k).cls

def resumeAllAct (s : State) : Reply × State :=
  (⟨.ok, [u1 s.resumable.length]⟩, s.resumable.foldl (fun t k => resumeSlot k t) s)

/-- RESUME_ALL: RESUME with the mark for all slots. -/
def execResumeAll (p : List Byte) (s : State) : Outcome := serve (.resumeAll p) (whenOpen resumeAllAct) s

/-! ## CLEAR SITE (R66, R166, R167) -/

/-- The sessions in a live state. -/
def State.liveSlots (s : State) : List SlotId := (indices 64).filter fun k => (s.slot k).state.live

/-- One settlement of CLEAR SITE: the bay by its plug, stop_flag set in both cases (R66). -/
def clearSlot (k : SlotId) (s : State) : State :=
  let b := (s.slot k).bay
  (settle k (some .siteClear) (afterByPlug (s.bay b).plug) s).modBay b fun y => { y with stopFlag := true }

def clearSiteAct (p : List Byte) (s : State) : Reply × State :=
  if p.length ≠ 0 then refuse .badRequest s
  else
    let s1 := (freeOrder s.freeDraws s.liveSlots).foldl (fun t k => clearSlot k t) s
    (⟨.ok, [u1 s.liveSlots.length, u1 s1.baysCommitted]⟩, s1)

/-- CLEAR_SITE. -/
def execClearSite (p : List Byte) (s : State) : Outcome := serve (.clearSite p) (whenOpen (clearSiteAct p)) s

end Sys2Proof.Machine
end

