-- ==== Sys2Proof/Machine/Timers.lean ====
section
/-! DEFINITION. The rows of the allocator and of the timers: PASS_END, REFRESH_TIMER_EXPIRY, the five deadlines, DAY_ROLLOVER;
and the passing of one ms (R53, R63, R69, R70, R96, R100, R118, R149). A row whose deadline is absent or not yet reached finds
nothing to do (log 3). -/

namespace Sys2Proof.Machine

/-- An optional deadline that has been reached. -/
def reached (deadline : Option Nat) (now : Nat) : Bool :=
  match deadline with
  | some d => d ≤ now
  | none => false

/-! ## The allocator (R69, R70) -/

/-- PASS_END. -/
def execPassEnd (s : State) : Outcome :=
  match s.al.passState, s.al.snapshot with
  | .running, some n => done (endPass n s)
  | _, _ => .next s

/-- REFRESH_TIMER_EXPIRY. -/
def execRefreshTimerExpiry (s : State) : Outcome :=
  if reached s.al.refresh s.runTimer then done (requestPass { s with al.refresh := none }) else .next s

/-! ## Session deadlines (R53, R63) -/

/-- AUTH_DEADLINE. -/
def execAuthDeadline (k : SlotId) (s : State) : Outcome :=
  if (s.slot k).state = .opening ∧ reached (s.slot k).authDeadline s.runTimer then
    done (endOpening k .authTimeout s)
  else .next s

/-- The settlement at the end deadline (R63). -/
def endUnconfirmed (k : SlotId) (s : State) : State :=
  settle k none .fault (s.modSlot k fun x => { x with flags := { x.flags with endUnconfirmed := true } })

/-- END_DEADLINE. -/
def execEndDeadline (k : SlotId) (s : State) : Outcome :=
  if (s.slot k).state = .ending ∧ reached (s.slot k).endDeadline s.runTimer then done (endUnconfirmed k s) else .next s

/-! ## Bay deadlines (R96, R100, R118) -/

/-- ACK_DEADLINE. -/
def execAckDeadline (b : BayId) (s : State) : Outcome :=
  if reached ((s.bay b).ackWait.map (·.deadline)) s.runTimer then done (failBay b s) else .next s

/-- The end of the link-loss wait (R100): the live session is settled with LINK_LOST and the bay enters FAULT. -/
def endLinkWait (b : BayId) (s : State) : State :=
  match s.liveSlot b with
  | some k => settle k (some .linkLost) .fault s
  | none => s.modBay b fun y => { y with lostDeadline := none }

/-- LOST_DEADLINE. -/
def execLostDeadline (b : BayId) (s : State) : Outcome :=
  if reached (s.bay b).lostDeadline s.runTimer then done (endLinkWait b s) else .next s

/-- The query deadline of a PENDING scan slot. -/
def ScanSlot.deadline? : ScanSlot → Option Nat
  | .pending _ _ d => some d
  | .empty => none

/-- QUERY_DEADLINE. -/
def execQueryDeadline (b : BayId) (s : State) : Outcome :=
  if reached (s.bay b).scan.deadline? s.runTimer then done (setMessage b .creditNotFound (emptyScan b s)) else .next s

/-! ## The tariff clock (R149, R150) -/

/-- The last second of a day. -/
def lastSecond : Nat := 86399

/-- The last second of the day has passed (R149). -/
def TariffClock.dayOver (t : TariffClock) : Bool := t.second == lastSecond && 1000 ≤ t.millis

/-- The midnight advance with its rollover (R149, R150). -/
def midnight (s : State) : State :=
  let day := min 65535 (s.tc.day + 1)
  rollover day { s with tc := { s.tc with day := day, second := 0, millis := s.tc.millis - 1000 } }

/-- DAY_ROLLOVER. -/
def execDayRollover (s : State) : Outcome := if s.tc.dayOver then done (midnight s) else .next s

/-! ## One ms (logs 1, 2, 39) -/

/-- The tariff clock one ms later; the second that ends the day passes at DAY_ROLLOVER. -/
def TariffClock.tick (t : TariffClock) : TariffClock :=
  if 1000 ≤ t.millis + 1 ∧ t.second ≠ lastSecond then { t with second := t.second + 1, millis := t.millis + 1 - 1000 }
  else { t with millis := t.millis + 1 }

/-- The expiry rows of a slot that are due. -/
def slotExpiries (s : State) (k : SlotId) : List Instr :=
  (if (s.slot k).state = .opening ∧ reached (s.slot k).authDeadline s.runTimer then [.authDeadline k] else [])
    ++ (if (s.slot k).state = .ending ∧ reached (s.slot k).endDeadline s.runTimer then [.endDeadline k] else [])

/-- The expiry rows of a bay that are due. -/
def bayExpiries (s : State) (b : BayId) : List Instr :=
  (if reached ((s.bay b).ackWait.map (·.deadline)) s.runTimer then [.ackDeadline b] else [])
    ++ (if reached (s.bay b).lostDeadline s.runTimer then [.lostDeadline b] else [])
    ++ (if reached (s.bay b).scan.deadline? s.runTimer then [.queryDeadline b] else [])

/-- The expiry rows of the site that are due. -/
def siteExpiries (s : State) : List Instr :=
  (if s.sc.shedPin.qualified s.runTimer then [.lineQualified .shed] else [])
    ++ (if s.sc.rsvReqPin.qualified s.runTimer then [.lineQualified .rsvReq] else [])
    ++ (if reached s.al.refresh s.runTimer then [.refreshTimerExpiry] else [])
    ++ (if s.tc.dayOver then [.dayRollover] else [])

/-- Every expiry row that is due. -/
def State.expiries (s : State) : List Instr :=
  siteExpiries s ++ (indices 64).flatMap (slotExpiries s) ++ (indices 48).flatMap (bayExpiries s)

/-- The timers one ms later. -/
def advance (s : State) : State :=
  { s with runTimer := s.runTimer + 1, tc := s.tc.tick, freeDraws := s.freeDraws + 1 }

/-- One ms passes, and the expiries that are due are posted in a free order (log 2). -/
def tick (s : State) : State :=
  let s1 := advance s
  { s1 with pending := freeOrder s.freeDraws s1.expiries }

end Sys2Proof.Machine
end

