-- ==== Sys2Proof/Machine/Dispatch.lean ====
section
/-! DEFINITION. The effect of a command on everything but the queue: one arm for each row of the table. -/

namespace Sys2Proof.Machine

def exec (i : Instr) (s : State) : Host.Outcome State Fault Refusal :=
  match i with
  | .reset => Sys2Proof.Machine.execReset s
  | .hostWriteTransaction bytes => Sys2Proof.Machine.execHostWriteTransaction bytes s
  | .hostReadTransaction count => Sys2Proof.Machine.execHostReadTransaction count s
  | .siteLimits payload => Sys2Proof.Machine.execSiteLimits payload s
  | .fallbackLoad payload => Sys2Proof.Machine.execFallbackLoad payload s
  | .battery payload => Sys2Proof.Machine.execBattery payload s
  | .layout payload => Sys2Proof.Machine.execLayout payload s
  | .timing payload => Sys2Proof.Machine.execTiming payload s
  | .lines payload => Sys2Proof.Machine.execLines payload s
  | .declareBay payload => Sys2Proof.Machine.execDeclareBay payload s
  | .removeBay payload => Sys2Proof.Machine.execRemoveBay payload s
  | .declareSource payload => Sys2Proof.Machine.execDeclareSource payload s
  | .removeSource payload => Sys2Proof.Machine.execRemoveSource payload s
  | .clock payload => Sys2Proof.Machine.execClock payload s
  | .tariff payload => Sys2Proof.Machine.execTariff payload s
  | .blockSize payload => Sys2Proof.Machine.execBlockSize payload s
  | .issueCredit payload => Sys2Proof.Machine.execIssueCredit payload s
  | .decline payload => Sys2Proof.Machine.execDecline payload s
  | .voidCredit payload => Sys2Proof.Machine.execVoidCredit payload s
  | .queryCredit payload => Sys2Proof.Machine.execQueryCredit payload s
  | .queryPendingList payload => Sys2Proof.Machine.execQueryPendingList payload s
  | .account payload => Sys2Proof.Machine.execAccount payload s
  | .readAccount payload => Sys2Proof.Machine.execReadAccount payload s
  | .listSessions payload => Sys2Proof.Machine.execListSessions payload s
  | .readSession payload => Sys2Proof.Machine.execReadSession payload s
  | .takeReceipt payload => Sys2Proof.Machine.execTakeReceipt payload s
  | .stop payload => Sys2Proof.Machine.execStop payload s
  | .suspend payload => Sys2Proof.Machine.execSuspend payload s
  | .resume payload => Sys2Proof.Machine.execResume payload s
  | .resumeAll payload => Sys2Proof.Machine.execResumeAll payload s
  | .clearSite payload => Sys2Proof.Machine.execClearSite payload s
  | .readBay payload => Sys2Proof.Machine.execReadBay payload s
  | .clearBayFault payload => Sys2Proof.Machine.execClearBayFault payload s
  | .readSite payload => Sys2Proof.Machine.execReadSite payload s
  | .readNotices payload => Sys2Proof.Machine.execReadNotices payload s
  | .ackNotice payload => Sys2Proof.Machine.execAckNotice payload s
  | .noticeMask payload => Sys2Proof.Machine.execNoticeMask payload s
  | .linePinChange line level => Sys2Proof.Machine.execLinePinChange line level s
  | .lineQualified line => Sys2Proof.Machine.execLineQualified line s
  | .bayPoll => Sys2Proof.Machine.execBayPoll s
  | .sourcePoll => Sys2Proof.Machine.execSourcePoll s
  | .bayPollSent => Sys2Proof.Machine.execBayPollSent s
  | .sourcePollSent => Sys2Proof.Machine.execSourcePollSent s
  | .responseTimeout => Sys2Proof.Machine.execResponseTimeout s
  | .responseReceived chars => Sys2Proof.Machine.execResponseReceived chars s
  | .passEnd => Sys2Proof.Machine.execPassEnd s
  | .refreshTimerExpiry => Sys2Proof.Machine.execRefreshTimerExpiry s
  | .authDeadline slot => Sys2Proof.Machine.execAuthDeadline slot s
  | .endDeadline slot => Sys2Proof.Machine.execEndDeadline slot s
  | .ackDeadline bay => Sys2Proof.Machine.execAckDeadline bay s
  | .lostDeadline bay => Sys2Proof.Machine.execLostDeadline bay s
  | .queryDeadline bay => Sys2Proof.Machine.execQueryDeadline bay s
  | .dayRollover => Sys2Proof.Machine.execDayRollover s
  | .badRequestFrame bytes => Sys2Proof.Machine.execBadRequestFrame bytes s

end Sys2Proof.Machine
end

