-- ==== Sys2Proof/WellFormed.lean ====
section
/-! DEFINITION. Which commands can come about: the form each row's operands have (log 4 for the rows that share one request kind). -/

namespace Sys2Proof

/-- The payload length that a request frame can state: two bytes (Table 11-1). -/
def payloadFits (p : List Byte) : Bool := p.length < 65536

/-- A frame that passes both checks of R169: a whole header, the payload length it states, and a kind of Table 10-2. -/
def isGoodRequestFrame (f : List Byte) : Bool :=
  3 ≤ f.length && f.length == 3 + beNat ((f.drop 1).take 2) && 1 ≤ (f.getD 0 0).toNat && (f.getD 0 0).toNat ≤ 30

/-- The commands whose operands have the form their row allows. -/
def Instr.wellFormed : Instr → Bool
  | .reset => true
  | .hostWriteTransaction bytes => !bytes.isEmpty
  | .hostReadTransaction count => 0 < count
  | .siteLimits p | .fallbackLoad p | .battery p | .layout p | .timing p | .lines p | .clock p | .tariff p | .blockSize p
  | .issueCredit p | .decline p | .voidCredit p | .account p | .readAccount p | .listSessions p | .readSession p
  | .takeReceipt p | .stop p | .suspend p | .clearSite p | .readBay p | .clearBayFault p | .readSite p | .readNotices p
  | .ackNotice p | .noticeMask p => payloadFits p
  | .declareBay p => payloadFits p && !isBayRemoval p
  | .removeBay p => isBayRemoval p
  | .declareSource p => payloadFits p && !isSourceRemoval p
  | .removeSource p => isSourceRemoval p
  | .queryCredit p => payloadFits p && !isPendingListQuery p
  | .queryPendingList p => isPendingListQuery p
  | .resume p => payloadFits p && !isResumeAll p
  | .resumeAll p => isResumeAll p
  | .linePinChange _ _ | .lineQualified _ | .bayPoll | .sourcePoll | .bayPollSent | .sourcePollSent | .responseTimeout => true
  | .responseReceived chars => !chars.isEmpty
  | .passEnd | .refreshTimerExpiry | .authDeadline _ | .endDeadline _ | .ackDeadline _ | .lostDeadline _
  | .queryDeadline _ | .dayRollover => true
  | .badRequestFrame bytes => !bytes.isEmpty && !isGoodRequestFrame bytes

end Sys2Proof
end

