-- ==== Sys2Proof/Safety.lean ====
section
/-! DEFINITION. What the statements speak of: the condition under which a request row acts, the state it leaves, the answer it
gives, and the invariants of the machine that every step keeps. -/

namespace Sys2Proof.Machine

/-! ## Requests and answers -/

/-- The port holds, in PROCESSING, the request that a row takes (R169, log 4). -/
def Holds (i : Instr) (f : List Byte) (s : State) : Prop := s.hp.port = .processing f ∧ requestOf f = i

/-- The port after a request has been answered: RESPONSE_WAITING with the status, the kind and the payload (R169). -/
def answeredPort (f : List Byte) (st : Status) (payload : List Field) (s : State) : Port :=
  .responseWaiting ⟨st, f.getD 0 0, serialize s.freeDraws payload⟩

/-- A state whose request has been answered, the answering command completed. `s` is the state in which it was taken. -/
def State.answered (t : State) (f : List Byte) (st : Status) (payload : List Field) (s : State) : State :=
  { t with hp := { t.hp with port := answeredPort f st payload s }, freeDraws := s.freeDraws + 1 }

/-! ## Passes -/

/-- A RUNNING pass holds its snapshot: true at the end of every step (log 6). -/
def PassSampled (s : State) : Prop := s.al.passState = .running → s.al.snapshot.isSome = true

/-- A pass request has reached AL between two states (R69, R10): kept pending while the gate is CLOSED, the again flag set
where a pass was RUNNING, and otherwise a pass RUNNING with the records as its snapshot. -/
def PassRequested (s t : State) : Prop :=
  (t.sc.gate = .closed → s.al.passState = .idle → t.al.passState = .idle ∧ t.al.pendingRequest = true)
    ∧ (s.al.passState = .running → t.al.passState = .running ∧ t.al.again = true ∧ t.al.snapshot = s.al.snapshot)
    ∧ (t.sc.gate = .opened → s.al.passState = .idle →
        t.al.passState = .running ∧ t.al.snapshot = some t.takeSnapshot ∧ t.al.refresh = none)

/-- A pass request has reached AL inside a command, before the pass that it may begin is sampled (R69, R10, log 6). -/
def PassAsked (s t : State) : Prop :=
  (t.sc.gate = .closed → s.al.passState = .idle → t.al.passState = .idle ∧ t.al.pendingRequest = true)
    ∧ (s.al.passState = .running → t.al.passState = .running ∧ t.al.again = true ∧ t.al.snapshot = s.al.snapshot)
    ∧ (t.sc.gate = .opened → s.al.passState = .idle →
        t.al.passState = .running ∧ t.al.snapshot = none ∧ t.al.refresh = none)

/-- The results of the passes and the source records of AL are unchanged: shares, permit, limits, battery, store load, and the
last-pass record. -/
def ResultsKept (s t : State) : Prop :=
  t.al.share = s.al.share ∧ t.al.permit = s.al.permit ∧ t.al.inverters = s.al.inverters ∧ t.al.battery = s.al.battery
    ∧ t.al.storeLoad = s.al.storeLoad ∧ t.al.lastPass = s.al.lastPass

/-! ## Frames -/

/-- What a command on one session and its bay leaves: every other slot and bay, the counters of ST, and every block outside ST,
BT, CS, AL's queue and pass state, and the port's response and notices. -/
structure OnlyAt (k : SlotId) (b : BayId) (s t : State) : Prop where
  slots : ∀ j, j ≠ k → t.slot j = s.slot j
  bays : ∀ c, c ≠ b → t.bay c = s.bay c
  sequence : t.st.sequence = s.st.sequence
  arrival : t.st.arrival = s.st.arrival
  sc : t.sc = s.sc
  flc : t.flc = s.flc
  tc : t.tc = s.tc
  runTimer : t.runTimer = s.runTimer
  pending : t.pending = s.pending
  dropped : t.hp.dropped = s.hp.dropped
  results : ResultsKept s t

/-- Every slot and bay, and every block but SC, AL and the port, is as it was. -/
structure TablesKept (s t : State) : Prop where
  flc : t.flc = s.flc
  bays : t.bays = s.bays
  st : t.st = s.st
  cs : t.cs = s.cs
  tc : t.tc = s.tc
  notices : t.hp.notices = s.hp.notices
  runTimer : t.runTimer = s.runTimer
  pending : t.pending = s.pending

/-- One occurrence of a notice kind, and of no other, has been counted between two states (R175). -/
def Counted (k : NoticeKind) (argument key : Nat) (s t : State) : Prop :=
  t.notice k = { s.notice k with count := min 255 ((s.notice k).count + 1), argument := argument, key := key }
    ∧ ∀ j, j ≠ k → t.notice j = s.notice j

/-! ## Ends of sessions -/

/-- Session k at bay b has been settled between two states (R56), whatever state its bay is given: the slot with what was
metered, the receipt made from it, the bay's grant, scan slot and link-loss wait, the queue, and one RECEIPT_READY. -/
structure Settled (k : SlotId) (b : BayId) (cause : Option EndCause) (s t : State) : Prop where
  state : (t.slot k).state = .settled
  cause : (t.slot k).endCause = cause
  endTime : (t.slot k).endTime = some ⟨s.tc.day, s.tc.second⟩
  waits : (t.slot k).authDeadline = none ∧ (t.slot k).endDeadline = none
  permit : (t.slot k).runPermit = false ∧ (t.slot k).suspendCause = none
  source : (t.slot k).source = none
  session : (t.slot k).sequence = (s.slot k).sequence ∧ (t.slot k).bay = (s.slot k).bay
    ∧ (t.slot k).payment = (s.slot k).payment
  metered : (t.slot k).energyWh = (s.slot k).energyWh ∧ (t.slot k).solar = (s.slot k).solar
    ∧ (t.slot k).battery = (s.slot k).battery ∧ (t.slot k).grid = (s.slot k).grid
    ∧ (t.slot k).covered = (s.slot k).covered ∧ (t.slot k).cost = (s.slot k).cost
  receipt : (t.slot k).receipt = some (receiptOf k (t.slot k))
  bay : (t.bay b).grantSet = 0 ∧ (t.bay b).scan = .empty ∧ (t.bay b).lostDeadline = none
  queue : t.al.queue.map (·.slot) =
    if (s.slot k).state.queued then (s.al.queue.map (·.slot)).filter (fun j => j != k) else s.al.queue.map (·.slot)
  asked : (s.slot k).state.queued = true → PassAsked s t
  counted : (t.notice .receiptReady).count = min 255 ((s.notice .receiptReady).count + 1)
    ∧ (t.notice .receiptReady).argument = k.val
  attn : t.hp.attn = t.attnDue

/-- Bay b has entered FAULT between two states (R43, R98): its record but the grant_ack, one BAY_FAULT, a pass request. -/
structure Failed (b : BayId) (s t : State) : Prop where
  state : (t.bay b).state = .fault
  session : (t.bay b).session = none
  stopFlag : (t.bay b).stopFlag = true
  message : (t.bay b).message = none
  ackWait : (t.bay b).ackWait = none
  grantSet : (t.bay b).grantSet = 0
  counted : (t.notice .bayFault).count = min 255 ((s.notice .bayFault).count + 1) ∧ (t.notice .bayFault).argument = b.val
  attn : t.hp.attn = t.attnDue
  asked : PassAsked s t

/-- Session k at the ONLINE bay b has entered ENDING with a cause between two states (R58). -/
structure EndingEntered (k : SlotId) (b : BayId) (cause : EndCause) (s t : State) : Prop where
  slot : t.slot k = { s.slot k with
    state := .ending, endCause := some cause, runPermit := false, suspendCause := none
    endDeadline := some (s.runTimer + s.sc.timing.tEnd * 1000) }
  bay : t.bay b = { s.bay b with
    stopFlag := true, scan := .empty, grantSet := 0
    ackWait := if (s.bay b).grantAck = 0 then none else (s.bay b).ackWait }
  queue : t.al.queue.map (·.slot) = (s.al.queue.map (·.slot)).filter (fun j => j != k)
  asked : PassAsked s t
  store : t.cs = s.cs ∧ t.hp = s.hp
  only : OnlyAt k b s t

/-- Session k, whose bay b is OFFLINE, has been settled with LINK_LOST where it entered ENDING (R100, R65, log 30). -/
structure EndingLost (k : SlotId) (b : BayId) (s t : State) : Prop where
  settled : Settled k b (some .linkLost) s t
  flags : (t.slot k).flags = { (s.slot k).flags with endUnconfirmed := true, linkLostDuring := true }
  failed : Failed b s t
  grantAck : (t.bay b).grantAck = (s.bay b).grantAck
  only : OnlyAt k b s t

/-! ## Loop responses -/

/-- The characters in which a device sends a frame: even parity and good stop bits (R182). -/
def charsOf (frame : List Byte) : List RxChar := frame.map fun d => ⟨d, evenParity d, true⟩

/-! ## The day rollover -/

/-- The credits after a day rollover with a new day (R122). -/
def creditsAfter (day : Nat) (cs : List Credit) : List Credit :=
  cs.filterMap fun c =>
    if c.expiryDay < day then (if c.state = .issued then none else some { c with expired := true }) else some c

/-- The accounts after a day rollover (R138). -/
def accountsAfter (accounts : Vector Account 16) : Vector Account 16 :=
  accounts.map fun a => if a.enabled then { a with remainingWh := a.allowanceWh } else a

/-! ## Invariants -/

/-- The gate is OPEN exactly when both marks have been given (R9). -/
def GateInv (s : State) : Prop := s.sc.gate = .opened ↔ s.sc.limitsMark = true ∧ s.sc.layoutMark = true

/-- The allocator between steps: a RUNNING pass and no other holds a snapshot, the refresh timer runs and the again flag is
clear only in the states R69 and R70 give, and while the gate is CLOSED no pass runs (R10, R69, R70). -/
def PassInv (s : State) : Prop :=
  (s.al.passState = .running ↔ s.al.snapshot.isSome = true)
    ∧ (s.al.passState = .running → s.al.refresh = none)
    ∧ (s.al.passState = .idle → s.al.again = false)
    ∧ (s.sc.gate = .closed → s.al.passState = .idle ∧ s.al.refresh = none)
    ∧ (s.sc.gate = .opened → s.al.pendingRequest = false)

/-- The three shares sum to 1000 (R87). -/
def ShareInv (s : State) : Prop := s.al.share.solar + s.al.share.battery + s.al.share.grid = 1000

/-- ATTN is asserted exactly under the condition of R178. -/
def AttnInv (s : State) : Prop :=
  s.hp.attn = true ↔
    s.sc.gate = .opened ∧ ∃ k : NoticeKind, (s.notice k).masked = false ∧ 0 < (s.notice k).count

/-- What a bay record and its device entry say of one bay agrees (R5, R19, R31). -/
structure BayDeclared (s : State) (b : BayId) : Prop where
  declared : (s.bayDevice b).declared = (s.bay b).declared
  feeder : (s.bay b).feeder = feederOf s.sc.layoutMode b
  kind : (s.bay b).declared = true → (s.bayDevice b).kind = (s.bay b).kind.device
  minSteps : (s.bay b).declared = true → (s.bay b).minSteps = (s.bay b).kind.minSteps
  maximum : (s.bay b).declared = true → (s.bayDevice b).declaredMax ≤ (s.bay b).kind.maxBound
  maxSteps : (s.bay b).declared = true →
    (s.bay b).minSteps ≤ (s.bay b).maxSteps ∧ (s.bay b).maxSteps ≤ (s.bayDevice b).declaredMax

/-- Every bay record agrees with its declaration. -/
def DeclarationInv (s : State) : Prop := ∀ b, BayDeclared s b

/-- At most 256 live records, no two with one key, none with key 0 (R109); the model keeps them in ascending order (log 27). -/
def CreditInv (s : State) : Prop :=
  (s.cs.credits.map (·.key)).Pairwise (· < ·) ∧ (∀ c ∈ s.cs.credits, c.key ≠ 0) ∧ s.cs.credits.length ≤ 256

/-- Every account keeps its bounds, and no two enabled entries have the same token (R126). -/
def AccountInv (s : State) : Prop :=
  (∀ i, (s.account i).remainingWh ≤ (s.account i).allowanceWh ∧ (s.account i).holders ≤ (s.account i).maxHolders
      ∧ ((s.account i).enabled = true → (s.account i).token ≠ 0))
    ∧ ∀ i j, i ≠ j → (s.account i).enabled = true → (s.account j).enabled = true → (s.account i).token ≠ (s.account j).token

/-- The reserve follows RSV_REQ, and the setpoint held is 0 while it is not FREE (R16, R89, R108). -/
def ReserveInv (s : State) : Prop :=
  (s.rsvReqActive = true ↔ s.sc.reserve ≠ .free) ∧ (s.sc.reserve ≠ .free → s.al.battery.setpoint = 0)

/-- The settings, the clock and the counters are within their ranges (R2 to R7, R18, R45, R87, R116, R126, R132, R149, R152, R168,
R175). -/
structure RangeInv (s : State) : Prop where
  importCap : s.sc.importCap ≤ 20000
  margin : s.sc.margin ≤ 2000 ∧ s.sc.margin ≤ s.sc.importCap
  exportCap : s.sc.exportCap ≤ 20000
  capacity : s.sc.eCap ≤ 1000000
  floor : s.sc.eFloor ≤ s.sc.eCap
  batteryPower : s.sc.pDis ≤ 5000 ∧ s.sc.pCh ≤ 5000
  layoutMode : s.sc.layoutMode ≤ 4
  fallback : ∀ n, s.sc.fallback = .fixed n → n ≤ 20000
  feederLimits : ∀ f : FeederId, s.sc.feederLimits[f.val] ≤ 10000
  waits : 1 ≤ s.sc.timing.tAck ∧ s.sc.timing.tAck ≤ 60 ∧ 10 ≤ s.sc.timing.tLost ∧ s.sc.timing.tLost ≤ 600
    ∧ 30 ≤ s.sc.timing.tAuth ∧ s.sc.timing.tAuth ≤ 600 ∧ 5 ≤ s.sc.timing.tEnd ∧ s.sc.timing.tEnd ≤ 120
    ∧ 5 ≤ s.sc.timing.tQuery ∧ s.sc.timing.tQuery ≤ 120
  pollGap : s.sc.timing.pollGap ≤ 1000
  allowances : 2 ≤ s.sc.timing.acAllowance ∧ s.sc.timing.acAllowance ≤ 50 ∧ 2 ≤ s.sc.timing.dcAllowance
    ∧ s.sc.timing.dcAllowance ≤ 50 ∧ 2 ≤ s.sc.timing.sourceAllowance ∧ s.sc.timing.sourceAllowance ≤ 50
  missThreshold : 1 ≤ s.sc.timing.missThreshold ∧ s.sc.timing.missThreshold ≤ 15
  missCounts : ∀ e, (s.device e).missCount ≤ 15
  overwrites : ∀ b key n d, (s.bay b).scan = .pending key n d → n ≤ 255
  sequence : 1 ≤ s.st.sequence ∧ s.st.sequence ≤ 65535
  arrival : s.st.arrival < 4294967296
  passNumber : s.al.share.passNumber ≤ 65535
  accounts : ∀ i, (s.account i).firmSteps ≤ 1500 ∧ (s.account i).allowanceWh ≤ 65000 ∧ (s.account i).maxHolders ≤ 8
  blockSize : 100 ≤ s.cs.blockSize ∧ s.cs.blockSize ≤ 5000
  clock : s.tc.day ≤ 65535 ∧ s.tc.second ≤ 86399
  bands : ∀ n : BandId, (∀ m, (s.tc.bands[n.val]).start = some m → m ≤ 1439) ∧ (s.tc.bands[n.val]).price ≤ 9999
  canopyPrice : s.tc.canopyPrice ≤ 9999
  dropped : s.hp.dropped ≤ 255
  counts : ∀ k, (s.notice k).count ≤ 255

/-- The parts of every session's energy sum to it, and no more than it is covered (R145, R146). -/
def MeterInv (s : State) : Prop :=
  ∀ k, (s.slot k).solar + (s.slot k).battery + (s.slot k).grid = 1000 * (s.slot k).energyWh
    ∧ (s.slot k).covered ≤ 1000 * (s.slot k).energyWh

/-- What the bays, the sessions and the credits say of each other (R56, R119, R120): a bay names a session of its own, live while
OCCUPIED and settled while STOPPED; a PENDING scan slot belongs to a session without a source that is not ending; a source belongs
to an authorised session, and a session without one has no open block; an ISSUED credit has energy and no holder; and a HELD credit and
its holder's source name each other, its energy within what was issued. -/
structure LedgerInv (s : State) : Prop where
  named : ∀ b k, (s.bay b).session = some k → (s.slot k).bay = b
    ∧ (((s.bay b).state = .occupied ∧ (s.slot k).state.live = true)
      ∨ ((s.bay b).state = .stopped ∧ (s.slot k).state = .settled))
  receipts : ∀ k, (s.slot k).state = .settled → ∃ r, (s.slot k).receipt = some r ∧ r.bay = (s.slot k).bay
  scans : ∀ b key n d, (s.bay b).scan = .pending key n d →
    ∃ k, (s.bay b).session = some k ∧ ((s.slot k).state = .opening ∨ (s.slot k).state.queued = true)
      ∧ (s.slot k).source = none
  sources : ∀ k, (s.slot k).source ≠ none → (s.slot k).state.queued = true ∨ (s.slot k).state = .ending
  holders : ∀ c ∈ s.cs.credits, c.state = .held → ∃ k, c.holder = some k ∧ (s.slot k).source = some (.credit c.key)
  sourceless : ∀ k, (s.slot k).source = none → (s.slot k).blockLeft = 0 ∧ (s.slot k).finalBlock = false
  issued : ∀ c ∈ s.cs.credits, c.state = .issued → c.holder = none ∧ 0 < c.remainingWh
  held : ∀ k key, (s.slot k).source = some (.credit key) →
    ∃ c ∈ s.cs.credits, c.key = key ∧ c.state = .held ∧ c.holder = some k
  energy : ∀ c ∈ s.cs.credits, c.remainingWh ≤ c.originalWh
    ∧ ∀ k, c.holder = some k → c.remainingWh + ceilDiv (s.slot k).blockLeft 1000 ≤ c.originalWh

/-- A session in a live state and its bay name each other (R46, R56): the bay is OCCUPIED with the slot in its session field,
and a bay that is OCCUPIED has such a session. -/
def SessionInv (s : State) : Prop :=
  (∀ k, (s.slot k).state.live = true →
      (s.bay (s.slot k).bay).state = .occupied ∧ (s.bay (s.slot k).bay).session = some k)
    ∧ ∀ b, (s.bay b).state = .occupied →
        ∃ k, (s.bay b).session = some k ∧ (s.slot k).state.live = true ∧ (s.slot k).bay = b

/-- The admission queue: its members are the sessions in WAITING, CHARGING and SUSPENDED, each listed once, with its class and
its arrival number, and the queue is in its order (R67). -/
def QueueInv (s : State) : Prop :=
  (s.al.queue.map (·.slot)).Nodup
    ∧ (∀ k, (∃ m ∈ s.al.queue, m.slot = k) ↔ (s.slot k).state.queued = true)
    ∧ (∀ m ∈ s.al.queue, m.cls = (s.slot m.slot).cls ∧ m.arrival = (s.slot m.slot).arrival)
    ∧ s.al.queue.Pairwise fun x y => y.before x = false

end Sys2Proof.Machine
end

