-- ==== Sys2Proof/Certificates/Slice0/Obligations.lean ====
section
/-! DEFINITION. The statements for the provers. `Holds i f s`: the port holds, in PROCESSING, the frame f that row i takes.
`PassSampled` is the part of `PassInv` that completed commands need; it is stated of every step in `AllocatorInvariantKept`. -/

open Sys2Proof Sys2Proof.Machine

/-! ## The machine -/

/-- A step with a command at the front of the queue is exec of that command on the state with the rest of the queue. -/
def Obligations.StepRunsFrontCommand : Prop :=
  ∀ (c : Instr) (rest : List Instr) (s : State), s.pending = c :: rest → step s = exec c { s with pending := rest }

/-- The model's choice (logs 1, 2 and 39): a step on an empty queue is one ms of the run timer, and it posts the expiries that are
due, each once, and no other row. -/
def Obligations.IdleStepIsOneMillisecond : Prop :=
  ∀ s : State, s.pending = [] → ∃ t, step s = .next t
    ∧ t.runTimer = s.runTimer + 1
    ∧ (s.tc.millis < 999 ∨ s.tc.second = 86399 → t.tc = { s.tc with millis := s.tc.millis + 1 })
    ∧ (999 ≤ s.tc.millis → s.tc.second ≠ 86399 →
        t.tc = { s.tc with second := s.tc.second + 1, millis := s.tc.millis + 1 - 1000 })
    ∧ (∀ k, .authDeadline k ∈ t.pending ↔
        (s.slot k).state = .opening ∧ ∃ d, (s.slot k).authDeadline = some d ∧ d ≤ s.runTimer + 1)
    ∧ (∀ k, .endDeadline k ∈ t.pending ↔
        (s.slot k).state = .ending ∧ ∃ d, (s.slot k).endDeadline = some d ∧ d ≤ s.runTimer + 1)
    ∧ (∀ b, .ackDeadline b ∈ t.pending ↔ ∃ w, (s.bay b).ackWait = some w ∧ w.deadline ≤ s.runTimer + 1)
    ∧ (∀ b, .lostDeadline b ∈ t.pending ↔ ∃ d, (s.bay b).lostDeadline = some d ∧ d ≤ s.runTimer + 1)
    ∧ (∀ b, .queryDeadline b ∈ t.pending ↔ ∃ key n d, (s.bay b).scan = .pending key n d ∧ d ≤ s.runTimer + 1)
    ∧ (.refreshTimerExpiry ∈ t.pending ↔ ∃ d, s.al.refresh = some d ∧ d ≤ s.runTimer + 1)
    ∧ (.lineQualified .shed ∈ t.pending ↔
        s.sc.shedPin.level ≠ s.sc.shedPin.taken ∧ s.sc.shedPin.since + 20 ≤ s.runTimer + 1)
    ∧ (.lineQualified .rsvReq ∈ t.pending ↔
        s.sc.rsvReqPin.level ≠ s.sc.rsvReqPin.taken ∧ s.sc.rsvReqPin.since + 20 ≤ s.runTimer + 1)
    ∧ (.dayRollover ∈ t.pending ↔ t.tc.second = 86399 ∧ 1000 ≤ t.tc.millis)
    ∧ (∀ i ∈ t.pending, (∃ k, i = .authDeadline k ∨ i = .endDeadline k)
        ∨ (∃ b, i = .ackDeadline b ∨ i = .lostDeadline b ∨ i = .queryDeadline b) ∨ i = .refreshTimerExpiry
        ∨ (∃ line, i = .lineQualified line) ∨ i = .dayRollover)
    ∧ t.pending.Nodup
    ∧ t.sc = s.sc ∧ t.flc = s.flc ∧ t.bays = s.bays ∧ t.st = s.st ∧ t.al = s.al ∧ t.cs = s.cs ∧ t.hp = s.hp

/-- RESET leaves every record at its reset value, the gate CLOSED, both line states INACTIVE and the port IDLE; the queue, the
levels of the two pins and the free-value counter are not the part's to reset (log 20, the model's choice). -/
def Obligations.ResetLeavesResetValues : Prop :=
  ∀ s : State, ∃ t, exec .reset s = .next t
    ∧ t = { State.reset with
        pending := s.pending
        freeDraws := s.freeDraws
        sc := { State.reset.sc with
          shedPin := ⟨s.sc.shedPin.level, 0, .low⟩
          rsvReqPin := ⟨s.sc.rsvReqPin.level, 0, .low⟩ } }
    ∧ t.sc.gate = .closed ∧ t.sc.limitsMark = false ∧ t.sc.layoutMark = false
    ∧ t.shedActive = false ∧ t.rsvReqActive = false ∧ t.sc.reserve = .free
    ∧ t.sc.importCap = 0 ∧ t.sc.fallback = .follow ∧ t.sc.layoutMode = 0 ∧ t.sc.timing.missThreshold = 3
    ∧ (∀ e, (t.device e).declared = false ∧ (t.device e).link = .offline ∧ (t.device e).lastSent = 0)
    ∧ (∀ b, (t.bay b).state = .idle ∧ (t.bay b).committed = 0 ∧ (t.bay b).scan = .empty ∧ (t.bay b).stopFlag = false)
    ∧ (∀ k, t.slot k = {}) ∧ t.st.sequence = 1 ∧ t.st.arrival = 0
    ∧ t.al.passState = .idle ∧ t.al.queue = [] ∧ t.al.share = ⟨0, 0, 1000, 0⟩
    ∧ t.cs.credits = [] ∧ t.cs.blockSize = 1000 ∧ (∀ i, (t.account i).enabled = false)
    ∧ t.tc.day = 0 ∧ t.tc.second = 0 ∧ t.tc.canopyPrice = 0
    ∧ t.hp.port = .idle ∧ t.hp.dropped = 0 ∧ t.hp.attn = false
    ∧ ∀ k, (t.notice k).count = 0 ∧ (t.notice k).masked = true

/-- No command stops the part: every command answers a next state in every state. The model's choice (log 4): a request row
that does not find its request in PROCESSING leaves the state as it is. -/
def Obligations.EveryCommandAnswersNextState : Prop :=
  (∀ (i : Instr) (s : State), ∃ t, exec i s = .next t)
    ∧ ∀ (i : Instr) (kp : Nat × List Byte) (s : State), i.requestKind = some kp →
      (∀ f, s.hp.port = .processing f → requestOf f ≠ i) → exec i s = .next s

/-! ## The host port (chapter 10) -/

/-- R168: a write transaction is taken in IDLE and dropped and counted in the two other port states. -/
def Obligations.WriteTransactionByPortState : Prop :=
  (∀ (bytes : List Byte) (s : State), bytes ≠ [] → PassSampled s → s.hp.port = .idle →
      exec (.hostWriteTransaction bytes) s =
        .next { s with hp := { s.hp with port := .processing bytes }, freeDraws := s.freeDraws + 1 })
    ∧ (∀ (bytes : List Byte) (s : State), bytes ≠ [] → PassSampled s → s.hp.port ≠ .idle →
      exec (.hostWriteTransaction bytes) s =
        .next { s with hp := { s.hp with dropped := min 255 (s.hp.dropped + 1) }, freeDraws := s.freeDraws + 1 })
    ∧ (∀ s : State, s.rdy = true ↔ ∃ r, s.hp.port = .responseWaiting r)
    ∧ State.reset.hp.port = .idle ∧ State.reset.hp.dropped = 0 ∧ State.reset.rdy = false
    ∧ ∀ s : State, ∃ t, exec .reset s = .next t ∧ t.hp.port = .idle ∧ t.hp.dropped = 0

/-- R170: a read transaction clocks out the response waiting, or the idle frame, with the dropped-request count, which it sets
to 0; past the end of the frame it clocks out bytes of 0 (R179). Its start and end are one event, and the bytes clocked out stand
in `miso`: the model's choice (log 19). -/
def Obligations.ReadTransactionClocksOneFrame : Prop :=
  (∀ (count : Nat) (r : Response) (s : State), 0 < count → PassSampled s → s.hp.port = .responseWaiting r →
      exec (.hostReadTransaction count) s =
        .next { s with
          hp := { s.hp with
            port := .idle
            dropped := 0
            miso := clockOut count
              (BitVec.ofNat 8 r.status.code :: r.kindEcho :: BitVec.ofNat 8 s.hp.dropped
                :: BitVec.ofNat 8 (r.payload.length / 256) :: BitVec.ofNat 8 r.payload.length :: r.payload) }
          freeDraws := s.freeDraws + 1 })
    ∧ (∀ (count : Nat) (s : State), 0 < count → PassSampled s → (∀ r, s.hp.port ≠ .responseWaiting r) →
      exec (.hostReadTransaction count) s =
        .next { s with
          hp := { s.hp with
            dropped := 0
            miso := clockOut count [0, 0, BitVec.ofNat 8 s.hp.dropped, 0, 0] }
          freeDraws := s.freeDraws + 1 })
    ∧ (∀ (count : Nat) (frame : List Byte), (clockOut count frame).length = count
        ∧ ∀ n, n < count → (clockOut count frame)[n]? = some (frame.getD n 0))

/-- R169: a frame of the wrong form, or of a kind that is no request, is answered BAD_REQUEST by HP; such frames and no others
are taken by BAD_REQUEST_FRAME. That the response to an unknown kind echoes the byte received is the reading of log 31. -/
def Obligations.BadRequestFrameAnswered : Prop :=
  (∀ (f : List Byte) (s : State), PassSampled s → Holds (.badRequestFrame f) f s →
      exec (.badRequestFrame f) s = .next (s.answered f .badRequest [] s))
    ∧ ∀ f : List Byte, requestOf f = .badRequestFrame f ↔
        f.length < 3 ∨ f.length ≠ 3 + (f.getD 1 0).toNat * 256 + (f.getD 2 0).toNat
          ∨ (f.getD 0 0).toNat = 0 ∨ 30 < (f.getD 0 0).toNat

/-- The frame that the host writes for a request row is read as that row, with every payload byte (Tables 10-2, 11-1). -/
def Obligations.RequestRowsRoundTrip : Prop :=
  ∀ (i : Instr) (f : List Byte), i.wellFormed = true → i.requestFrame = some f → requestOf f = i

/-! ## Site configuration (chapter 1) -/

/-- SITE LIMITS (R2): the three values clamped, the limits mark, the gate with the second mark, a pass requested; of another length
it is a read or is refused, with the settings as they stand (R1).
Of the two pass requests at the opening the order is the reading of log 9. -/
def Obligations.SiteLimitsApplied : Prop :=
  ∀ (p f : List Byte) (s : State), PassSampled s → Holds (.siteLimits p) f s →
    let c := min 20000 (arg p 0 2)
    let m := min (min 2000 (arg p 2 2)) c
    let x := min 20000 (arg p 4 2)
    (p.length ≠ 6 → exec (.siteLimits p) s = .next (s.answered f (if p.length = 0 then .ok else .badRequest)
        [u2 s.sc.importCap, u2 s.sc.margin, u2 s.sc.exportCap] s))
      ∧ (p.length = 6 → ∃ t, exec (.siteLimits p) s = .next t
        ∧ t.sc = { s.sc with
            importCap := c, margin := m, exportCap := x, limitsMark := true
            gate := if s.sc.layoutMark then .opened else s.sc.gate }
        ∧ t.hp.port = answeredPort f
            (if c = arg p 0 2 ∧ m = arg p 2 2 ∧ x = arg p 4 2 then .ok else .okClamped) [u2 c, u2 m, u2 x] s
        ∧ (s.sc.gate = .closed → s.sc.layoutMark = true → t.hp.attn = t.attnDue)
        ∧ PassRequested s t ∧ ResultsKept s t ∧ TablesKept s t)

/-- FALLBACK LOAD (R3): FOLLOW or a value of at most 20000; no pass is requested. BATTERY (R4): the four values clamped, the
floor within the capacity, a pass requested; the permit and SoE are kept. Of another length each is a read or is refused, with the
settings as they stand (R1). -/
def Obligations.FallbackLoadAndBatteryApplied : Prop :=
  (∀ (p f : List Byte) (s : State), PassSampled s → Holds (.fallbackLoad p) f s →
    (p.length ≠ 2 → exec (.fallbackLoad p) s = .next (s.answered f (if p.length = 0 then .ok else .badRequest)
        [u2 (match s.sc.fallback with | .follow => 65535 | .fixed n => n)] s))
      ∧ (p.length = 2 → arg p 0 2 = 65535 → exec (.fallbackLoad p) s =
        .next (State.answered { s with sc := { s.sc with fallback := .follow } } f .ok [u2 65535] s))
      ∧ (p.length = 2 → arg p 0 2 ≠ 65535 → exec (.fallbackLoad p) s =
        .next (State.answered { s with sc := { s.sc with fallback := .fixed (min 20000 (arg p 0 2)) } } f
          (if arg p 0 2 ≤ 20000 then .ok else .okClamped) [u2 (min 20000 (arg p 0 2))] s)))
    ∧ ∀ (p f : List Byte) (s : State), PassSampled s → Holds (.battery p) f s →
      let cap := min 1000000 (arg p 0 4)
      let floor := min (min 1000000 (arg p 4 4)) cap
      let dis := min 5000 (arg p 8 2)
      let ch := min 5000 (arg p 10 2)
      (p.length ≠ 12 → exec (.battery p) s = .next (s.answered f (if p.length = 0 then .ok else .badRequest)
          [u4 s.sc.eCap, u4 s.sc.eFloor, u2 s.sc.pDis, u2 s.sc.pCh] s))
        ∧ (p.length = 12 → ∃ t, exec (.battery p) s = .next t
          ∧ t.sc = { s.sc with eCap := cap, eFloor := floor, pDis := dis, pCh := ch }
          ∧ t.hp.port = answeredPort f
              (if cap = arg p 0 4 ∧ floor = arg p 4 4 ∧ dis = arg p 8 2 ∧ ch = arg p 10 2 then .ok else .okClamped)
              [u4 cap, u4 floor, u2 dis, u2 ch] s
          ∧ t.hp.attn = s.hp.attn ∧ PassRequested s t ∧ ResultsKept s t ∧ TablesKept s t)

/-- LAYOUT (R5, R6): refused by its length, by its mode and by a bay in use; applied, it derives every feeder field and gives the
mark. -/
def Obligations.LayoutApplied : Prop :=
  ∀ (p f : List Byte) (s : State), PassSampled s → Holds (.layout p) f s →
    let mode := arg p 0 1
    let limit := fun i : FeederId => if modeUses mode i then min 10000 (arg p (1 + 2 * i.val) 2) else 0
    let settings := [u1 s.sc.layoutMode, u2 s.sc.feederLimits[0], u2 s.sc.feederLimits[1], u2 s.sc.feederLimits[2],
      u2 s.sc.feederLimits[3]]
    (p.length ≠ 9 → exec (.layout p) s = .next (s.answered f (if p.length = 0 then .ok else .badRequest) settings s))
      ∧ (p.length = 9 → mode = 0 ∨ 4 < mode → exec (.layout p) s = .next (s.answered f .outOfRange settings s))
      ∧ (p.length = 9 → 1 ≤ mode → mode ≤ 4 → (∃ b, (s.liveSlot b).isSome = true ∨ 0 < (s.bay b).committed) →
          exec (.layout p) s = .next (s.answered f .inUse settings s))
      ∧ (p.length = 9 → 1 ≤ mode → mode ≤ 4 → (∀ b, s.liveSlot b = none ∧ (s.bay b).committed = 0) →
          ∃ t, exec (.layout p) s = .next t
            ∧ t.sc = { s.sc with
                layoutMode := mode, feederLimits := Vector.ofFn limit, layoutMark := true
                gate := if s.sc.limitsMark then .opened else s.sc.gate }
            ∧ (∀ b, t.bay b = { s.bay b with feeder := feederOf mode b })
            ∧ t.hp.port = answeredPort f
                (if ∃ i, modeUses mode i = true ∧ 10000 < arg p (1 + 2 * i.val) 2 then .okClamped else .ok)
                [u1 mode, u2 (limit 0), u2 (limit 1), u2 (limit 2), u2 (limit 3)] s
            ∧ (s.sc.gate = .closed → s.sc.limitsMark = true → PassRequested s t ∧ t.hp.attn = t.attnDue)
            ∧ (s.sc.gate = .opened ∨ s.sc.limitsMark = false → t.al = s.al ∧ t.hp.attn = s.hp.attn)
            ∧ ResultsKept s t ∧ t.flc = s.flc ∧ t.st = s.st ∧ t.cs = s.cs ∧ t.tc = s.tc
            ∧ t.hp.notices = s.hp.notices ∧ t.runTimer = s.runTimer ∧ t.pending = s.pending)

/-- TIMING (R7, R8): every number brought to its range; a loop rate outside its set refuses the whole; running deadlines and
the exchange in flight keep what they began with. Of another length it is a read or is refused (R1). -/
def Obligations.TimingApplied : Prop :=
  ∀ (p f : List Byte) (s : State), PassSampled s → Holds (.timing p) f s →
    let fields := fun n : Timing => [u2 n.tAck, u2 n.tLost, u2 n.tAuth, u2 n.tEnd, u2 n.tQuery, u1 n.loopRate.code,
      u2 n.pollGap, u1 n.acAllowance, u1 n.dcAllowance, u1 n.sourceAllowance, u1 n.missThreshold]
    (p.length ≠ 17 → exec (.timing p) s =
        .next (s.answered f (if p.length = 0 then .ok else .badRequest) (fields s.sc.timing) s))
      ∧ (p.length = 17 → 2 < arg p 10 1 → exec (.timing p) s = .next (s.answered f .outOfRange (fields s.sc.timing) s))
      ∧ ∀ rate : LoopRate, p.length = 17 → arg p 10 1 = rate.code →
        let new : Timing := {
          tAck := max 1 (min 60 (arg p 0 2)), tLost := max 10 (min 600 (arg p 2 2))
          tAuth := max 30 (min 600 (arg p 4 2)), tEnd := max 5 (min 120 (arg p 6 2))
          tQuery := max 5 (min 120 (arg p 8 2)), loopRate := rate, pollGap := min 1000 (arg p 11 2)
          acAllowance := max 2 (min 50 (arg p 13 1)), dcAllowance := max 2 (min 50 (arg p 14 1))
          sourceAllowance := max 2 (min 50 (arg p 15 1)), missThreshold := max 1 (min 15 (arg p 16 1)) }
        ∃ st, (st = .ok ∨ st = .okClamped)
          ∧ (st = .ok ↔ new.tAck = arg p 0 2 ∧ new.tLost = arg p 2 2 ∧ new.tAuth = arg p 4 2 ∧ new.tEnd = arg p 6 2
              ∧ new.tQuery = arg p 8 2 ∧ new.pollGap = arg p 11 2 ∧ new.acAllowance = arg p 13 1
              ∧ new.dcAllowance = arg p 14 1 ∧ new.sourceAllowance = arg p 15 1 ∧ new.missThreshold = arg p 16 1)
          ∧ exec (.timing p) s =
              .next (State.answered { s with sc := { s.sc with timing := new } } f st (fields new) s)

/-- LINES (R13 to R16, R103, R104, R108): of another length a read or refused; a value outside its set refuses the whole; the
settings are replaced, and both line states are evaluated again from the levels last taken. A line change of SHED, or a new scope
while it stays ACTIVE, suspends the sessions of the classes that are now shed and under AUTO resumes those of the classes that no
longer are; a line change of RSV_REQ claims or frees the reserve. Where both lines change, their order is free (log 10), and with it
the argument that LINE_CHANGE keeps and the mark `fresh` (log 32). The instant of the snapshot is the reading of log 6, and the bits
of the scope byte above bit 2 are 0 by log 49. -/
def Obligations.LinesApplied : Prop :=
  ∀ (p f : List Byte) (s : State), PassSampled s → Holds (.lines p) f s →
    let fields := [u1 (levelCode s.sc.lines.shedActive), u1 (levelCode s.sc.lines.rsvReqActive),
      u1 (levelCode s.sc.lines.rsvAckActive), u1 (scopeBits s.sc.lines.scope), u1 s.sc.lines.resumeMode.code,
      flag s.shedActive, flag s.rsvReqActive, flag s.rsvAck]
    (p.length ≠ 5 → exec (.lines p) s = .next (s.answered f (if p.length = 0 then .ok else .badRequest) fields s))
      ∧ (p.length = 5 → 1 < arg p 0 1 ∨ 1 < arg p 1 1 ∨ 1 < arg p 2 1 ∨ 7 < arg p 3 1 ∨ 1 < arg p 4 1 →
        exec (.lines p) s = .next (s.answered f .outOfRange fields s))
      ∧ (p.length = 5 → arg p 0 1 ≤ 1 → arg p 1 1 ≤ 1 → arg p 2 1 ≤ 1 → arg p 3 1 ≤ 7 → arg p 4 1 ≤ 1 →
        let level := fun n : Nat => if n = 0 then Level.high else Level.low
        let new : LineSettings := {
          shedActive := level (arg p 0 1), rsvReqActive := level (arg p 1 1), rsvAckActive := level (arg p 2 1)
          scope := ⟨(arg p 3 1).testBit 0, (arg p 3 1).testBit 1, (arg p 3 1).testBit 2⟩
          resumeMode := if arg p 4 1 = 0 then .auto else .commanded }
        let shed := decide (s.sc.shedPin.taken = new.shedActive)
        let old := s.sc.lines.scope
        let joined := fun c : SessionClass => shed && new.scope.has c && !(s.shedActive && old.has c)
        let left := fun c : SessionClass =>
          s.shedActive && (if shed then old.has c && !new.scope.has c else new.scope.has c)
        ∃ t, exec (.lines p) s = .next t
          ∧ t.sc = { s.sc with lines := new, reserve := t.sc.reserve }
          ∧ t.shedActive = shed
          ∧ (t.rsvReqActive = true ↔ s.sc.rsvReqPin.taken = new.rsvReqActive)
          ∧ t.hp.port = answeredPort f .ok
              [u1 (arg p 0 1), u1 (arg p 1 1), u1 (arg p 2 1), u1 (arg p 3 1), u1 (arg p 4 1), flag t.shedActive,
                flag t.rsvReqActive, flag t.rsvAck] s
          ∧ (t.shedActive = s.shedActive → t.rsvReqActive = s.rsvReqActive → s.shedActive = false →
              t = State.answered { s with sc := { s.sc with lines := new } } f .ok
                [u1 (arg p 0 1), u1 (arg p 1 1), u1 (arg p 2 1), u1 (arg p 3 1), u1 (arg p 4 1), flag t.shedActive,
                  flag t.rsvReqActive, flag t.rsvAck] s)
          ∧ (∀ k, t.slot k =
              if ((s.slot k).state = .waiting ∨ (s.slot k).state = .charging) ∧ joined (s.slot k).cls = true then
                { s.slot k with state := .suspended, suspendCause := some .shed, runPermit := false }
              else if (s.slot k).state = .suspended ∧ (s.slot k).suspendCause = some .shed
                  ∧ new.resumeMode = .auto ∧ left (s.slot k).cls = true then
                { s.slot k with state := .waiting, suspendCause := none, runPermit := true }
              else s.slot k)
          ∧ (t.rsvReqActive = s.rsvReqActive → t.sc.reserve = s.sc.reserve ∧ t.al.battery = s.al.battery)
          ∧ (ReserveInv s → s.rsvReqActive = false → t.rsvReqActive = true →
              t.sc.reserve = (if (s.device Role.battery.entry).declared = true
                  ∧ (s.device Role.battery.entry).link = .online then .claimed else .granted)
                ∧ t.al.battery = { s.al.battery with setpoint := 0, fresh := t.al.battery.fresh })
          ∧ (s.rsvReqActive = true → t.rsvReqActive = false → t.sc.reserve = .free ∧ t.al.battery = s.al.battery)
          ∧ (t.shedActive = s.shedActive → t.rsvReqActive = s.rsvReqActive →
              t.hp.notices = s.hp.notices ∧ t.hp.attn = s.hp.attn)
          ∧ (t.shedActive ≠ s.shedActive → t.rsvReqActive = s.rsvReqActive →
              Counted .lineChange 0 0 s t ∧ t.hp.attn = t.attnDue)
          ∧ (t.shedActive = s.shedActive → t.rsvReqActive ≠ s.rsvReqActive →
              Counted .lineChange 1 0 s t ∧ t.hp.attn = t.attnDue)
          ∧ (t.shedActive ≠ s.shedActive → t.rsvReqActive ≠ s.rsvReqActive →
              (∃ a, (a = 0 ∨ a = 1) ∧ t.notice .lineChange = { s.notice .lineChange with
                  count := min 255 ((s.notice .lineChange).count + 2), argument := a, key := 0 })
                ∧ (∀ j, j ≠ .lineChange → t.notice j = s.notice j) ∧ t.hp.attn = t.attnDue)
          ∧ (t.shedActive ≠ s.shedActive ∨ t.rsvReqActive ≠ s.rsvReqActive
              ∨ (∃ k, (t.slot k).runPermit ≠ (s.slot k).runPermit) → PassRequested s t)
          ∧ (t.shedActive = s.shedActive → t.rsvReqActive = s.rsvReqActive →
              (∀ k, (t.slot k).runPermit = (s.slot k).runPermit) → t.al = s.al)
          ∧ t.al.share = s.al.share ∧ t.al.permit = s.al.permit ∧ t.al.inverters = s.al.inverters
          ∧ t.al.storeLoad = s.al.storeLoad ∧ t.al.lastPass = s.al.lastPass
          ∧ t.al.queue.map (·.slot) = s.al.queue.map (·.slot)
          ∧ t.st.sequence = s.st.sequence ∧ t.st.arrival = s.st.arrival
          ∧ t.hp.dropped = s.hp.dropped ∧ t.hp.miso = s.hp.miso
          ∧ t.flc = s.flc ∧ t.bays = s.bays ∧ t.cs = s.cs ∧ t.tc = s.tc ∧ t.runTimer = s.runTimer
          ∧ t.pending = s.pending)

/-! ## The lines (R12, R14, R16, R103, R104) -/

/-- R12: a pin's level change begins its 20 ms again, and takes nothing. SHED taken (R12, R14, R103, R104): the onset suspends the
WAITING and CHARGING sessions of the classes in scope, the end resumes those suspended with cause SHED under AUTO and none under
COMMANDED; one LINE_CHANGE, a pass requested, whose snapshot is taken at the instant that log 6 reads. -/
def Obligations.ShedLineTaken : Prop :=
  (∀ (level : Level) (s : State), PassSampled s →
    exec (.linePinChange .shed level) s =
        .next { s with
          sc := { s.sc with shedPin :=
            if s.sc.shedPin.level = level then s.sc.shedPin
            else { s.sc.shedPin with level := level, since := s.runTimer } }
          freeDraws := s.freeDraws + 1 }
      ∧ exec (.linePinChange .rsvReq level) s =
        .next { s with
          sc := { s.sc with rsvReqPin :=
            if s.sc.rsvReqPin.level = level then s.sc.rsvReqPin
            else { s.sc.rsvReqPin with level := level, since := s.runTimer } }
          freeDraws := s.freeDraws + 1 })
    ∧ ∀ s : State, PassSampled s → s.sc.shedPin.level ≠ s.sc.shedPin.taken → s.sc.shedPin.since + 20 ≤ s.runTimer →
      ∃ t, exec (.lineQualified .shed) s = .next t
        ∧ t.sc = { s.sc with shedPin := { s.sc.shedPin with taken := s.sc.shedPin.level } }
        ∧ t.shedActive = !s.shedActive
        ∧ (∀ k, t.slot k =
            if s.shedActive = false ∧ ((s.slot k).state = .waiting ∨ (s.slot k).state = .charging)
                ∧ s.sc.lines.scope.has (s.slot k).cls = true then
              { s.slot k with state := .suspended, suspendCause := some .shed, runPermit := false }
            else if s.shedActive = true ∧ s.sc.lines.resumeMode = .auto ∧ (s.slot k).state = .suspended
                ∧ (s.slot k).suspendCause = some .shed ∧ s.sc.lines.scope.has (s.slot k).cls = true then
              { s.slot k with state := .waiting, suspendCause := none, runPermit := true }
            else s.slot k)
        ∧ Counted .lineChange 0 0 s t ∧ PassRequested s t ∧ ResultsKept s t
        ∧ t.hp.attn = t.attnDue ∧ t.hp.port = s.hp.port
        ∧ t.flc = s.flc ∧ t.bays = s.bays ∧ t.cs = s.cs ∧ t.tc = s.tc ∧ t.runTimer = s.runTimer ∧ t.pending = s.pending

/-- RSV_REQ taken (R12, R16, R89): the claim, granted at once without a battery to wait for, and the release.
The mark `fresh` is the model's (log 32). -/
def Obligations.ReserveLineTaken : Prop :=
  ∀ s : State, PassSampled s → ReserveInv s → s.sc.rsvReqPin.level ≠ s.sc.rsvReqPin.taken →
    s.sc.rsvReqPin.since + 20 ≤ s.runTimer →
    ∃ t, exec (.lineQualified .rsvReq) s = .next t
      ∧ t.rsvReqActive = !s.rsvReqActive
      ∧ t.sc = { s.sc with
          rsvReqPin := { s.sc.rsvReqPin with taken := s.sc.rsvReqPin.level }
          reserve :=
            if s.rsvReqActive then .free
            else if (s.device Role.battery.entry).declared = true ∧ (s.device Role.battery.entry).link = .online then .claimed
            else .granted }
      ∧ t.al.battery = (if s.rsvReqActive then s.al.battery
          else { s.al.battery with setpoint := 0, fresh := s.al.battery.fresh || s.al.passState == .running })
      ∧ Counted .lineChange 1 0 s t ∧ PassRequested s t ∧ t.hp.attn = t.attnDue ∧ t.hp.port = s.hp.port
      ∧ t.al.share = s.al.share ∧ t.al.inverters = s.al.inverters ∧ t.al.lastPass = s.al.lastPass
      ∧ t.flc = s.flc ∧ t.bays = s.bays ∧ t.st = s.st ∧ t.cs = s.cs ∧ t.tc = s.tc
      ∧ t.runTimer = s.runTimer ∧ t.pending = s.pending

/-! ## Declarations (chapter 2) -/

/-- DECLARE BAY (R19): refused by its length, its address, its kind or its meter width, and in use; otherwise the bay record and
the device entry take the declaration. REMOVE BAY (R20): the bay record and the device entry return to their reset values, an
exchange in flight with the device is marked, and the session table keeps its receipts; of a bay not declared it changes nothing.
The start of the cycle and the mark of an exchange are the model's (logs 22 and 23), as are the entry that a refusal by kind or
width carries and the payload of the others (log 15), and the codes of kind, link, miss and identity (log 14). -/
def Obligations.BaysDeclaredAndRemoved : Prop :=
  (∀ (p f : List Byte) (b : BayId) (kind : BayKind) (s : State), PassSampled s → Holds (.declareBay p) f s →
    p.length = 5 → arg p 0 1 = b.val → arg p 1 1 = kind.code →
    (arg p 4 1 = 16 ∨ arg p 4 1 = 20 ∨ arg p 4 1 = 24 ∨ arg p 4 1 = 32) →
    let maximum := max kind.minSteps (min kind.maxBound (arg p 2 2))
    let entry : Entry := ⟨b.val, by omega⟩
    ((s.liveSlot b).isSome = true ∨ 0 < (s.bay b).committed →
        exec (.declareBay p) s = .next (s.answered f .inUse (bayDeclarationFields s b) s))
      ∧ (s.liveSlot b = none → (s.bay b).committed = 0 →
        ∃ t, exec (.declareBay p) s = .next t
          ∧ t.bay b = { s.bay b with
              declared := true, kind := kind, maxSteps := maximum, minSteps := kind.minSteps, meterWidth := arg p 4 1
              feeder := feederOf s.sc.layoutMode b, identity := .unchecked, scan := .empty }
          ∧ t.device entry = { s.device entry with declared := true, kind := kind.device, declaredMax := maximum }
          ∧ (∀ c, c ≠ b → t.bay c = s.bay c) ∧ (∀ e, e ≠ entry → t.device e = s.device e)
          ∧ ((∀ e, (s.device e).declared = false) → t.flc.start = some entry ∧ t.flc.gapFrom = s.runTimer)
          ∧ ((∃ e, (s.device e).declared = true) → t.flc.start = s.flc.start ∧ t.flc.gapFrom = s.flc.gapFrom)
          ∧ t.flc.position = s.flc.position ∧ t.flc.exchange = s.flc.exchange
          ∧ t.hp = { s.hp with
              port := answeredPort f (if maximum = arg p 2 2 then .ok else .okClamped) (bayDeclarationFields t b) s }
          ∧ t.sc = s.sc ∧ t.st = s.st ∧ t.al = s.al ∧ t.cs = s.cs ∧ t.tc = s.tc ∧ t.runTimer = s.runTimer
          ∧ t.pending = s.pending))
    ∧ (∀ (p f : List Byte) (s : State), PassSampled s → Holds (.declareBay p) f s →
      (p.length ≠ 5 → exec (.declareBay p) s = .next (s.answered f .badRequest [] s))
        ∧ (p.length = 5 → 47 < arg p 0 1 → exec (.declareBay p) s = .next (s.answered f .outOfRange [] s))
        ∧ ∀ b : BayId, p.length = 5 → arg p 0 1 = b.val →
          3 < arg p 1 1 ∨ (arg p 1 1 < 3 ∧ arg p 4 1 ≠ 16 ∧ arg p 4 1 ≠ 20 ∧ arg p 4 1 ≠ 24 ∧ arg p 4 1 ≠ 32) →
          exec (.declareBay p) s = .next (s.answered f .outOfRange (bayDeclarationFields s b) s))
    ∧ (∀ (p f : List Byte) (s : State), PassSampled s → Holds (.removeBay p) f s → p.length = 5 → 47 < arg p 0 1 →
      exec (.removeBay p) s = .next (s.answered f .outOfRange [] s))
    ∧ ∀ (p f : List Byte) (b : BayId) (s : State), PassSampled s → Holds (.removeBay p) f s → p.length = 5 →
      arg p 0 1 = b.val → arg p 1 1 = 3 →
      let entry : Entry := ⟨b.val, by omega⟩
      ((s.liveSlot b).isSome = true ∨ 0 < (s.bay b).committed →
          exec (.removeBay p) s = .next (s.answered f .inUse (bayDeclarationFields s b) s))
        ∧ (s.liveSlot b = none → (s.bay b).committed = 0 → (s.device entry).declared = false →
          exec (.removeBay p) s = .next (s.answered f .ok (bayDeclarationFields s b) s))
        ∧ (s.liveSlot b = none → (s.bay b).committed = 0 → (s.device entry).declared = true →
          ∃ t, exec (.removeBay p) s = .next t
            ∧ t.bay b = { feeder := feederOf s.sc.layoutMode b }
            ∧ t.device entry = { kind := .ac1 }
            ∧ (∀ c, c ≠ b → t.bay c = s.bay c) ∧ (∀ e, e ≠ entry → t.device e = s.device e)
            ∧ t.flc.exchange = s.flc.exchange.markRemoved entry ∧ t.flc.position = s.flc.position
            ∧ t.hp = { s.hp with port := answeredPort f .ok (bayDeclarationFields t b) s }
            ∧ t.sc = s.sc ∧ t.st = s.st ∧ t.al = s.al ∧ t.cs = s.cs ∧ t.tc = s.tc ∧ t.runTimer = s.runTimer
            ∧ t.pending = s.pending)

/-- DECLARE SOURCE (R21): refused by its length, its address or its mark; the address alone is a read; a canopy inverter is
declared with its rating, the battery inverter and the store meter without; a pass is requested. REMOVE SOURCE (R21, R17): the
device entry and the source record return to their reset values, a pass is requested, and the removal of the battery grants a
CLAIMED reserve; of a source not declared it changes nothing. A removal ignores the rating it carries (log 42) and keeps the mark
`fresh` of the battery record (log 32); a read of no source is OUT_OF_RANGE (log 17); the reset rating and limit 0, and the mark
of an exchange, are the model's (logs 21 and 22), and the codes of kind, link and miss are those of log 14. -/
def Obligations.SourcesDeclaredAndRemoved : Prop :=
  (∀ (p f : List Byte) (s : State), PassSampled s → Holds (.declareSource p) f s → p.length = 4 → arg p 1 1 = 0 →
    (∀ k : InverterId, arg p 0 1 = 48 + k.val →
        let rating := max 1 (min 2000 (arg p 2 2))
        let entry : Entry := ⟨48 + k.val, by omega⟩
        ∃ t, exec (.declareSource p) s = .next t
          ∧ t.device entry = (if (s.device entry).declared then s.device entry else { kind := .canopy, declared := true })
          ∧ (∀ e, e ≠ entry → t.device e = s.device e)
          ∧ (t.inverter k).rating = rating
          ∧ ((s.device entry).declared = true → (s.inverter k).rating = rating → t.inverter k = s.inverter k)
          ∧ ((s.device entry).declared = false ∨ (s.inverter k).rating ≠ rating →
              (t.inverter k).limit = rating
                ∧ (t.inverter k).lastPower =
                  if (s.device entry).declared then min (s.inverter k).lastPower rating else 0)
          ∧ (∀ j, j ≠ k → t.inverter j = s.inverter j)
          ∧ t.hp.port = answeredPort f (if rating = arg p 2 2 then .ok else .okClamped)
              (deviceFields (t.device entry) ++ [u2 rating, u2 (t.inverter k).lastPower, u2 (t.inverter k).limit]) s
          ∧ PassRequested s t ∧ t.al.battery = s.al.battery ∧ t.al.storeLoad = s.al.storeLoad
          ∧ t.al.share = s.al.share ∧ t.al.lastPass = s.al.lastPass
          ∧ t.sc = s.sc ∧ t.bays = s.bays ∧ t.st = s.st ∧ t.cs = s.cs ∧ t.tc = s.tc ∧ t.hp.notices = s.hp.notices)
      ∧ (arg p 0 1 = 56 →
        ∃ t, exec (.declareSource p) s = .next t
          ∧ t.device 54 = (if (s.device 54).declared then s.device 54 else { kind := .battery, declared := true })
          ∧ (∀ e, e ≠ 54 → t.device e = s.device e)
          ∧ ((s.device 54).declared = false →
              t.al.battery.setpoint = 0 ∧ t.al.battery.soe = 0 ∧ t.al.battery.applied = 0)
          ∧ ((s.device 54).declared = true → t.al.battery = s.al.battery)
          ∧ t.hp.port = answeredPort f .ok
              (deviceFields (t.device 54)
                ++ [u4 t.al.battery.soe, signedField 2 t.al.battery.applied, signedField 2 t.al.battery.setpoint]) s
          ∧ PassRequested s t ∧ t.al.inverters = s.al.inverters ∧ t.al.storeLoad = s.al.storeLoad
          ∧ t.sc = s.sc ∧ t.bays = s.bays ∧ t.st = s.st ∧ t.cs = s.cs ∧ t.tc = s.tc ∧ t.hp.notices = s.hp.notices)
      ∧ (arg p 0 1 = 60 →
        ∃ t, exec (.declareSource p) s = .next t
          ∧ t.device 55 = (if (s.device 55).declared then s.device 55 else { kind := .meter, declared := true })
          ∧ (∀ e, e ≠ 55 → t.device e = s.device e)
          ∧ t.al.storeLoad = (if (s.device 55).declared then s.al.storeLoad else 0)
          ∧ t.hp.port = answeredPort f .ok (deviceFields (t.device 55) ++ [u2 t.al.storeLoad]) s
          ∧ PassRequested s t ∧ t.al.battery = s.al.battery ∧ t.al.inverters = s.al.inverters
          ∧ t.al.share = s.al.share ∧ t.al.lastPass = s.al.lastPass
          ∧ t.sc = s.sc ∧ t.bays = s.bays ∧ t.st = s.st ∧ t.cs = s.cs ∧ t.tc = s.tc ∧ t.hp.notices = s.hp.notices))
    ∧ (∀ (p f : List Byte) (r : Role) (s : State), PassSampled s → Holds (.declareSource p) f s → p.length = 1 →
      sourceAt (arg p 0 1) = some r → exec (.declareSource p) s = .next (s.answered f .ok (sourceReplyFields s r) s))
    ∧ (∀ (p f : List Byte) (s : State), PassSampled s → Holds (.declareSource p) f s →
      (p.length ≠ 1 → p.length ≠ 4 → exec (.declareSource p) s = .next (s.answered f .badRequest [] s))
        ∧ (p.length = 1 ∨ p.length = 4 → sourceAt (arg p 0 1) = none →
          exec (.declareSource p) s = .next (s.answered f .outOfRange [] s))
        ∧ (p.length = 4 → 1 < arg p 1 1 → exec (.declareSource p) s = .next (s.answered f .outOfRange [] s)))
    ∧ (∀ a : Nat, (sourceAt a = none ↔ (a < 48 ∨ 53 < a) ∧ a ≠ 56 ∧ a ≠ 60)
      ∧ (∀ k : InverterId, sourceAt a = some (.canopy k) ↔ a = 48 + k.val)
      ∧ (sourceAt a = some .battery ↔ a = 56) ∧ (sourceAt a = some .meter ↔ a = 60) ∧ ∀ b, sourceAt a ≠ some (.bay b))
    ∧ (∀ (p f : List Byte) (s : State), PassSampled s → Holds (.removeSource p) f s → p.length = 4 →
      sourceAt (arg p 0 1) = none → exec (.removeSource p) s = .next (s.answered f .outOfRange [] s))
    ∧ (∀ (p f : List Byte) (r : Role) (s : State), PassSampled s → Holds (.removeSource p) f s → p.length = 4 →
      arg p 1 1 = 1 → sourceAt (arg p 0 1) = some r → (s.device r.entry).declared = false →
      exec (.removeSource p) s = .next (s.answered f .ok (sourceReplyFields s r) s))
    ∧ ∀ (p f : List Byte) (r : Role) (s : State), PassSampled s → Holds (.removeSource p) f s → p.length = 4 →
      arg p 1 1 = 1 → sourceAt (arg p 0 1) = some r → (s.device r.entry).declared = true →
      ∃ t, exec (.removeSource p) s = .next t
        ∧ t.device r.entry = { kind := resetKind r.entry } ∧ (∀ e, e ≠ r.entry → t.device e = s.device e)
        ∧ t.flc.exchange = s.flc.exchange.markRemoved r.entry
        ∧ (∀ k, r = .canopy k → t.inverter k = {} ∧ ∀ j, j ≠ k → t.inverter j = s.inverter j)
        ∧ (r = .battery → t.al.battery = { fresh := s.al.battery.fresh }
            ∧ t.sc.reserve = (if s.sc.reserve = .claimed then .granted else s.sc.reserve))
        ∧ (r = .meter → t.al.storeLoad = 0)
        ∧ (r ≠ .battery → t.al.battery = s.al.battery ∧ t.sc = s.sc) ∧ (r ≠ .meter → t.al.storeLoad = s.al.storeLoad)
        ∧ (r = .battery ∨ r = .meter → t.al.inverters = s.al.inverters)
        ∧ PassRequested s t ∧ t.al.share = s.al.share ∧ t.al.lastPass = s.al.lastPass
        ∧ t.bays = s.bays ∧ t.st = s.st ∧ t.cs = s.cs ∧ t.tc = s.tc ∧ t.hp.notices = s.hp.notices
        ∧ t.hp.port = answeredPort f .ok (sourceReplyFields t r) s

/-! ## Clock and tariff (chapter 8) -/

/-- CLOCK (R151): the day and time are set, and a day above the day in force makes one rollover with the new day.
The midnight advance (R149, R150, R122, R138): the time of day returns to 0, the day rises to at most 65535, and CS takes one
rollover with the new day; no other block is reached. The refusals' empty payloads and the count of ms are the readings of logs 16
and 39. -/
def Obligations.ClockWritten : Prop :=
  (∀ (p f : List Byte) (s : State), PassSampled s → Holds (.clock p) f s →
    (p.length = 0 → exec (.clock p) s = .next (s.answered f .ok [u2 s.tc.day, u4 s.tc.second] s))
      ∧ (p.length ≠ 0 → p.length ≠ 6 → exec (.clock p) s = .next (s.answered f .badRequest [] s))
      ∧ (p.length = 6 → 86399 < arg p 2 4 → exec (.clock p) s = .next (s.answered f .outOfRange [] s))
      ∧ (p.length = 6 → arg p 2 4 ≤ 86399 →
        exec (.clock p) s = .next (State.answered
          { s with
            tc := { s.tc with day := arg p 0 2, second := arg p 2 4, millis := 0 }
            cs := if s.tc.day < arg p 0 2 then
                { s.cs with
                  credits := creditsAfter (arg p 0 2) s.cs.credits
                  accounts := accountsAfter s.cs.accounts }
              else s.cs }
          f .ok [u2 (arg p 0 2), u4 (arg p 2 4)] s)))
    ∧ ∀ s : State, PassSampled s → s.tc.second = 86399 → 1000 ≤ s.tc.millis →
      exec .dayRollover s = .next { s with
        tc := { s.tc with day := min 65535 (s.tc.day + 1), second := 0, millis := s.tc.millis - 1000 }
        cs := { s.cs with
          credits := creditsAfter (min 65535 (s.tc.day + 1)) s.cs.credits
          accounts := accountsAfter s.cs.accounts }
        freeDraws := s.freeDraws + 1 }

/-- R152: TARIFF, read, refused by its length or by any value outside its range, or applied whole, an unused band with price 0.
The refusals' empty payloads are the reading of log 16. -/
def Obligations.TariffWritten : Prop :=
  ∀ (p f : List Byte) (s : State), PassSampled s → Holds (.tariff p) f s →
    let start := fun n : BandId => arg p (4 * n.val) 2
    let price := fun n : BandId => arg p (4 * n.val + 2) 2
    let band := fun (t : TariffClock) (n : BandId) =>
      [u2 (match (t.bands[n.val]).start with | some m => m | none => 65535), u2 (t.bands[n.val]).price]
    let fields := fun t : TariffClock => band t 0 ++ band t 1 ++ band t 2 ++ band t 3
      ++ [u2 t.canopyPrice, u1 (match t.bandNow with | some n => n.val | none => 255), u2 t.bandPrice]
    (p.length = 0 → exec (.tariff p) s = .next (s.answered f .ok (fields s.tc) s))
      ∧ (p.length ≠ 0 → p.length ≠ 18 → exec (.tariff p) s = .next (s.answered f .badRequest [] s))
      ∧ (p.length = 18 → (∃ n, start n ≠ 65535 ∧ (1439 < start n ∨ 9999 < price n)) ∨ 9999 < arg p 16 2 →
        exec (.tariff p) s = .next (s.answered f .outOfRange [] s))
      ∧ (p.length = 18 → (∀ n, start n = 65535 ∨ (start n ≤ 1439 ∧ price n ≤ 9999)) → arg p 16 2 ≤ 9999 →
        let new : TariffClock := { s.tc with
          bands := Vector.ofFn fun n => if start n = 65535 then ⟨none, 0⟩ else ⟨some (start n), price n⟩
          canopyPrice := arg p 16 2 }
        exec (.tariff p) s = .next (State.answered { s with tc := new } f .ok (fields new) s))

/-- R153: the band in force at a minute, and the band price. -/
def Obligations.BandInForce : Prop :=
  ∀ (t : TariffClock) (minute : Nat),
    (t.bandAt minute = none ↔ ∀ n : BandId, (t.bands[n.val]).start = none)
      ∧ (∀ n : BandId, t.bandAt minute = some n → ∃ m, (t.bands[n.val]).start = some m
          ∧ ((∃ (j : BandId) (i : Nat), (t.bands[j.val]).start = some i ∧ i ≤ minute) →
              m ≤ minute ∧ ∀ (j : BandId) (i : Nat), (t.bands[j.val]).start = some i → i ≤ minute → i < m ∨ (i = m ∧ n ≤ j))
          ∧ ((∀ (j : BandId) (i : Nat), (t.bands[j.val]).start = some i → minute < i) →
              ∀ (j : BandId) (i : Nat), (t.bands[j.val]).start = some i → i < m ∨ (i = m ∧ n ≤ j)))
      ∧ (t.bandNow = none → t.bandPrice = 0)
      ∧ (∀ n : BandId, t.bandNow = some n → t.bandPrice = (t.bands[n.val]).price)
      ∧ t.bandNow = t.bandAt (t.second / 60)

/-- BLOCK SIZE (R132); the draw (R133), which opens a block of the size in force at most; a source found without energy (R135),
which is released, counted for an account, and ends a queued session that has no other payment; and the release of a source (R123,
R128, R137), whose whole Wh of the open block go back to it. The refusals' empty payloads are the reading of log 16, and a session
that is to end at an OFFLINE bay is settled by that of log 30. -/
def Obligations.BlocksDrawnAndReleased : Prop :=
  State.reset.cs.blockSize = 1000
    ∧ (∀ (p f : List Byte) (s : State), PassSampled s → Holds (.blockSize p) f s →
      (p.length = 0 → exec (.blockSize p) s = .next (s.answered f .ok [u2 s.cs.blockSize] s))
        ∧ (p.length ≠ 0 → p.length ≠ 2 → exec (.blockSize p) s = .next (s.answered f .badRequest [] s))
        ∧ (p.length = 2 → arg p 0 2 < 100 ∨ 5000 < arg p 0 2 →
          exec (.blockSize p) s = .next (s.answered f .outOfRange [] s))
        ∧ (p.length = 2 → 100 ≤ arg p 0 2 → arg p 0 2 ≤ 5000 →
          exec (.blockSize p) s = .next (State.answered { s with cs := { s.cs with blockSize := arg p 0 2 } } f .ok
            [u2 (arg p 0 2)] s)))
    ∧ (∀ (k : SlotId) (s : State), CreditInv s →
      (∀ c ∈ s.cs.credits, (s.slot k).source = some (.credit c.key) → 0 < c.remainingWh →
          let w := min s.cs.blockSize c.remainingWh
          draw k s = { s with
            cs := { s.cs with
              credits := s.cs.credits.map fun x =>
                if x.key = c.key then { x with remainingWh := x.remainingWh - w } else x }
            st := (s.setSlot k { s.slot k with blockLeft := w * 1000, finalBlock := decide (c.remainingWh = w) }).st })
        ∧ ∀ i, (s.slot k).source = some (.account i) → (s.account i).enabled = true → 0 < (s.account i).remainingWh →
          let a := s.account i
          let w := min s.cs.blockSize a.remainingWh
          draw k s = (s.setAccount i { a with remainingWh := a.remainingWh - w }).setSlot k
            { s.slot k with blockLeft := w * 1000, finalBlock := decide (a.remainingWh = w) })
    ∧ (∀ (k : SlotId) (s : State), CreditInv s →
      let x := s.slot k
      let ends := fun u : State =>
        (x.payment = .unpaid → x.state.queued = true →
            (s.bayOnline x.bay = true → EndingEntered k x.bay .creditExhausted u (draw k s))
              ∧ (s.bayOnline x.bay = false → EndingLost k x.bay u (draw k s)))
          ∧ (x.payment ≠ .unpaid ∨ x.state.queued = false → draw k s = u)
      (x.source = none → draw k s = s)
        ∧ (∀ c ∈ s.cs.credits, x.source = some (.credit c.key) → c.remainingWh = 0 → ends (releaseSource k s))
        ∧ ∀ i, x.source = some (.account i) → (s.account i).enabled = false ∨ (s.account i).remainingWh = 0 →
          ∃ u, Counted .accountExhausted i.val 0 (releaseSource k s) u ∧ u.hp.attn = u.attnDue ∧ u.hp.port = s.hp.port
            ∧ u.st = (releaseSource k s).st ∧ u.cs = (releaseSource k s).cs ∧ u.bays = s.bays ∧ u.al = s.al ∧ ends u)
    ∧ ∀ (k : SlotId) (s : State), CreditInv s →
      let x := s.slot k
      let r := x.blockLeft / 1000
      let released := { x with source := none, blockLeft := 0, finalBlock := false }
      (∀ c ∈ s.cs.credits, x.source = some (.credit c.key) →
          (0 < c.remainingWh + r → c.voided = false → c.expired = false →
              releaseSource k s = (s.setSlot k released).setCredits (s.cs.credits.map fun z =>
                if z.key = c.key then { z with state := .issued, remainingWh := c.remainingWh + r, holder := none } else z))
            ∧ (c.remainingWh + r = 0 ∨ c.voided = true ∨ c.expired = true →
              releaseSource k s = (s.setSlot k released).setCredits (s.cs.credits.filter fun z => z.key != c.key)))
        ∧ (∀ i, x.source = some (.account i) → x.accountIndex = some i →
          let a := s.account i
          let back := min a.allowanceWh (a.remainingWh + r)
          (x.accountHold = true → releaseSource k s =
              (s.setSlot k { released with accountHold := false }).setAccount i
                { a with remainingWh := back, holders := a.holders - 1 })
            ∧ (x.accountHold = false → releaseSource k s = (s.setSlot k released).setAccount i { a with remainingWh := back }))
        ∧ (x.source ≠ none → releaseHoldings k s = releaseSource k s)
        ∧ (x.source = none → x.accountHold = false → releaseHoldings k s = s)
        ∧ ∀ i, x.source = none → x.accountHold = true → x.accountIndex = some i →
          releaseHoldings k s = (s.setSlot k { x with accountHold := false }).setAccount i
            { s.account i with holders := (s.account i).holders - 1 }

/-! ## Credits and accounts (chapters 6 and 7) -/

/-- R111: the checks of ISSUE CREDIT in their order, and what each refusal leaves. -/
def Obligations.IssueCreditRefused : Prop :=
  ∀ (p f : List Byte) (s : State), PassSampled s → Holds (.issueCredit p) f s →
    let bad := arg p 0 4 = 0 ∨ arg p 4 2 = 0 ∨ 60000 < arg p 4 2 ∨ 30 < arg p 6 1 ∨ arg p 8 1 = 0 ∨ 63 < arg p 8 1
      ∨ ((arg p 7 1).testBit 1 = true ∧ 47 < arg p 9 1)
    (p.length ≠ 10 → exec (.issueCredit p) s = .next (s.answered f .badRequest [] s))
      ∧ (p.length = 10 → bad → exec (.issueCredit p) s = .next (s.answered f .outOfRange [] s))
      ∧ (p.length = 10 → ¬bad → (∃ c ∈ s.cs.credits, c.key = arg p 0 4) →
          exec (.issueCredit p) s = .next (s.answered f .duplicate [] s))
      ∧ (p.length = 10 → ¬bad → (∀ c ∈ s.cs.credits, c.key ≠ arg p 0 4) → 256 ≤ s.cs.credits.length →
        ∃ t, exec (.issueCredit p) s = .next t
          ∧ t.hp.port = answeredPort f .tableFull [] s ∧ Counted .tableFullCredit (arg p 8 1) 0 s t
          ∧ t.hp.attn = t.attnDue ∧ t.hp.dropped = s.hp.dropped
          ∧ t.sc = s.sc ∧ t.flc = s.flc ∧ t.bays = s.bays ∧ t.st = s.st ∧ t.al = s.al ∧ t.cs = s.cs ∧ t.tc = s.tc
          ∧ t.runTimer = s.runTimer ∧ t.pending = s.pending)

/-- R112: an accepted ISSUE CREDIT creates an ISSUED record; where it names a bay whose scan slot is PENDING with the key, and
which has a session in a live state, the record is attached to that session at once (R114), its first block drawn (R133), the scan
slot emptied and CREDIT_OK shown, and a session in OPENING is authorised (R51, Table 6-5): its arrival number, its place in the
queue, its state by the shed, a pass. The codes of the response are those of log 14, the presence bits that no field has are 0 by
log 47, and the instant of the snapshot is the reading of log 6. -/
def Obligations.IssueCreditAccepted : Prop :=
  ∀ (p f : List Byte) (s : State), PassSampled s → Holds (.issueCredit p) f s → p.length = 10 →
    arg p 0 4 ≠ 0 → 1 ≤ arg p 4 2 → arg p 4 2 ≤ 60000 → arg p 6 1 ≤ 30 → 1 ≤ arg p 8 1 → arg p 8 1 ≤ 63 →
    ((arg p 7 1).testBit 1 = true → arg p 9 1 ≤ 47) →
    (∀ c ∈ s.cs.credits, c.key ≠ arg p 0 4) → s.cs.credits.length < 256 →
    let key := arg p 0 4
    let wh := arg p 4 2
    let solar := (arg p 7 1).testBit 0
    let day := s.tc.day + arg p 6 1
    let till := arg p 8 1
    let new : Credit := ⟨key, .issued, wh, wh, solar, day, till, none, false, false⟩
    (((arg p 7 1).testBit 1 = false
        ∨ ∃ b : BayId, arg p 9 1 = b.val ∧ (s.liveSlot b = none ∨ ∀ n d, (s.bay b).scan ≠ .pending key n d)) →
        ∃ t, exec (.issueCredit p) s = .next t
          ∧ (∀ c, c ∈ t.cs.credits ↔ c = new ∨ c ∈ s.cs.credits)
          ∧ t = State.answered { s with cs := { s.cs with credits := t.cs.credits } } f .ok
              [u1 0, u4 key, u1 0, u2 wh, u2 wh, flag solar, u2 day, u1 till, u1 0, u1 0, u1 0, u2 0, u1 0, u8 0, u1 0] s)
      ∧ (∀ (b : BayId) (k : SlotId) (n d : Nat), (arg p 7 1).testBit 1 = true → arg p 9 1 = b.val →
          (s.bay b).scan = .pending key n d → s.liveSlot b = some k →
          let x := s.slot k
          let block := min s.cs.blockSize wh
          let held := { x with
            source := some (.credit key), lastCreditKey := some key, blockLeft := block * 1000
            finalBlock := decide (wh ≤ block) }
          ∃ t, exec (.issueCredit p) s = .next t
            ∧ lookupCredit key t = some { new with state := .held, holder := some k, remainingWh := wh - block }
            ∧ (∀ c, c.key ≠ key → (c ∈ t.cs.credits ↔ c ∈ s.cs.credits))
            ∧ t.cs = { s.cs with credits := t.cs.credits }
            ∧ t.bay b = { s.bay b with scan := .empty, message := some ⟨.creditOk, 3, false⟩ }
            ∧ t.hp = { s.hp with
                port := answeredPort f .ok
                  [u1 1, u4 key, u1 1, u2 wh, u2 (wh - block), flag solar, u2 day, u1 till, u1 k.val, u1 0, u1 0,
                    u2 x.sequence, u1 x.bay.val, u8 (block * 1000), flag (decide (wh ≤ block))] s }
            ∧ (x.state ≠ .opening → t.slot k = held ∧ t.al = s.al ∧ OnlyAt k b s t)
            ∧ (x.state = .opening →
              let shed := s.shedActive = true ∧ s.sc.lines.scope.has x.cls = true
              let joined := { held with authDeadline := none, arrival := s.st.arrival }
              let member : Member := ⟨k, x.cls, s.st.arrival, 0⟩
              let place := fun m : Member => (m.slot, m.cls, m.arrival)
              (shed → t.slot k = { joined with state := .suspended, suspendCause := some .shed, runPermit := false })
                ∧ (¬shed → t.slot k = { joined with state := .waiting, runPermit := true })
                ∧ t.st.arrival = (s.st.arrival + 1) % 4294967296 ∧ t.st.sequence = s.st.sequence
                ∧ (∃ before behind, s.al.queue = before ++ behind
                    ∧ t.al.queue.map place = (before ++ member :: behind).map place
                    ∧ (∀ m ∈ before, member.before m = false) ∧ ∀ m, behind.head? = some m → member.before m = true)
                ∧ PassRequested s t ∧ ResultsKept s t
                ∧ (∀ j, j ≠ k → t.slot j = s.slot j) ∧ (∀ c, c ≠ b → t.bay c = s.bay c)
                ∧ t.sc = s.sc ∧ t.flc = s.flc ∧ t.tc = s.tc ∧ t.runTimer = s.runTimer ∧ t.pending = s.pending))

/-- R117: DECLINE. -/
def Obligations.QueryDeclined : Prop :=
  ∀ (p f : List Byte) (s : State), PassSampled s → Holds (.decline p) f s →
    (p.length ≠ 5 → exec (.decline p) s = .next (s.answered f .badRequest [] s))
      ∧ (p.length = 5 → 47 < arg p 0 1 → exec (.decline p) s = .next (s.answered f .outOfRange [] s))
      ∧ ∀ b : BayId, p.length = 5 → arg p 0 1 = b.val →
        ((∃ n d, (s.bay b).scan = .pending (arg p 1 4) n d) →
            exec (.decline p) s = .next (State.answered
              (s.setBay b { s.bay b with scan := .empty, message := some ⟨.creditNotValid, 3, false⟩ }) f .ok [] s))
          ∧ ((∀ n d, (s.bay b).scan ≠ .pending (arg p 1 4) n d) →
            exec (.decline p) s = .next (s.answered f .notFound [] s))

/-- VOID CREDIT (R121): refused by its length and its key; an ISSUED record is retired, a HELD one voided once. A retired record is
sent with the fields it had (log 13); the codes of the response are those of log 14, and the presence bits that no field has are 0
by log 47. -/
def Obligations.CreditVoided : Prop :=
  ∀ (p f : List Byte) (s : State), PassSampled s → CreditInv s → Holds (.voidCredit p) f s →
    (p.length ≠ 4 → exec (.voidCredit p) s = .next (s.answered f .badRequest [] s))
      ∧ (p.length = 4 → arg p 0 4 = 0 → exec (.voidCredit p) s = .next (s.answered f .outOfRange [] s))
      ∧ (p.length = 4 → arg p 0 4 ≠ 0 → (∀ c ∈ s.cs.credits, c.key ≠ arg p 0 4) →
          exec (.voidCredit p) s = .next (s.answered f .notFound [] s))
      ∧ ∀ c ∈ s.cs.credits, p.length = 4 → c.key = arg p 0 4 →
        (c.state = .issued → exec (.voidCredit p) s = .next (State.answered
            { s with cs := { s.cs with credits := s.cs.credits.filter fun x => x.key != arg p 0 4 } } f .ok
            (creditFields s c) s))
          ∧ (c.state = .held → c.voided = false → exec (.voidCredit p) s = .next (State.answered
              { s with cs := { s.cs with
                credits := s.cs.credits.map fun x =>
                  if x.key = arg p 0 4 then { x with remainingWh := 0, voided := true } else x } }
              f .ok (creditFields s { c with remainingWh := 0, voided := true }) s))
          ∧ (c.state = .held → c.voided = true →
              exec (.voidCredit p) s = .next (s.answered f .ok (creditFields s c) s))

/-- The reads are refused by their length and their index, change nothing and are answered by the records as they stand, with
payloads of the lengths that the layouts give (R124, R125, R131, R172 to R174, R176, section 11.1). The codes are those of log 14,
the time left to a passed deadline is the reading of log 28, and the bits that no table names are 0 by logs 47 and 49. -/
def Obligations.ReadsChangeNothing : Prop :=
  (∀ (p f : List Byte) (s : State), PassSampled s →
    (Holds (.readSite p) f s → p.length = 0 → exec (.readSite p) s = .next (s.answered f .ok (readSiteFields s) s))
      ∧ (Holds (.readNotices p) f s → p.length = 0 →
          exec (.readNotices p) s = .next (s.answered f .ok (readNoticesFields s) s))
      ∧ (Holds (.listSessions p) f s → p.length = 0 →
          exec (.listSessions p) s = .next (s.answered f .ok (listSessionsFields s) s))
      ∧ (∀ k : SlotId, Holds (.readSession p) f s → p.length = 1 → arg p 0 1 = k.val →
          exec (.readSession p) s = .next (s.answered f .ok (readSessionFields s k) s))
      ∧ (∀ b : BayId, Holds (.readBay p) f s → p.length = 1 → arg p 0 1 = b.val →
          exec (.readBay p) s = .next (s.answered f .ok (bayFields s b) s))
      ∧ (∀ i : AccountId, Holds (.readAccount p) f s → p.length = 1 → arg p 0 1 = i.val →
          exec (.readAccount p) s = .next (s.answered f .ok
            (indexedAccountFields s i ++ u1 (s.holdersOf i).length :: (s.holdersOf i).flatMap (holdFields s i)) s))
      ∧ (∀ c, Holds (.queryCredit p) f s → p.length = 4 → lookupCredit (arg p 0 4) s = some c →
          exec (.queryCredit p) s = .next (s.answered f .ok (creditFields s c) s))
      ∧ (Holds (.queryCredit p) f s → p.length = 4 → lookupCredit (arg p 0 4) s = none →
          exec (.queryCredit p) s = .next (s.answered f .notFound
            (u1 (s.baysPending (arg p 0 4)).length :: (s.baysPending (arg p 0 4)).map fun b => u1 b.val) s))
      ∧ (Holds (.queryPendingList p) f s →
          exec (.queryPendingList p) s = .next (s.answered f .ok (pendingListFields s) s)))
    ∧ (∀ (p f : List Byte) (s : State), PassSampled s →
      (Holds (.readSite p) f s → p.length ≠ 0 → exec (.readSite p) s = .next (s.answered f .badRequest [] s))
        ∧ (Holds (.readNotices p) f s → p.length ≠ 0 →
            exec (.readNotices p) s = .next (s.answered f .badRequest [] s))
        ∧ (Holds (.listSessions p) f s → p.length ≠ 0 →
            exec (.listSessions p) s = .next (s.answered f .badRequest [] s))
        ∧ (Holds (.readSession p) f s →
            (p.length ≠ 1 → exec (.readSession p) s = .next (s.answered f .badRequest [] s))
              ∧ (p.length = 1 → 63 < arg p 0 1 → exec (.readSession p) s = .next (s.answered f .outOfRange [] s)))
        ∧ (Holds (.readBay p) f s →
            (p.length ≠ 1 → exec (.readBay p) s = .next (s.answered f .badRequest [] s))
              ∧ (p.length = 1 → 47 < arg p 0 1 → exec (.readBay p) s = .next (s.answered f .outOfRange [] s)))
        ∧ (Holds (.readAccount p) f s →
            (p.length ≠ 1 → exec (.readAccount p) s = .next (s.answered f .badRequest [] s))
              ∧ (p.length = 1 → 15 < arg p 0 1 → exec (.readAccount p) s = .next (s.answered f .outOfRange [] s)))
        ∧ (Holds (.queryCredit p) f s → p.length ≠ 4 →
            exec (.queryCredit p) s = .next (s.answered f .badRequest [] s)))
    ∧ (∀ (draw : Nat) (s : State) (k : SlotId) (r : Receipt),
      (serialize draw (readSiteFields s)).length = 66 ∧ (serialize draw (readNoticesFields s)).length = 71
        ∧ (serialize draw (listSessionsFields s)).length = 258 ∧ (serialize draw (receiptFields r)).length = 51
        ∧ ((s.slot k).state = .settled → (serialize draw (readSessionFields s k)).length = 96)
        ∧ ((s.slot k).state = .free → (serialize draw (readSessionFields s k)).length = 1))
    ∧ ∀ (s : State) (key : Nat) (b : BayId), b ∈ s.baysPending key ↔ ∃ n d, (s.bay b).scan = .pending key n d

/-- ACCOUNT (R129, R130): the checks in their order, and the entry an accepted write leaves. -/
def Obligations.AccountWritten : Prop :=
  ∀ (p f : List Byte) (s : State), PassSampled s → Holds (.account p) f s →
    let token := arg p 1 4
    let firm := arg p 7 2
    let allowance := arg p 9 2
    let holders := arg p 12 1
    let bad := 15 < arg p 0 1 ∨ 1 < arg p 5 1 ∨ 1 < arg p 6 1 ∨ 65000 < allowance ∨ holders = 0 ∨ 8 < holders
      ∨ (arg p 5 1 = 1 ∧ token = 0)
    (p.length ≠ 13 → exec (.account p) s = .next (s.answered f .badRequest [] s))
      ∧ (p.length = 13 → bad → exec (.account p) s = .next (s.answered f .outOfRange [] s))
      ∧ ∀ i : AccountId, p.length = 13 → arg p 0 1 = i.val → ¬bad →
        let old := s.account i
        let taken := arg p 5 1 = 1 ∧ ∃ j, j ≠ i ∧ (s.account j).enabled = true ∧ (s.account j).token = token
        let inUse := (0 < old.holders ∧ token ≠ old.token) ∨ holders < old.holders
        (taken → exec (.account p) s = .next (s.answered f .duplicate [] s))
          ∧ (¬taken → inUse → exec (.account p) s = .next (s.answered f .inUse [] s))
          ∧ (¬taken → ¬inUse →
            let new : Account := {
              token := token, enabled := decide (arg p 5 1 = 1)
              cls := if arg p 6 1 = 0 then .firm else .ordinary
              firmSteps := min 1500 firm, allowanceWh := allowance
              remainingWh :=
                if (arg p 5 1 = 1 ∧ old.enabled = false) ∨ token ≠ old.token then allowance
                else min old.remainingWh allowance
              solarOnly := (arg p 11 1).testBit 0, maxHolders := holders, holders := old.holders }
            exec (.account p) s = .next (State.answered (s.setAccount i new) f
              (if firm ≤ 1500 then .ok else .okClamped)
              [u1 i.val, u4 token, u1 (arg p 5 1), u1 (arg p 6 1), u2 (min 1500 firm), u2 allowance, u2 new.remainingWh,
                flag new.solarOnly, u1 holders, u1 old.holders] s))

/-! ## Sessions (chapters 3, 5 and 9) -/

/-- TAKE RECEIPT (R163): refused by its length, its slot and without a receipt; otherwise the receipt is the answer, the slot becomes
FREE and a bay STOPPED with it forgets it. The bits of the receipt's bytes 18 and 50 that Table 11-3 does not name are 0 by
log 49. -/
def Obligations.ReceiptTaken : Prop :=
  ∀ (p f : List Byte) (s : State), PassSampled s → Holds (.takeReceipt p) f s →
    (p.length ≠ 1 → exec (.takeReceipt p) s = .next (s.answered f .badRequest [] s))
      ∧ (p.length = 1 → 63 < arg p 0 1 → exec (.takeReceipt p) s = .next (s.answered f .outOfRange [] s))
      ∧ ∀ k : SlotId, p.length = 1 → arg p 0 1 = k.val →
        ((s.slot k).state ≠ .settled → exec (.takeReceipt p) s = .next (s.answered f .wrongState [] s))
          ∧ ∀ r, (s.slot k).state = .settled → (s.slot k).receipt = some r →
            exec (.takeReceipt p) s = .next (State.answered
              (if (s.bay r.bay).state = .stopped ∧ (s.bay r.bay).session = some k then
                (s.setSlot k {}).setBay r.bay { s.bay r.bay with session := none }
              else s.setSlot k {}) f .ok (receiptFields r) s)

/-- STOP (R10, R60, R54, R58, R100): NOT_CONFIGURED while the gate is CLOSED, refused by its length and its slot, WRONG_STATE
without a live session, OK without effect in ENDING, an end without confirmation in OPENING, and entry into ENDING otherwise,
which at an OFFLINE bay is settled at once. The end at an OFFLINE bay is the reading of log 30, and the instant of the snapshot that of
log 6. -/
def Obligations.SessionStopped : Prop :=
  (∀ (p f : List Byte) (s : State), PassSampled s → Holds (.stop p) f s →
    (s.sc.gate = .closed → exec (.stop p) s = .next (s.answered f .notConfigured [] s))
      ∧ (s.sc.gate = .opened → p.length ≠ 1 → exec (.stop p) s = .next (s.answered f .badRequest [] s))
      ∧ (s.sc.gate = .opened → p.length = 1 → 63 < arg p 0 1 →
          exec (.stop p) s = .next (s.answered f .outOfRange [] s)))
    ∧ ∀ (p f : List Byte) (k : SlotId) (s : State), PassSampled s → Holds (.stop p) f s → s.sc.gate = .opened →
    p.length = 1 → arg p 0 1 = k.val →
    let x := s.slot k
    let b := x.bay
    let y := s.bay b
    ((x.state = .free ∨ x.state = .settled) → exec (.stop p) s = .next (s.answered f .wrongState [] s))
      ∧ (x.state = .ending → exec (.stop p) s = .next (s.answered f .ok [] s))
      ∧ (x.state = .opening → x.energyWh = 0 →
          exec (.stop p) s = .next (State.answered
            ((s.setSlot k {}).setBay b (if y.plug then
                { y with scan := .empty, lostDeadline := none, state := .stopped, session := none, stopFlag := true }
              else { y with scan := .empty, lostDeadline := none, state := .idle, session := none })) f .ok [] s))
      ∧ (x.state = .opening → 0 < x.energyWh → ∃ t, exec (.stop p) s = .next t
          ∧ t.hp.port = answeredPort f .ok [] s ∧ (t.slot k).state = .settled
          ∧ (t.slot k).endCause = some .commandStop ∧ OnlyAt k b s t)
      ∧ (x.state.queued = true → s.bayOnline b = true → ∃ t, exec (.stop p) s = .next t
          ∧ t.hp.port = answeredPort f .ok [] s
          ∧ t.slot k = { x with
              state := .ending, endCause := some .commandStop, runPermit := false, suspendCause := none
              endDeadline := some (s.runTimer + s.sc.timing.tEnd * 1000) }
          ∧ t.bay b = { y with
              stopFlag := true, scan := .empty, grantSet := 0
              ackWait := if y.grantAck = 0 then none else y.ackWait }
          ∧ t.al.queue.map (·.slot) = (s.al.queue.map (·.slot)).filter (fun j => j != k)
          ∧ PassRequested s t ∧ t.cs = s.cs ∧ t.hp.notices = s.hp.notices ∧ OnlyAt k b s t)
      ∧ (x.state.queued = true → s.bayOnline b = false → ∃ t, exec (.stop p) s = .next t
          ∧ t.hp.port = answeredPort f .ok [] s
          ∧ (t.slot k).state = .settled ∧ (t.slot k).endCause = some .linkLost
          ∧ (t.slot k).flags.endUnconfirmed = true ∧ (t.slot k).flags.linkLostDuring = true
          ∧ (t.bay b).state = .fault ∧ (t.bay b).session = none ∧ (t.bay b).grantSet = 0 ∧ (t.bay b).stopFlag = true
          ∧ PassRequested s t ∧ OnlyAt k b s t)

/-- R105: SUSPEND. The codes of the response are those of log 14, and the bits of its presence byte above bit 0 are 0 by log 47. -/
def Obligations.SessionSuspended : Prop :=
  ∀ (p f : List Byte) (s : State), PassSampled s → Holds (.suspend p) f s →
    (s.sc.gate = .closed → exec (.suspend p) s = .next (s.answered f .notConfigured [] s))
      ∧ (s.sc.gate = .opened → p.length ≠ 1 → exec (.suspend p) s = .next (s.answered f .badRequest [] s))
      ∧ (s.sc.gate = .opened → p.length = 1 → 63 < arg p 0 1 →
          exec (.suspend p) s = .next (s.answered f .outOfRange [] s))
      ∧ ∀ k : SlotId, s.sc.gate = .opened → p.length = 1 → arg p 0 1 = k.val →
        let x := s.slot k
        (x.state.queued = false → exec (.suspend p) s = .next (s.answered f .wrongState [] s))
          ∧ (x.state = .suspended → exec (.suspend p) s =
              .next (State.answered (s.setSlot k { x with suspendCause := some .commanded }) f .ok [u1 1, u1 4, u1 1] s))
          ∧ ((x.state = .waiting ∨ x.state = .charging) → ∃ t, exec (.suspend p) s = .next t
              ∧ t.hp.port = answeredPort f .ok [u1 1, u1 4, u1 1] s
              ∧ t.slot k = { x with state := .suspended, suspendCause := some .commanded, runPermit := false }
              ∧ (x.runPermit = true → PassRequested s t) ∧ (x.runPermit = false → t.al = s.al)
              ∧ t.al.queue.map (·.slot) = s.al.queue.map (·.slot)
              ∧ t.bays = s.bays ∧ t.cs = s.cs ∧ t.hp.notices = s.hp.notices ∧ OnlyAt k x.bay s t)

/-- RESUME (R10, R106): NOT_CONFIGURED while the gate is CLOSED, refused by its length and its slot; a session held by shed is
kept, another SUSPENDED session enters WAITING with run_permit 1; RESUME of all slots resumes every SUSPENDED session that is not
held by shed and answers their number. The instant of the snapshot is the reading of log 6. -/
def Obligations.SessionsResumed : Prop :=
  (∀ (p f : List Byte) (s : State), PassSampled s →
    (Holds (.resume p) f s →
      (s.sc.gate = .closed → exec (.resume p) s = .next (s.answered f .notConfigured [] s))
        ∧ (s.sc.gate = .opened → p.length ≠ 1 → exec (.resume p) s = .next (s.answered f .badRequest [] s))
        ∧ (s.sc.gate = .opened → p.length = 1 → 63 < arg p 0 1 →
            exec (.resume p) s = .next (s.answered f .outOfRange [] s)))
      ∧ (Holds (.resumeAll p) f s → s.sc.gate = .closed →
          exec (.resumeAll p) s = .next (s.answered f .notConfigured [] s)))
    ∧ (∀ (p f : List Byte) (k : SlotId) (s : State), PassSampled s → Holds (.resume p) f s → s.sc.gate = .opened →
    p.length = 1 → arg p 0 1 = k.val →
    let x := s.slot k
    let held := s.shedActive = true ∧ s.sc.lines.scope.has x.cls = true
    (x.state ≠ .suspended → exec (.resume p) s = .next (s.answered f .wrongState [] s))
      ∧ (x.state = .suspended → held → exec (.resume p) s = .next (s.answered f .notSafe [] s))
      ∧ (x.state = .suspended → ¬held → ∃ t, exec (.resume p) s = .next t
          ∧ t.hp.port = answeredPort f .ok [] s
          ∧ t.slot k = { x with state := .waiting, suspendCause := none, runPermit := true }
          ∧ (x.runPermit = false → PassRequested s t)
          ∧ t.al.queue.map (·.slot) = s.al.queue.map (·.slot)
          ∧ t.bays = s.bays ∧ t.cs = s.cs ∧ t.hp.notices = s.hp.notices ∧ OnlyAt k x.bay s t))
    ∧ ∀ (p f : List Byte) (s : State), PassSampled s → Holds (.resumeAll p) f s → s.sc.gate = .opened →
      let resumed := fun k : SlotId => (s.slot k).state = .suspended
        ∧ ¬(s.shedActive = true ∧ s.sc.lines.scope.has (s.slot k).cls = true)
      ∃ t, exec (.resumeAll p) s = .next t
        ∧ (∀ k, resumed k → t.slot k = { s.slot k with state := .waiting, suspendCause := none, runPermit := true })
        ∧ (∀ k, ¬resumed k → t.slot k = s.slot k)
        ∧ (∃ ks : List SlotId, ks.Nodup ∧ (∀ k, k ∈ ks ↔ resumed k)
            ∧ t.hp.port = answeredPort f .ok [u1 ks.length] s)
        ∧ (∀ k, resumed k → (s.slot k).runPermit = false → PassRequested s t)
        ∧ ((∀ k, resumed k → (s.slot k).runPermit = true) → t.al = s.al)
        ∧ t.al.queue.map (·.slot) = s.al.queue.map (·.slot) ∧ t.st.sequence = s.st.sequence ∧ t.st.arrival = s.st.arrival
        ∧ ResultsKept s t ∧ t.sc = s.sc ∧ t.flc = s.flc ∧ t.bays = s.bays ∧ t.cs = s.cs ∧ t.tc = s.tc
        ∧ t.hp.notices = s.hp.notices ∧ t.runTimer = s.runTimer ∧ t.pending = s.pending

/-- CLEAR SITE (R10, R66, R166): NOT_CONFIGURED while the gate is CLOSED, refused by its length; every session in a live state is
settled with cause SITE_CLEAR, its bay goes by its plug with grant_set 0 and stop_flag set, and the answer counts the sessions
settled and the bays with committed power. Each session settled leaves the admission queue, which requests a pass, and releases what
it holds at CS (R56, R123, R128, R137, R160): a credit takes the whole Wh of its block back and is ISSUED again or retired, an account
takes them back up to its allowance and loses its holders. The order of the settlements is free (log 11), and the instant of the
snapshot is the reading of log 6. -/
def Obligations.SiteCleared : Prop :=
  (∀ (p f : List Byte) (s : State), PassSampled s → Holds (.clearSite p) f s →
    (s.sc.gate = .closed → exec (.clearSite p) s = .next (s.answered f .notConfigured [] s))
      ∧ (s.sc.gate = .opened → p ≠ [] → exec (.clearSite p) s = .next (s.answered f .badRequest [] s)))
    ∧ ∀ (f : List Byte) (s : State), PassSampled s → Holds (.clearSite []) f s → s.sc.gate = .opened →
    let whole := fun k : SlotId => (s.slot k).blockLeft / 1000
    ∃ t, exec (.clearSite []) s = .next t
      ∧ (∀ k, (s.slot k).state.live = true →
          (t.slot k).state = .settled ∧ (t.slot k).endCause = some .siteClear ∧ (t.slot k).receipt.isSome = true
            ∧ (t.slot k).endTime = some ⟨s.tc.day, s.tc.second⟩ ∧ (t.slot k).authDeadline = none
            ∧ (t.slot k).endDeadline = none ∧ (t.slot k).runPermit = false ∧ (t.slot k).source = none
            ∧ ((s.slot k).source ≠ none → (t.slot k).blockLeft = 0 ∧ (t.slot k).finalBlock = false)
            ∧ ((∀ key, (s.slot k).source ≠ some (.credit key)) → (t.slot k).accountHold = false)
            ∧ (t.slot k).energyWh = (s.slot k).energyWh
            ∧ (t.bay (s.slot k).bay).grantSet = 0 ∧ (t.bay (s.slot k).bay).stopFlag = true
            ∧ (t.bay (s.slot k).bay).scan = .empty ∧ (t.bay (s.slot k).bay).lostDeadline = none
            ∧ (t.bay (s.slot k).bay).state = (if (s.bay (s.slot k).bay).plug then .stopped else .idle)
            ∧ (SessionInv s → (t.bay (s.slot k).bay).session = if (s.bay (s.slot k).bay).plug then some k else none))
      ∧ (∀ k, (s.slot k).state.live = false → t.slot k = s.slot k)
      ∧ (∀ b, (∀ k, (s.slot k).state.live = true → (s.slot k).bay ≠ b) → t.bay b = s.bay b)
      ∧ (∀ b, (t.bay b).grantAck = (s.bay b).grantAck)
      ∧ (∃ (ks : List SlotId) (bs : List BayId), ks.Nodup ∧ (∀ k, k ∈ ks ↔ (s.slot k).state.live = true)
          ∧ bs.Nodup ∧ (∀ b, b ∈ bs ↔ 0 < (t.bay b).committed)
          ∧ t.hp.port = answeredPort f .ok [u1 ks.length, u1 bs.length] s
          ∧ (ks ≠ [] → (t.notice .receiptReady).count = min 255 ((s.notice .receiptReady).count + ks.length)))
      ∧ (∀ j, j ≠ .receiptReady → t.notice j = s.notice j)
      ∧ ((∃ k, (s.slot k).state.queued = true) → PassRequested s t)
      ∧ t.al.queue.map (·.slot) = (s.al.queue.map (·.slot)).filter (fun k => !(s.slot k).state.queued)
      ∧ (QueueInv s → t.al.queue = [])
      ∧ ((∃ k, (s.slot k).state.live = true) → t.hp.attn = t.attnDue)
      ∧ ((∀ k, (s.slot k).state.live = false) → t.al = s.al ∧ t.cs = s.cs ∧ t.hp.notices = s.hp.notices ∧ t.hp.attn = s.hp.attn)
      ∧ (CreditInv s → LedgerInv s → t.cs.credits = s.cs.credits.filterMap fun c =>
          match c.holder with
          | none => some c
          | some k =>
            if 0 < c.remainingWh + whole k ∧ c.voided = false ∧ c.expired = false then
              some { c with state := .issued, remainingWh := c.remainingWh + whole k, holder := none }
            else none)
      ∧ (∀ i : AccountId, ∃ ending returning : List SlotId, ending.Nodup ∧ returning.Nodup
          ∧ (∀ k, k ∈ ending ↔ (s.slot k).state.live = true ∧ (s.slot k).accountHold = true
              ∧ (s.slot k).accountIndex = some i ∧ ∀ key, (s.slot k).source ≠ some (.credit key))
          ∧ (∀ k, k ∈ returning ↔ (s.slot k).state.live = true ∧ (s.slot k).source = some (.account i))
          ∧ t.account i = { s.account i with
              holders := (s.account i).holders - ending.length
              remainingWh := if returning = [] then (s.account i).remainingWh
                else min (s.account i).allowanceWh ((s.account i).remainingWh + (returning.map whole).sum) })
      ∧ t.cs.blockSize = s.cs.blockSize
      ∧ t.st.sequence = s.st.sequence ∧ t.st.arrival = s.st.arrival ∧ ResultsKept s t
      ∧ t.sc = s.sc ∧ t.flc = s.flc ∧ t.tc = s.tc ∧ t.runTimer = s.runTimer ∧ t.pending = s.pending

/-- R99: CLEAR BAY FAULT. The codes of the bay record are those of log 14, and the bits 5 to 7 of its presence byte are 0 by log 47.
The instant of the snapshot is the reading of log 6. -/
def Obligations.BayFaultCleared : Prop :=
  ∀ (p f : List Byte) (s : State), PassSampled s → Holds (.clearBayFault p) f s →
    (p.length ≠ 1 → exec (.clearBayFault p) s = .next (s.answered f .badRequest [] s))
      ∧ (p.length = 1 → 47 < arg p 0 1 → exec (.clearBayFault p) s = .next (s.answered f .outOfRange [] s))
      ∧ ∀ b : BayId, p.length = 1 → arg p 0 1 = b.val →
        ((s.bay b).state ≠ .fault → exec (.clearBayFault p) s = .next (s.answered f .wrongState [] s))
          ∧ ((s.bay b).state = .fault → (s.bayOnline b = false ∨ (s.bay b).output = true) →
              exec (.clearBayFault p) s = .next (s.answered f .notSafe [] s))
          ∧ ((s.bay b).state = .fault → s.bayOnline b = true → (s.bay b).output = false →
            ∃ t, exec (.clearBayFault p) s = .next t
              ∧ t.bay b = { s.bay b with
                  grantSet := 0, grantAck := 0, ackWait := none, stopFlag := false, session := none
                  state := if (s.bay b).plug then .stopped else .idle }
              ∧ (∀ c, c ≠ b → t.bay c = s.bay c)
              ∧ (0 < (s.bay b).committed → PassRequested s t) ∧ ((s.bay b).committed = 0 → t.al = s.al)
              ∧ t.hp = { s.hp with port := answeredPort f .ok (bayFields t b) s } ∧ ResultsKept s t
              ∧ t.sc = s.sc ∧ t.flc = s.flc ∧ t.st = s.st ∧ t.cs = s.cs ∧ t.tc = s.tc ∧ t.runTimer = s.runTimer
              ∧ t.pending = s.pending)

/-! ## Notices (chapter 10) -/

/-- R176 and R177: ACK NOTICE answers a kind's count and argument and sets the count to 0; NOTICE MASK replaces the ten mask bits,
and of length 0 is a read of them; each evaluates ATTN. The refusals' empty payloads are the reading of log 16, and the bits of
the mask field above bit 9 are 0 by log 49. -/
def Obligations.NoticesAcknowledgedAndMasked : Prop :=
  (∀ (p f : List Byte) (s : State), PassSampled s → Holds (.ackNotice p) f s →
    (p.length ≠ 1 → exec (.ackNotice p) s = .next (s.answered f .badRequest [] s))
      ∧ (p.length = 1 → 9 < arg p 0 1 → exec (.ackNotice p) s = .next (s.answered f .outOfRange [] s))
      ∧ ∀ k : NoticeKind, p.length = 1 → arg p 0 1 = k.index.val → ∃ t, exec (.ackNotice p) s = .next t
        ∧ t.notice k = { s.notice k with count := 0 } ∧ (∀ j, j ≠ k → t.notice j = s.notice j)
        ∧ t.hp.port = answeredPort f .ok
            [u1 (s.notice k).count, u1 (s.notice k).argument, u4 (if k = .creditQuery then (s.notice k).key else 0)] s
        ∧ t.hp.attn = t.attnDue ∧ t.hp.dropped = s.hp.dropped
        ∧ t = { s with hp := t.hp, freeDraws := s.freeDraws + 1 })
    ∧ ∀ (p f : List Byte) (s : State), PassSampled s → Holds (.noticeMask p) f s →
      (p.length = 0 → ∃ n, n < 1024 ∧ (∀ k : NoticeKind, n.testBit k.index.val = (s.notice k).masked)
          ∧ exec (.noticeMask p) s = .next (s.answered f .ok [u2 n] s))
        ∧ (p.length ≠ 0 → p.length ≠ 2 → exec (.noticeMask p) s = .next (s.answered f .badRequest [] s))
        ∧ (p.length = 2 → ∃ t, exec (.noticeMask p) s = .next t
          ∧ (∀ k, t.notice k = { s.notice k with masked := (arg p 0 2).testBit k.index.val })
          ∧ t.hp.port = answeredPort f .ok [u2 (arg p 0 2 % 1024)] s
          ∧ t.hp.attn = t.attnDue ∧ t.hp.dropped = s.hp.dropped
          ∧ t = { s with hp := t.hp, freeDraws := s.freeDraws + 1 })

/-! ## The field loop (chapter 2, R86, R94, R183) -/

/-- The state code of a bay (R40), and the choice of the display code of a poll (R41, R136). -/
def Obligations.DisplayCodeChosen : Prop :=
  ∀ (b : BayId) (s : State),
    let y := s.bay b
    (y.declared = false → s.stateCode b = .noService)
      ∧ (y.declared = true →
        (y.state = .idle → s.sc.gate = .closed → s.stateCode b = .noService)
          ∧ (y.state = .idle → s.sc.gate = .opened → s.stateCode b = .ready)
          ∧ (y.state = .waitingSlot → s.stateCode b = .noService)
          ∧ (y.state = .stopped → s.stateCode b = .stopped)
          ∧ (y.state = .fault → s.stateCode b = .noService)
          ∧ (y.state = .blocked → s.stateCode b = .noService)
          ∧ ∀ k, y.state = .occupied → y.session = some k →
            ((s.slot k).state = .opening → s.stateCode b = .authorise)
              ∧ ((s.slot k).state = .waiting → s.stateCode b = .waitingPower)
              ∧ ((s.slot k).state = .charging → s.stateCode b = .charging)
              ∧ ((s.slot k).state = .suspended → s.stateCode b = .paused)
              ∧ ((s.slot k).state = .ending → s.stateCode b = .stopped))
      ∧ (∀ m, y.message = some m → s.displayCode b = m.code.display)
      ∧ (∀ key n d, y.message = none → y.scan = .pending key n d → s.displayCode b = .oneMoment)
      ∧ (y.message = none → y.scan = .empty → s.stateCode b ≠ .charging → s.displayCode b = s.stateCode b)
      ∧ (∀ k, y.message = none → y.scan = .empty → s.stateCode b = .charging → y.session = some k →
          s.displayCode b = if (s.slot k).finalBlock then .finalBlock else .charging)

/-- BAY_POLL and SOURCE_POLL (R22 to R26): after the poll gap the device whose declaration starts the cycle is polled, and otherwise,
as where that device has been removed, the next declared device in ascending order, with the values held for it.
The start of the cycle, the whole ms of the gap and the mark of the message are the model's (logs 23 to 25), as are the bits of the
flags byte above bit 0 (log 48) and the allowance, that of the kind when the poll is built (log 44). -/
def Obligations.PollsBuilt : Prop :=
  (∀ (s : State) (e : Entry), s.flc.start = some e → (s.device e).declared = true → s.nextPoll = some e)
    ∧ (∀ s : State, (∀ e, s.flc.start = some e → (s.device e).declared = false) →
    (s.nextPoll = none ↔ ∀ e, (s.device e).declared = false)
      ∧ ∀ e, s.nextPoll = some e → (s.device e).declared = true
        ∧ (∀ q, s.flc.position = some q →
            (q < e ∧ ∀ g, (s.device g).declared = true → q < g → e ≤ g)
              ∨ ((∀ g, (s.device g).declared = true → ¬q < g) ∧ ∀ g, (s.device g).declared = true → e ≤ g))
        ∧ (s.flc.position = none → ∀ g, (s.device g).declared = true → e ≤ g))
    ∧ (∀ (b : BayId) (s : State), PassSampled s → s.flc.exchange = .quiet →
      s.flc.gapFrom + s.sc.timing.pollGap * 1000 / s.sc.timing.loopRate.baud ≤ s.runTimer →
      s.nextPoll = some ⟨b.val, by omega⟩ →
      let g := (s.bay b).grantSet
      let value : Nat := match (s.bay b).kind with | .ac1 => g * 100 / 23 | .ac3 => g * 100 / 69 | .dc => g
      let allowance := match (s.bay b).kind with | .dc => s.sc.timing.dcAllowance | _ => s.sc.timing.acAllowance
      exec .bayPoll s = .next { s.setBay b { s.bay b with
            message := (s.bay b).message.map fun m => { m with inPoll := true } } with
          flc := { s.flc with
            position := some ⟨b.val, by omega⟩, start := none
            exchange := .sending ⟨⟨b.val, by omega⟩, (value : Int),
              loopFrame b.val 1 (be 2 value ++ be 1 (s.bay b).stopFlag.toNat ++ be 1 (s.displayCode b).code
                ++ be 1 (s.bayDevice b).lastScanTag), allowance, s.sc.timing.loopRate, false⟩ }
          freeDraws := s.freeDraws + 1 })
    ∧ ∀ (e : Entry) (s : State), PassSampled s → s.flc.exchange = .quiet → 48 ≤ e.val →
      s.flc.gapFrom + s.sc.timing.pollGap * 1000 / s.sc.timing.loopRate.baud ≤ s.runTimer → s.nextPoll = some e →
      ∃ (value : Int) (payload : List Byte),
        (∀ k : InverterId, e.val = 48 + k.val → value = (s.inverter k).limit ∧ payload = be 2 (s.inverter k).limit)
          ∧ (e = 54 → value = s.al.battery.setpoint ∧ payload = be 2 (s.al.battery.setpoint % 65536).toNat)
          ∧ (e = 55 → value = 0 ∧ payload = [])
          ∧ exec .sourcePoll s = .next { s with
              flc := { s.flc with
                position := some e, start := none
                exchange := .sending ⟨e, value, loopFrame (loopAddress e) 3 payload, s.sc.timing.sourceAllowance,
                  s.sc.timing.loopRate, false⟩ }
              freeDraws := s.freeDraws + 1 }

/-- BAY_POLL_SENT and SOURCE_POLL_SENT (R23, R25, R26, R41, R94): the value carried becomes the device's last sent, the response
allowance starts, the message's count falls, and the ack wait is set, restarted or kept.
The mark of the message is the model's (log 25), as is the taking of a value sent by the bay's present kind (log 45) and the ack
wait by the table of R94 alone (log 46). Of a poll whose device was removed meanwhile the exchange runs on and nothing else changes
(R38, log 22). -/
def Obligations.PollsSent : Prop :=
  (∀ (b : BayId) (p : Poll) (s : State), PassSampled s → s.flc.exchange = .sending p → p.entry.val = b.val →
    p.removed = false →
    let y := s.bay b
    let sent := y.kind.toSteps p.value.toNat
    let restarted : AckWait := ⟨s.runTimer + s.sc.timing.tAck * 1000, sent⟩
    ∃ t, exec .bayPollSent s = .next t
      ∧ t.flc.exchange = .awaiting p (s.runTimer + p.allowance)
      ∧ t.device p.entry = { s.device p.entry with lastSent := p.value }
      ∧ (∀ e, e ≠ p.entry → t.device e = s.device e) ∧ (∀ c, c ≠ b → t.bay c = s.bay c)
      ∧ t.bay b = { y with ackWait := (t.bay b).ackWait, message := (t.bay b).message }
      ∧ (y.state = .fault ∨ y.state = .blocked ∨ s.bayOnline b = false → (t.bay b).ackWait = y.ackWait)
      ∧ (y.state ≠ .fault → y.state ≠ .blocked → s.bayOnline b = true →
          (y.grantAck ≤ sent → (t.bay b).ackWait = y.ackWait)
            ∧ (sent < y.grantAck → y.ackWait = none → (t.bay b).ackWait = some restarted)
            ∧ (∀ w, sent < y.grantAck → y.ackWait = some w → sent < w.grant → (t.bay b).ackWait = some restarted)
            ∧ (∀ w, sent < y.grantAck → y.ackWait = some w → w.grant ≤ sent → (t.bay b).ackWait = some w))
      ∧ (∀ m, y.message = some m → m.inPoll = true → 1 < m.count →
          (t.bay b).message = some ⟨m.code, m.count - 1, false⟩)
      ∧ (∀ m, y.message = some m → m.inPoll = true → m.count ≤ 1 → (t.bay b).message = none)
      ∧ (∀ m, y.message = some m → m.inPoll = false → (t.bay b).message = some m)
      ∧ (y.message = none → (t.bay b).message = none)
      ∧ t.flc.position = s.flc.position ∧ t.flc.start = s.flc.start ∧ t.flc.gapFrom = s.flc.gapFrom
      ∧ t.runTimer = s.runTimer ∧ t.pending = s.pending
      ∧ t.sc = s.sc ∧ t.st = s.st ∧ t.al = s.al ∧ t.cs = s.cs ∧ t.tc = s.tc ∧ t.hp = s.hp)
    ∧ (∀ (p : Poll) (s : State), PassSampled s → s.flc.exchange = .sending p → p.removed = true →
      exec (if p.entry.val < 48 then .bayPollSent else .sourcePollSent) s = .next { s with
        flc := { s.flc with exchange := .awaiting p (s.runTimer + p.allowance) }
        freeDraws := s.freeDraws + 1 })
    ∧ ∀ (p : Poll) (s : State), PassSampled s → s.flc.exchange = .sending p → 48 ≤ p.entry.val → p.removed = false →
      exec .sourcePollSent s = .next { s.setDevice p.entry { s.device p.entry with lastSent := p.value } with
        flc := { (s.setDevice p.entry { s.device p.entry with lastSent := p.value }).flc with
          exchange := .awaiting p (s.runTimer + p.allowance) }
        freeDraws := s.freeDraws + 1 }

/-- A miss (R23, R28), by an allowance that expires or by a response judged wrong: the count, the kind, and below the threshold
or OFFLINE nothing more; a device that reaches the threshold goes OFFLINE with one LOOP_DEVICE and a pass request. A bay that goes
OFFLINE (R65, R97, R100) ends its ack wait; its session gets LINK_LOST_DURING and the link-loss deadline, or in ENDING is settled
with LINK_LOST and the bay enters FAULT. The exchange of a device removed meanwhile ends at its allowance and counts no miss (R38).
The instant of the snapshot is the reading of log 6, and the mark of a removed device that of log 22. -/
def Obligations.MissTaken : Prop :=
  (∀ (p : Poll) (d : Nat) (s : State), PassSampled s → s.flc.exchange = .awaiting p d → p.removed = true → d ≤ s.runTimer →
    exec .responseTimeout s = .next { s with
      flc := { s.flc with exchange := .quiet, gapFrom := s.runTimer }
      freeDraws := s.freeDraws + 1 })
    ∧ ∀ (p : Poll) (d : Nat) (chars : List RxChar) (kind : MissKind) (i : Instr) (s : State), PassSampled s →
    s.flc.exchange = .awaiting p d → p.removed = false →
    ((i = .responseTimeout ∧ d ≤ s.runTimer ∧ kind = .timeout)
      ∨ (i = .responseReceived chars ∧ judge p.entry chars = .error kind)) →
    let old := s.device p.entry
    let count := min 15 (old.missCount + 1)
    (old.link = .offline ∨ count < s.sc.timing.missThreshold →
        exec i s = .next { s.setDevice p.entry { old with lastMiss := kind, missCount := count } with
          flc := { (s.setDevice p.entry { old with lastMiss := kind, missCount := count }).flc with
            exchange := .quiet, gapFrom := s.runTimer }
          freeDraws := s.freeDraws + 1 })
      ∧ (old.link = .online → s.sc.timing.missThreshold ≤ count → 48 ≤ p.entry.val →
        ∃ t, exec i s = .next t
          ∧ t.device p.entry = { old with lastMiss := kind, missCount := count, link := .offline }
          ∧ (∀ e, e ≠ p.entry → t.device e = s.device e)
          ∧ t.flc.exchange = .quiet ∧ t.flc.gapFrom = s.runTimer
          ∧ Counted .loopDevice (loopAddress p.entry) 0 s t ∧ PassRequested s t ∧ ResultsKept s t
          ∧ t.sc = { s.sc with
              reserve := if p.entry = 54 ∧ s.sc.reserve = .claimed then .granted else s.sc.reserve }
          ∧ t.bays = s.bays ∧ t.st = s.st ∧ t.cs = s.cs ∧ t.tc = s.tc ∧ t.hp.port = s.hp.port)
      ∧ ∀ b : BayId, old.link = .online → s.sc.timing.missThreshold ≤ count → p.entry.val = b.val →
        ∃ u, exec i s = done u
          ∧ u.device p.entry = { old with lastMiss := kind, missCount := count, link := .offline }
          ∧ (∀ e, e ≠ p.entry → u.device e = s.device e)
          ∧ u.flc.exchange = .quiet ∧ u.flc.gapFrom = s.runTimer
          ∧ u.notice .loopDevice = { s.notice .loopDevice with
              count := min 255 ((s.notice .loopDevice).count + 1), argument := b.val, key := 0 }
          ∧ u.hp.attn = u.attnDue ∧ PassAsked s u ∧ ResultsKept s u
          ∧ (∀ c, c ≠ b → s.liveSlot b = none ∨ (∃ k, s.liveSlot b = some k ∧ (s.slot k).bay = b) → u.bay c = s.bay c)
          ∧ (s.liveSlot b = none → u.bay b = { s.bay b with ackWait := none }
              ∧ Counted .loopDevice b.val 0 s u ∧ u.st = s.st ∧ u.cs = s.cs ∧ u.al.queue = s.al.queue)
          ∧ (∀ k, s.liveSlot b = some k → (s.slot k).state ≠ .ending →
              u.bay b = { s.bay b with ackWait := none, lostDeadline := some (s.runTimer + s.sc.timing.tLost * 1000) }
                ∧ u.slot k = { s.slot k with flags := { (s.slot k).flags with linkLostDuring := true } }
                ∧ (∀ j, j ≠ k → u.slot j = s.slot j) ∧ Counted .loopDevice b.val 0 s u ∧ u.cs = s.cs
                ∧ u.al.queue = s.al.queue)
          ∧ (∀ k, s.liveSlot b = some k → (s.slot k).state = .ending → (s.slot k).bay = b →
              Settled k b (some .linkLost) s u ∧ Failed b s u ∧ (u.bay b).grantAck = (s.bay b).grantAck
                ∧ (u.slot k).flags = { (s.slot k).flags with endUnconfirmed := true, linkLostDuring := true }
                ∧ ∀ j, j ≠ k → u.slot j = s.slot j)
          ∧ u.sc = s.sc ∧ u.tc = s.tc ∧ u.hp.port = s.hp.port ∧ u.runTimer = s.runTimer

/-- The loop check (R183) and the judgement of a response (R27, Table 11-5): the frame received ends where its length field says, and
the five checks of R27 are taken in their order, the first that fails naming the miss; a frame sent with even parity, good stop bits
and its check is judged by its kind and payload alone. The characters beyond the frame, and a reception too short for it, are judged
by the reading of log 26. -/
def Obligations.ResponsesJudged : Prop :=
  (crc [0x31, 0x32, 0x33, 0x34, 0x35, 0x36, 0x37, 0x38, 0x39] = 0x29B1#16
      ∧ crc [] = 0xFFFF#16
      ∧ ∀ (bytes : List Byte) (b : Byte), crc (bytes ++ [b]) =
        [7, 6, 5, 4, 3, 2, 1, 0].foldl (fun (reg : BitVec 16) i =>
          if reg.msb.xor (b.getLsbD i) then reg <<< 1 ^^^ 0x1021#16 else reg <<< 1) (crc bytes))
    ∧ (∀ chars : List RxChar, (chars.length < 3 → framePart chars = chars)
      ∧ ∀ c, chars[2]? = some c → framePart chars = chars.take (5 + c.data.toNat))
    ∧ (∀ (e : Entry) (chars : List RxChar),
      let received := framePart chars
      let bytes := received.map (·.data)
      let n := bytes.length
      let even := ∀ c ∈ received, c.parity = evenParity c.data
      let stops := ∀ c ∈ received, c.stop = true
      let complete := 5 ≤ n ∧ n = 5 + (bytes.getD 2 0).toNat
      let checked := crc (bytes.take (n - 2)) =
        BitVec.ofNat 16 ((bytes.getD (n - 2) 0).toNat * 256 + (bytes.getD (n - 1) 0).toNat)
      let addressed := (bytes.getD 0 0).toNat = loopAddress e
      (¬even → judge e chars = .error .parity)
        ∧ (even → ¬(stops ∧ complete) → judge e chars = .error .frame)
        ∧ (even → stops → complete → ¬checked → judge e chars = .error .check)
        ∧ (even → stops → complete → checked → ¬addressed → judge e chars = .error .address)
        ∧ (even → stops → complete → checked → addressed → judge e chars =
            match parseReport (roleOf e) (bytes.getD 1 0).toNat ((bytes.drop 3).take (n - 5)) with
            | some r => .ok r
            | none => .error .frame))
    ∧ (∀ (e : Entry) (kind : Nat) (payload : List Byte), kind < 256 → payload.length < 256 →
      judge e (charsOf (loopFrame (loopAddress e) kind payload)) =
        match parseReport (roleOf e) kind payload with
        | some r => .ok r
        | none => .error .frame)
    ∧ (∀ d : Byte, evenParity d = decide ((([0, 1, 2, 3, 4, 5, 6, 7].filter fun i => d.getLsbD i).length) % 2 = 1))
    ∧ (∀ (b : BayId) (kind : Nat) (p : List Byte),
      let allowed := kind = 2 ∧ p.length = 21 ∧ 1 ≤ arg p 18 1 ∧ arg p 18 1 ≤ 3
        ∧ (arg p 12 1 = 0 ∨ arg p 13 1 = 1 ∨ arg p 13 1 = 2)
      (¬allowed → parseReport (.bay b) kind p = none)
        ∧ (allowed → parseReport (.bay b) kind p = some (.bay {
            plug := (arg p 0 1).testBit 0, output := (arg p 0 1).testBit 1, stopButton := (arg p 0 1).testBit 2
            cardCap := if (arg p 0 1).testBit 3 then some (arg p 10 2) else none
            applied := arg p 1 2, demand := arg p 3 2, register := arg p 5 4, faultCode := arg p 9 1, scanTag := arg p 12 1
            scan := if arg p 12 1 = 0 then none
              else some ⟨if arg p 13 1 = 1 then .token else .receipt, arg p 14 4⟩
            idKind := if arg p 18 1 = 1 then .ac1 else if arg p 18 1 = 2 then .ac3 else .dc
            idMax := arg p 19 2 })))
    ∧ ∀ (kind : Nat) (p : List Byte),
      (∀ k : InverterId, parseReport (.canopy k) kind p =
          if kind = 4 ∧ p.length = 2 then some (.canopy (arg p 0 2)) else none)
        ∧ parseReport .meter kind p = (if kind = 4 ∧ p.length = 2 then some (.meter (arg p 0 2)) else none)
        ∧ parseReport .battery kind p = if kind = 4 ∧ p.length = 6 then
            some (.battery (arg p 0 4) (if 32768 ≤ arg p 4 2 then (arg p 4 2 : Int) - 65536 else arg p 4 2)) else none

/-- A good report of a plug at a bay IDLE or in WAITING_SLOT that is ONLINE, with its output off and no other item (R31, R42, R46, R47,
R140, R10): with the gate OPEN the lowest FREE slot opens a session whose baseline is the register; with no slot FREE the bay waits,
and SLOT_SHORTAGE is counted if it was IDLE and not again if it was waiting; with the gate CLOSED the bay stays as it is.
Step 2 of R42 reads of a report the plug alone: it does this whatever else the report carries, and nothing without the plug or at a bay in another state (R43, R44). -/
def Obligations.PlugInOpensSession : Prop :=
  (∀ (b : BayId) (r : BayReport) (s : State),
    let y := s.bay b
    let attempted := r.plug = true ∧ (y.state = .idle ∨ y.state = .waitingSlot)
    let t := stepOpening b r s
    (¬attempted → t = s)
      ∧ (attempted → s.sc.gate = .closed → t = s)
      ∧ (∀ k, attempted → s.sc.gate = .opened → (s.slot k).state = .free → (∀ j, j < k → (s.slot j).state ≠ .free) →
          t.slot k = {
              state := .opening, sequence := s.st.sequence, bay := b
              cls := if y.kind = .dc then .rapid else .ordinary
              openTime := ⟨s.tc.day, s.tc.second⟩, authDeadline := some (s.runTimer + s.sc.timing.tAuth * 1000) }
            ∧ t.bay b = { y with state := .occupied, session := some k, stopFlag := false }
            ∧ (∀ j, j ≠ k → t.slot j = s.slot j) ∧ (∀ c, c ≠ b → t.bay c = s.bay c)
            ∧ t.st.sequence = (if 65535 ≤ s.st.sequence then 1 else s.st.sequence + 1)
            ∧ t = { s with st := t.st, bays := t.bays } ∧ t.st.arrival = s.st.arrival)
      ∧ (attempted → s.sc.gate = .opened → (∀ k, (s.slot k).state ≠ .free) →
          (y.state = .waitingSlot → t = s)
            ∧ (y.state = .idle → t = { s.setBay b { y with state := .waitingSlot } with hp := t.hp }
              ∧ Counted .slotShortage b.val 0 s t ∧ t.hp.attn = t.attnDue ∧ t.hp.port = s.hp.port
              ∧ t.hp.dropped = s.hp.dropped)))
    ∧ ∀ (b : BayId) (p : Poll) (d : Nat) (chars : List RxChar) (r : BayReport) (s : State), PassSampled s →
    s.flc.exchange = .awaiting p d → p.entry.val = b.val → p.removed = false → (s.bayDevice b).link = .online →
    judge p.entry chars = .ok (.bay r) → r.plug = true → r.output = false → r.faultCode = 0 → r.stopButton = false →
    r.cardCap = none → r.scanTag = 0 → r.idKind = (s.bay b).kind → (s.bay b).kind.minSteps ≤ r.idMax →
    (s.bay b).state = .idle ∨ (s.bay b).state = .waitingSlot → (s.bay b).session = none → (s.bay b).grantAck = 0 →
    let y := s.bay b
    let seen := { y with
      plug := true, output := false, identity := .matched, maxSteps := min (s.bayDevice b).declaredMax r.idMax
      ackWait := none }
    ∃ t, exec (.responseReceived chars) s = .next t
      ∧ (s.sc.gate = .closed → t.bay b = seen ∧ t.st = s.st ∧ t.hp = s.hp)
      ∧ (∀ k, s.sc.gate = .opened → (s.slot k).state = .free → (∀ j, j < k → (s.slot j).state ≠ .free) →
          t.slot k = {
              state := .opening, sequence := s.st.sequence, bay := b
              cls := if y.kind = .dc then .rapid else .ordinary
              openTime := ⟨s.tc.day, s.tc.second⟩, authDeadline := some (s.runTimer + s.sc.timing.tAuth * 1000)
              baselineSet := true, demand := min r.demand (min (s.bayDevice b).declaredMax r.idMax) }
            ∧ t.bay b = { seen with
                state := .occupied, session := some k, stopFlag := false
                lastRegister := r.register % 2 ^ y.meterWidth, lastReportTime := s.runTimer }
            ∧ (∀ j, j ≠ k → t.slot j = s.slot j)
            ∧ t.st.sequence = (if 65535 ≤ s.st.sequence then 1 else s.st.sequence + 1) ∧ t.hp = s.hp)
      ∧ (s.sc.gate = .opened → (∀ k, (s.slot k).state ≠ .free) →
          t.bay b = { seen with state := .waitingSlot } ∧ t.st = s.st
            ∧ (y.state = .idle → Counted .slotShortage b.val 0 s t ∧ t.hp.attn = t.attnDue)
            ∧ (y.state = .waitingSlot → t.hp = s.hp))
      ∧ (∀ c, c ≠ b → t.bay c = s.bay c) ∧ t.sc = s.sc ∧ t.al.queue = s.al.queue ∧ t.cs = s.cs ∧ t.tc = s.tc
      ∧ t.hp.port = s.hp.port

/-- A good bay report is handed on (R29 to R34, R38, R42, R64, R98, R101): the exchange ends, the miss count and the report time
of the device entry are set, and a device that was OFFLINE comes ONLINE with one LOOP_DEVICE, a pass request and the end of the
link-loss wait; then the identity decides what of the report is taken, and the scan is handed on once for its tag, before the ten
steps in their order. That a matching report of a bay BLOCKED by a mismatch leaves max_steps is the model's (log 43), as is the
grant of 0 in BLOCKED (log 37). -/
def Obligations.BayReportsHandedOn : Prop :=
  (∀ (b : BayId) (p : Poll) (d : Nat) (chars : List RxChar) (r : BayReport) (s : State), s.flc.exchange = .awaiting p d →
    let ended := { s with flc := { s.flc with exchange := .quiet, gapFrom := s.runTimer } }
    (p.removed = true → exec (.responseReceived chars) s = done ended)
      ∧ (p.removed = false → p.entry.val = b.val → judge p.entry chars = .ok (.bay r) →
        exec (.responseReceived chars) s = done (takeGoodBay b r (takeGood p.entry ended))))
    ∧ (∀ (e : Entry) (s : State),
      let d := s.device e
      let t := takeGood e s
      t.device e = { d with missCount := 0, lastReportTime := s.runTimer, link := .online }
        ∧ (∀ g, g ≠ e → t.device g = s.device g)
        ∧ (d.link = .online → t.hp = s.hp ∧ t.al = s.al ∧ t.bays = s.bays)
        ∧ (d.link = .offline → Counted .loopDevice (loopAddress e) 0 s t ∧ t.hp.attn = t.attnDue ∧ t.hp.port = s.hp.port
            ∧ PassAsked s t ∧ ResultsKept s t
            ∧ (∀ b, roleOf e = .bay b → t.bay b = { s.bay b with lostDeadline := none } ∧ ∀ c, c ≠ b → t.bay c = s.bay c)
            ∧ (48 ≤ e.val → t.bays = s.bays))
        ∧ t.flc.exchange = s.flc.exchange ∧ t.sc = s.sc ∧ t.st = s.st ∧ t.cs = s.cs ∧ t.tc = s.tc)
    ∧ (∀ (b : BayId) (r : BayReport) (s : State),
      let y := s.bay b
      let fits := r.idKind = y.kind ∧ y.kind.minSteps ≤ r.idMax
      let shown := fun z : Bay => { z with
        output := r.output, grantAck := if r.output then z.grantAck else 0, ackWait := if r.output then z.ackWait else none }
      let known := { y with identity := .matched, maxSteps := min (s.bayDevice b).declaredMax r.idMax }
      let refused := { y with
        identity := .mismatch, state := .blocked, session := none, message := none, ackWait := none, grantSet := 0 }
      let t := takeGoodBay b r s
      (y.state = .blocked → y.identity = .mismatch →
          t.bay b = shown y ∧ (∀ c, c ≠ b → t.bay c = s.bay c) ∧ t.st = s.st ∧ t.cs = s.cs ∧ t.hp = s.hp
            ∧ t.flc = s.flc ∧ t.sc = s.sc ∧ t.tc = s.tc
            ∧ t.al = if (t.bay b).committed < y.committed then (requestPass s).al else s.al)
        ∧ (y.state = .blocked → y.identity ≠ .mismatch → fits → t = handToBay b r (s.setBay b { known with state := .idle }))
        ∧ (y.state ≠ .blocked → fits → t = handToBay b r (s.setBay b known))
        ∧ (y.state = .blocked → y.identity ≠ .mismatch → ¬fits →
          t.bay b = shown { y with identity := .mismatch } ∧ (∀ c, c ≠ b → t.bay c = s.bay c) ∧ t.st = s.st ∧ t.cs = s.cs
            ∧ t.hp = s.hp ∧ t.flc = s.flc ∧ t.sc = s.sc ∧ t.tc = s.tc)
        ∧ (y.state ≠ .blocked → ¬fits → s.liveSlot b = none →
          t.bay b = shown refused ∧ (∀ c, c ≠ b → t.bay c = s.bay c) ∧ Counted .bayFault b.val 0 s t
            ∧ t.hp.attn = t.attnDue ∧ ((t.bay b).committed < y.committed → PassAsked s t)
            ∧ t.st = s.st ∧ t.cs = s.cs ∧ t.flc = s.flc ∧ t.sc = s.sc ∧ t.tc = s.tc)
        ∧ ∀ k, y.state ≠ .blocked → ¬fits → s.liveSlot b = some k → (s.slot k).bay = b →
          Settled k b (some .bayFault) s t
            ∧ t.bay b = shown { refused with scan := .empty, lostDeadline := none, stopFlag := true }
            ∧ (t.notice .bayFault).count = min 255 ((s.notice .bayFault).count + 1)
            ∧ (t.notice .bayFault).argument = b.val ∧ OnlyAt k b s t)
    ∧ (∀ (b : BayId) (r : BayReport) (s : State),
      let last := (s.bayDevice b).lastScanTag
      let seen := s.setDevice ⟨b.val, by omega⟩ { s.bayDevice b with lastScanTag := if r.scanTag = 0 then last else r.scanTag }
      (∀ sc, r.scan = some sc → r.scanTag ≠ last → sc.key ≠ 0 → handToBay b r s = takeBayReport b r (some sc) seen)
        ∧ (r.scan = none ∨ r.scanTag = last ∨ (∃ sc, r.scan = some sc ∧ sc.key = 0) →
            handToBay b r s = takeBayReport b r none seen))
    ∧ ∀ (b : BayId) (r : BayReport) (scan : Option Scan) (s : State),
      let taken := s.setBay b { s.bay b with plug := r.plug, output := r.output }
      takeBayReport b r scan s =
        takeDemand b (min r.demand (s.bay b).maxSteps) (stepButton b r (stepScan b scan (stepCard b r
          (stepUnplugged b r (stepFault b r (stepAck b r (stepMeter b r (stepOpening b r taken))))))))

/-- Step 4 of a bay report (R92, R93, R98): the acknowledgement of a bay by its output, its applied value and the grant last sent;
above it the session is settled with BAY_FAULT and the bay enters FAULT. The power committed at a declared bay stays within the
standing power that a pass counts for it (R76, R91). What was sent before the bay was declared with another kind is taken by its
present kind (log 45). R86: the conversions of a grant, and its exact round trip. -/
def Obligations.AcknowledgementTaken : Prop :=
  (∀ (b : BayId) (r : BayReport) (s : State),
    let y := s.bay b
    let sent := (s.bayDevice b).lastSent.toNat
    let acked := fun ack : Nat => { y with
      grantAck := ack, ackWait := if ack ≤ y.grantSet then none else y.ackWait }
    let t := takeAck b r s
    (r.output = false → t.bay b = acked 0)
      ∧ (r.output = true → y.state = .fault ∨ y.state = .blocked → t = s)
      ∧ (r.output = true → y.state ≠ .fault → y.state ≠ .blocked → r.applied ≤ sent →
          t.bay b = acked (y.kind.toSteps r.applied))
      ∧ (r.output = true → y.state ≠ .fault → y.state ≠ .blocked → sent < r.applied → s.liveSlot b = none →
          t.bay b = { y with
              grantSet := 0, grantAck := y.kind.toSteps sent, ackWait := none, state := .fault, session := none
              stopFlag := true, message := none }
            ∧ Counted .bayFault b.val 0 s t)
      ∧ (∀ k, r.output = true → y.state ≠ .fault → y.state ≠ .blocked → sent < r.applied → s.liveSlot b = some k →
          (s.slot k).bay = b →
          Settled k b (some .bayFault) s t ∧ Failed b s t ∧ (t.bay b).grantAck = y.kind.toSteps sent ∧ OnlyAt k b s t)
      ∧ (r.output = false ∨ r.applied ≤ sent → t.hp = s.hp ∧ t.st = s.st
          ∧ t.al = if (t.bay b).committed < y.committed then (requestPass s).al else s.al)
      ∧ (y.declared = true → (t.bay b).committed ≤ s.standing b)
      ∧ (∀ c, c ≠ b → s.liveSlot b = none → t.bay c = s.bay c)
      ∧ t.sc = s.sc ∧ t.flc = s.flc ∧ t.tc = s.tc)
    ∧ ∀ (g a : Nat),
      BayKind.toWire .ac1 g = g * 100 / (23 * 1) ∧ BayKind.toWire .ac3 g = g * 100 / (23 * 3) ∧ BayKind.toWire .dc g = g
        ∧ (a * 23 * 1 ≤ 100 * BayKind.toSteps .ac1 a ∧ 100 * BayKind.toSteps .ac1 a < a * 23 * 1 + 100)
        ∧ (a * 23 * 3 ≤ 100 * BayKind.toSteps .ac3 a ∧ 100 * BayKind.toSteps .ac3 a < a * 23 * 3 + 100)
        ∧ BayKind.toSteps .dc a = a
        ∧ ∀ kind : BayKind, kind.toSteps (kind.toWire g) = g

/-- Steps 4 to 6, 9 and 10 of a bay report after the acknowledgement (R43, R44, R54, R55, R57, R59, R62, R72): the completion of an
ending with the output off, a fault code, an unplug, the stop button, and the demand with its pass request. A session that is to
end at an OFFLINE bay is settled by the reading of log 30. -/
def Obligations.ReportStepsTaken : Prop :=
  (∀ (b : BayId) (k : SlotId) (r : BayReport) (s : State), s.liveSlot b = some k → (s.slot k).bay = b →
    let x := s.slot k
    let y := s.bay b
    let ended := { y with
      scan := .empty, lostDeadline := none, grantSet := 0, ackWait := if y.grantAck = 0 then none else y.ackWait }
    (x.state = .ending → r.output = false →
        let t := completeEnding b r s
        stepAck b r s = completeEnding b r (takeAck b r s)
          ∧ Settled k b x.endCause s t ∧ (t.slot k).flags = x.flags ∧ OnlyAt k b s t
          ∧ t.bay b = if r.plug then { ended with state := .stopped, session := some k, stopFlag := true }
            else { ended with state := .idle, session := none })
      ∧ (r.output = true ∨ x.state ≠ .ending → stepAck b r s = takeAck b r s)
      ∧ (r.faultCode ≠ 0 → y.state ≠ .fault → y.state ≠ .blocked →
        let t := stepFault b r s
        Settled k b (some .bayFault) s t ∧ Failed b s t ∧ (t.bay b).grantAck = y.grantAck
          ∧ (t.slot k).flags = x.flags ∧ OnlyAt k b s t)
      ∧ (r.plug = false → x.state = .opening → x.energyWh = 0 → stepUnplugged b r s =
          (s.setSlot k {}).setBay b (if y.plug then
              { y with scan := .empty, lostDeadline := none, state := .stopped, session := none, stopFlag := true }
            else { y with scan := .empty, lostDeadline := none, state := .idle, session := none }))
      ∧ (r.plug = false → (x.state = .opening → 0 < x.energyWh ∧ y.plug = false) →
        let t := stepUnplugged b r s
        Settled k b (if x.state = .ending then x.endCause else some .unplugged) s t
          ∧ t.bay b = { ended with state := .idle, session := none } ∧ (t.slot k).flags = x.flags ∧ OnlyAt k b s t)
      ∧ (r.stopButton = true → x.state.queued = true →
        let t := stepButton b r s
        (s.bayOnline b = true → EndingEntered k b .customerStop s t) ∧ (s.bayOnline b = false → EndingLost k b s t))
      ∧ (r.stopButton = true → x.state = .opening → x.energyWh = 0 → stepButton b r s =
          (s.setSlot k {}).setBay b (if y.plug then
              { y with scan := .empty, lostDeadline := none, state := .stopped, session := none, stopFlag := true }
            else { y with scan := .empty, lostDeadline := none, state := .idle, session := none }))
      ∧ (r.stopButton = true → x.state = .opening → 0 < x.energyWh →
        let t := stepButton b r s
        Settled k b (some .customerStop) s t ∧ OnlyAt k b s t
          ∧ t.bay b = if y.plug then { ended with state := .stopped, session := some k, stopFlag := true }
            else { ended with state := .idle, session := none })
      ∧ (r.stopButton = true → x.state = .ending → stepButton b r s = s)
      ∧ ∀ demand,
        let kept := s.setSlot k { x with demand := demand }
        let t := takeDemand b demand s
        ((s.al.queue.map (·.slot)).Nodup → ∀ m ∈ s.al.queue, m.slot = k →
            let moved := m.demandInUse + 2 ≤ demand ∨ demand + 2 ≤ m.demandInUse ∨ ¬(demand = 0 ↔ m.demandInUse = 0)
            ((x.state = .waiting ∨ x.state = .charging) → x.runPermit = true → moved → t = requestPass kept)
              ∧ (¬((x.state = .waiting ∨ x.state = .charging) ∧ x.runPermit = true ∧ moved) → t = kept))
          ∧ ((∀ m ∈ s.al.queue, m.slot ≠ k) → t = kept))
    ∧ ∀ (b : BayId) (r : BayReport) (s : State),
      (s.liveSlot b = none →
        (r.faultCode ≠ 0 → (s.bay b).state ≠ .fault → (s.bay b).state ≠ .blocked →
            let t := stepFault b r s
            Failed b s t ∧ t.bay b = { s.bay b with
                state := .fault, session := none, stopFlag := true, message := none, ackWait := none, grantSet := 0 }
              ∧ (∀ c, c ≠ b → t.bay c = s.bay c) ∧ Counted .bayFault b.val 0 s t ∧ t.st = s.st ∧ t.cs = s.cs)
          ∧ (r.plug = false → (s.bay b).state = .waitingSlot ∨ (s.bay b).state = .stopped →
              stepUnplugged b r s = s.setBay b { s.bay b with state := .idle, session := none })
          ∧ (r.plug = false → (s.bay b).state ≠ .waitingSlot → (s.bay b).state ≠ .stopped → stepUnplugged b r s = s)
          ∧ stepAck b r s = takeAck b r s ∧ stepButton b r s = s ∧ ∀ demand, takeDemand b demand s = s)
        ∧ (r.faultCode = 0 ∨ (s.bay b).state = .fault ∨ (s.bay b).state = .blocked → stepFault b r s = s)
        ∧ (r.plug = true → stepUnplugged b r s = s) ∧ (r.stopButton = false → stepButton b r s = s)

/-- Authorisation, a card approval, a token scan and a receipt scan (R48 to R51, R110, R113 to R116, R127, R128, R133, R135, R148):
each is followed by the authorisation of a session in OPENING, which gives it its arrival number and its place in the queue and asks
for a pass. A token with key 0 finds no account (log 34), a PENDING scan slot ends the message (log 36), and a session that is to
end at an OFFLINE bay is settled by the reading of log 30. -/
def Obligations.CardsAndScansTaken : Prop :=
  (∀ (k : SlotId) (s : State),
    let x := s.slot k
    let t := authoriseIfOpening k s
    (x.state ≠ .opening → t = s)
      ∧ (x.state = .opening →
        let shed := s.shedActive = true ∧ s.sc.lines.scope.has x.cls = true
        let joined := { x with authDeadline := none, arrival := s.st.arrival }
        let member : Member := ⟨k, x.cls, s.st.arrival, 0⟩
        (shed → t.slot k = { joined with state := .suspended, suspendCause := some .shed, runPermit := false })
          ∧ (¬shed → t.slot k = { joined with state := .waiting, runPermit := true })
          ∧ t.st.arrival = (s.st.arrival + 1) % 4294967296 ∧ t.st.sequence = s.st.sequence
          ∧ (∃ before behind, s.al.queue = before ++ behind ∧ t.al.queue = before ++ member :: behind
              ∧ (∀ m ∈ before, member.before m = false) ∧ ∀ m, behind.head? = some m → member.before m = true)
          ∧ PassAsked s t ∧ ResultsKept s t ∧ (∀ j, j ≠ k → t.slot j = s.slot j)
          ∧ t.bays = s.bays ∧ t.sc = s.sc ∧ t.flc = s.flc ∧ t.cs = s.cs ∧ t.tc = s.tc ∧ t.hp = s.hp))
    ∧ (∀ (x y : Member), x.before y = true ↔
        x.cls.rank < y.cls.rank ∨ (x.cls.rank = y.cls.rank ∧ x.arrival < y.arrival))
    ∧ (∀ (k : SlotId) (s : State),
      let x := s.slot k
      let t := testSpendCap k s
      let reached := x.payment = .card ∧ x.state.queued = true ∧ ∃ cap, x.spendCap = some cap ∧ cap * 10000000 ≤ x.cost
      (reached → s.bayOnline x.bay = true → EndingEntered k x.bay .capReached s t)
        ∧ (reached → s.bayOnline x.bay = false → EndingLost k x.bay s t) ∧ (¬reached → t = s))
    ∧ (∀ (b : BayId) (k : SlotId) (r : BayReport) (s : State),
      let x := s.slot k
      (∀ cap, r.cardCap = some cap → s.liveSlot b = some k → cap ≠ 0 → x.payment ≠ .account →
          stepCard b r s = testSpendCap k (authoriseIfOpening k
            (s.setSlot k { x with payment := .card, spendCap := some cap })))
        ∧ (r.cardCap = none ∨ r.cardCap = some 0 ∨ s.liveSlot b = none
            ∨ (s.liveSlot b = some k ∧ x.payment = .account) → stepCard b r s = s))
    ∧ (∀ (b : BayId) (s : State), stepScan b none s = s ∧ ∀ sc, stepScan b (some sc) s = takeScan sc b s)
    ∧ (∀ (sc : Scan) (b : BayId) (s : State), s.liveSlot b = none →
      takeScan sc b s = s.setBay b { s.bay b with message := some ⟨.plugFirst, 3, false⟩ })
    ∧ (∀ (key : Nat) (b : BayId) (k : SlotId) (s : State), s.liveSlot b = some k →
      let x := s.slot k
      let t := takeScan ⟨.token, key⟩ b s
      let shows := fun c : MessageCode => s.setBay b { s.bay b with message := some ⟨c, 3, false⟩ }
      (x.state ≠ .opening ∨ key = 0 ∨ (∀ i, (s.account i).enabled = true → (s.account i).token ≠ key) →
          t = shows .creditNotValid)
        ∧ ∀ i, AccountInv s → x.state = .opening → key ≠ 0 → (s.account i).enabled = true → (s.account i).token = key →
          let a := s.account i
          let paid := { x with
            payment := .account, accountIndex := some i, accountHold := true
            cls := match a.cls with | .firm => .firm | .ordinary => x.cls }
          let y := { s.bay b with scan := .empty, message := some ⟨.creditOk, 3, false⟩ }
          let w := min s.cs.blockSize a.remainingWh
          (a.maxHolders ≤ a.holders → t = shows .creditInUse)
            ∧ (a.holders < a.maxHolders → a.allowanceWh = 0 → t = authoriseIfOpening k
                (((s.setAccount i { a with holders := a.holders + 1 }).setSlot k paid).setBay b y))
            ∧ (a.holders < a.maxHolders → 0 < a.remainingWh → t = authoriseIfOpening k
                (((s.setAccount i { a with holders := a.holders + 1, remainingWh := a.remainingWh - w }).setSlot k { paid with
                  source := some (.account i), blockLeft := w * 1000, finalBlock := decide (a.remainingWh = w) }).setBay b y))
            ∧ (a.holders < a.maxHolders → 0 < a.allowanceWh → a.remainingWh = 0 → x.blockLeft = 0 →
                ∃ u, t = authoriseIfOpening k u ∧ u.bay b = y ∧ u.account i = a
                  ∧ u.slot k = { paid with accountHold := false, source := none, blockLeft := 0, finalBlock := false }
                  ∧ Counted .accountExhausted i.val 0 s u ∧ u.hp.attn = u.attnDue ∧ u.al = s.al
                  ∧ u.cs.credits = s.cs.credits ∧ (∀ j, j ≠ i → u.account j = s.account j) ∧ OnlyAt k b s u))
    ∧ ∀ (key : Nat) (b : BayId) (k : SlotId) (s : State), s.liveSlot b = some k →
      let x := s.slot k
      let y := s.bay b
      let t := takeScan ⟨.receipt, key⟩ b s
      let ends := fun c : MessageCode => s.setBay b { y with message := some ⟨c, 3, false⟩, scan := .empty }
      (x.state = .ending → t = s.setBay b { y with message := some ⟨.creditNotValid, 3, false⟩ })
        ∧ (x.state ≠ .ending → x.source ≠ none → t = ends .creditInUse)
        ∧ (x.state ≠ .ending → x.source = none → x.payment = .account → t = ends .creditNotValid)
        ∧ (x.state ≠ .ending → x.source = none → x.payment ≠ .account →
          (∀ c, lookupCredit key s = some c → c.state = .held → t = ends .creditInUse)
            ∧ (∀ c, lookupCredit key s = some c → c.state = .issued → 0 < c.remainingWh →
              let w := min s.cs.blockSize c.remainingWh
              t = authoriseIfOpening k
                (((s.setCredits (s.cs.credits.map fun z => if z.key = key then { z with
                    state := .held, holder := some k, remainingWh := z.remainingWh - w } else z)).setSlot k { x with
                    source := some (.credit key), lastCreditKey := some key, blockLeft := w * 1000
                    finalBlock := decide (c.remainingWh = w) }).setBay b { y with
                    message := some ⟨.creditOk, 3, false⟩, scan := .empty }))
            ∧ (lookupCredit key s = none →
              t.bay b = { y with
                  scan := .pending key (match y.scan with | .empty => 0 | .pending _ n _ => min 255 (n + 1))
                    (s.runTimer + s.sc.timing.tQuery * 1000)
                  message := none }
                ∧ (∀ c, c ≠ b → t.bay c = s.bay c) ∧ Counted .creditQuery b.val key s t ∧ t.hp.attn = t.attnDue
                ∧ t.st = s.st ∧ t.al = s.al ∧ t.cs = s.cs ∧ t.sc = s.sc ∧ t.flc = s.flc ∧ t.tc = s.tc))

/-- Good source reports (R29, R35 to R37, R73, R74, R17): the source record takes the report; a pass is requested by a load or a
canopy total that has moved by 10 steps from the one last used, by a change of the permit, and by a device that comes ONLINE, and by
nothing else. The value last used is that of the latest snapshot (log 8), and the instant of the snapshot is the reading of log 6. -/
def Obligations.SourceReportsTaken : Prop :=
  ∀ (p : Poll) (d : Nat) (chars : List RxChar) (s : State), PassSampled s → s.flc.exchange = .awaiting p d →
    p.removed = false →
    let link := (s.device p.entry).link
    (∀ load, p.entry = 55 → judge p.entry chars = .ok (.meter load) →
        ∃ t, exec (.responseReceived chars) s = .next t
          ∧ t.al.storeLoad = load
          ∧ (link = .offline ∨ 10 ≤ load - s.al.usedLoad ∨ 10 ≤ s.al.usedLoad - load → PassRequested s t)
          ∧ (link = .online → load < s.al.usedLoad + 10 → s.al.usedLoad < load + 10 → t.al = { s.al with storeLoad := load })
          ∧ t.sc = s.sc ∧ t.al.share = s.al.share ∧ t.al.battery = s.al.battery ∧ t.al.inverters = s.al.inverters
          ∧ t.al.permit = s.al.permit)
      ∧ (∀ (k : InverterId) power, p.entry.val = 48 + k.val → judge p.entry chars = .ok (.canopy power) →
        ∃ t, exec (.responseReceived chars) s = .next t
          ∧ t.inverter k = { s.inverter k with lastPower := min power (s.inverter k).rating }
          ∧ (∀ j, j ≠ k → t.inverter j = s.inverter j)
          ∧ (link = .offline ∨ 10 ≤ t.canopyTotal - s.al.usedCanopy ∨ 10 ≤ s.al.usedCanopy - t.canopyTotal → PassRequested s t)
          ∧ (link = .online → t.canopyTotal < s.al.usedCanopy + 10 → s.al.usedCanopy < t.canopyTotal + 10 →
              t.al = { s.al with inverters := t.al.inverters })
          ∧ t.sc = s.sc ∧ t.al.share = s.al.share ∧ t.al.battery = s.al.battery ∧ t.al.storeLoad = s.al.storeLoad
          ∧ t.al.permit = s.al.permit)
      ∧ (∀ soe applied, p.entry = 54 → judge p.entry chars = .ok (.battery soe applied) →
        let soe' := min soe s.sc.eCap
        ∃ t, exec (.responseReceived chars) s = .next t
          ∧ t.al.battery = { s.al.battery with soe := soe', applied := applied }
          ∧ t.al.permit = (if soe' ≤ s.sc.eFloor then false
              else if s.sc.eFloor + (s.sc.eCap + 99) / 100 ≤ soe' then true else s.al.permit)
          ∧ (link = .offline ∨ t.al.permit ≠ s.al.permit → PassRequested s t)
          ∧ (link = .online → t.al.permit = s.al.permit → t.al = { s.al with battery := t.al.battery })
          ∧ t.sc = { s.sc with
              reserve := if s.sc.reserve = .claimed ∧ applied = 0 then .granted else s.sc.reserve }
          ∧ t.al.share = s.al.share ∧ t.al.inverters = s.al.inverters ∧ t.al.storeLoad = s.al.storeLoad)
      ∧ ∀ r, 48 ≤ p.entry.val → judge p.entry chars = .ok r →
        ∃ t, exec (.responseReceived chars) s = .next t
          ∧ t.device p.entry = { s.device p.entry with missCount := 0, lastReportTime := s.runTimer, link := .online }
          ∧ (∀ e, e ≠ p.entry → t.device e = s.device e) ∧ t.flc.exchange = .quiet ∧ t.flc.gapFrom = s.runTimer
          ∧ (link = .online → t.hp = s.hp)
          ∧ (link = .offline → Counted .loopDevice (loopAddress p.entry) 0 s t ∧ t.hp.attn = t.attnDue
              ∧ t.hp.port = s.hp.port)
          ∧ t.al.queue.map (·.slot) = s.al.queue.map (·.slot) ∧ t.al.lastPass = s.al.lastPass
          ∧ t.bays = s.bays ∧ t.st = s.st ∧ t.cs = s.cs ∧ t.tc = s.tc

/-! ## The allocator (chapter 4) -/

/-- REFRESH_TIMER_EXPIRY and PASS_END (R69, R70, R84, R85, R87 to R91, R95): the refresh begins a pass; a pass that ends writes the
grants, each ending the ack wait of a bay whose grant_ack is at or below it, the session states, the shares with their pass number,
the setpoint, the canopy limits and the last-pass record, and then the next pass begins or the refresh timer starts.
A session is the one of the snapshot by its slot and sequence number (log 41). The instant of the snapshot and the pass for each
lowering are the readings of logs 6 and 7, the marks `fresh` those of log 32. -/
def Obligations.PassesBeginAndEnd : Prop :=
  (∀ (d : Nat) (s : State), PassSampled s → s.al.refresh = some d → d ≤ s.runTimer → s.sc.gate = .opened →
      s.al.passState = .idle →
      ∃ t, exec .refreshTimerExpiry s = .next t ∧ PassRequested s t ∧ ResultsKept s t
        ∧ t.sc = s.sc ∧ t.flc = s.flc ∧ t.bays = s.bays ∧ t.st = s.st ∧ t.cs = s.cs ∧ t.tc = s.tc ∧ t.hp = s.hp)
    ∧ ∀ (n : Snapshot) (s : State), PassInv s → s.al.passState = .running → s.al.snapshot = some n →
      let c := n.compute
      let still := fun x : Claim => (s.bay x.bay).session = some x.slot ∧ (s.slot x.slot).sequence = x.sequence
        ∧ ((s.slot x.slot).state = .waiting ∨ (s.slot x.slot).state = .charging) ∧ (s.slot x.slot).runPermit = true
        ∧ s.bayOnline x.bay = true ∧ (s.bay x.bay).stopFlag = false
      ∃ t, exec .passEnd s = .next t
        ∧ (s.al.again = true → t.al.passState = .running)
        ∧ (s.al.again = false → (∀ b, (s.bay b).committed ≤ (t.bay b).committed) → t.al.passState = .idle)
        ∧ (t.al.passState = .running → t.al.snapshot = some t.takeSnapshot ∧ t.al.refresh = none ∧ t.al.again = false)
        ∧ (t.al.passState = .idle → t.al.snapshot = none ∧ t.al.refresh = some (s.runTimer + 5000))
        ∧ (∀ b, (s.bay b).declared = true → (∀ x ∈ c.claims, x.bay = b → ¬still x) →
            (s.bayOnline b = true ∨ s.liveSlot b = none → (t.bay b).grantSet = 0)
              ∧ (s.bayOnline b = false → (s.liveSlot b).isSome = true → t.bay b = s.bay b))
        ∧ (∀ x ∈ c.claims, (∀ z ∈ c.claims, z.bay = x.bay ∨ z.slot = x.slot → z = x) →
            (s.bay x.bay).declared = true → still x →
            (t.bay x.bay).grantSet = x.g
              ∧ t.slot x.slot = { s.slot x.slot with state := if 0 < x.g then .charging else .waiting })
        ∧ (∀ b, (s.bay b).declared = true → 0 < (t.bay b).grantSet → t.bay b = s.bay b
            ∨ (∃ x ∈ c.claims, x.bay = b ∧ still x ∧ (t.bay b).grantSet = x.g)
              ∧ ((n.bays[b.val]).minSteps ≤ (n.bays[b.val]).maxSteps →
                (n.bays[b.val]).minSteps ≤ (t.bay b).grantSet ∧ (t.bay b).grantSet ≤ (n.bays[b.val]).maxSteps))
        ∧ (∀ b, (s.bay b).declared = false → t.bay b = s.bay b)
        ∧ (∀ b,
            let written := (s.bay b).declared = true
              ∧ ((∃ x ∈ c.claims, x.bay = b ∧ still x) ∨ s.bayOnline b = true ∨ s.liveSlot b = none)
            (written → t.bay b = { s.bay b with
                grantSet := (t.bay b).grantSet
                ackWait := if (s.bay b).grantAck ≤ (t.bay b).grantSet then none else (s.bay b).ackWait })
              ∧ (¬written → t.bay b = s.bay b))
        ∧ (∀ b, (t.bay b).committed = max (t.bay b).grantSet (s.bay b).grantAck)
        ∧ (∀ k, (∀ x ∈ c.claims, x.slot = k → ¬still x) → t.slot k = s.slot k)
        ∧ t.al.share.passNumber = (if 65535 ≤ s.al.share.passNumber then 1 else s.al.share.passNumber + 1)
        ∧ t.al.share.solar + t.al.share.battery + t.al.share.grid = 1000
        ∧ t.grantSum = ((List.finRange 48).map fun b => if (t.bay b).declared then (t.bay b).grantSet else 0).sum
        ∧ (t.grantSum = 0 → t.al.share.solar = 0 ∧ t.al.share.battery = 0)
        ∧ (0 < t.grantSum →
            t.al.share.solar = min (c.canopy - c.charge) t.grantSum * 1000 / t.grantSum
              ∧ t.al.share.battery =
                min c.discharge (t.grantSum - min (c.canopy - c.charge) t.grantSum) * 1000 / t.grantSum)
        ∧ t.al.battery = { s.al.battery with
            setpoint := if s.sc.reserve ≠ .free ∨ s.al.battery.fresh = true then 0
              else if 0 < c.discharge then (c.discharge : Int) else -(c.charge : Int)
            fresh := false }
        ∧ (let net : Int := (c.load : Int) + t.grantSum + c.charge - c.canopy - c.discharge
          let total : Option Nat :=
            if net < -(n.exportCap : Int) then some ((c.canopy : Int) + net + n.exportCap).toNat else none
          let rated := (n.inverters.toList.map fun v => if v.declared then v.rating else 0).sum
          (∀ k : InverterId,
              let v := s.inverter k
              let w := n.inverters[k.val]
              (w.declared = true → (s.device (Role.canopy k).entry).declared = true → v.fresh = false →
                  t.inverter k = { v with limit := match total with | some m => m * w.rating / rated | none => w.rating })
                ∧ (w.declared = false ∨ (s.device (Role.canopy k).entry).declared = false ∨ v.fresh = true →
                  t.inverter k = { v with fresh := false }))
            ∧ t.al.lastPass = {
                load := c.load, canopy := c.canopy, b0 := c.b0, dm := c.dm, discharge := c.discharge, charge := c.charge
                budget := c.budget, granted := t.grantSum, netImport := net, curtailed := total
                setpoint := t.al.battery.setpoint
                batteryAvailable := decide (n.batteryDeclared = true ∧ n.batteryOnline = true ∧ n.reserve = .free)
                held := c.held, trimmed := c.trimmed })
        ∧ (c.held = 0 → t.hp.notices = s.hp.notices) ∧ (0 < c.held → Counted .supplyShort c.held 0 s t)
        ∧ t.al.queue.map (·.slot) = s.al.queue.map (·.slot) ∧ t.al.permit = s.al.permit ∧ t.al.storeLoad = s.al.storeLoad
        ∧ t.sc = s.sc ∧ t.flc = s.flc ∧ t.cs = s.cs ∧ t.tc = s.tc ∧ t.hp.port = s.hp.port

/-- Stages 1 to 4 of a pass and its snapshot (R75 to R80, R85, R90): the load, the canopy total, b0, the eligible sessions in the
order of the queue with want and cap, the demand, the discharge and the charge, the budget, and the counts of sessions held and of
increases trimmed; the records that the snapshot copies, and the standing power of a bay. What was sent to a bay before it was
declared with another kind is taken by its present kind (log 45), and a poll
being sent to a bay that was removed and declared anew meanwhile does not count (log 50). -/
def Obligations.BudgetComputed : Prop :=
  (∀ n : Snapshot,
    let c := n.compute
    let eligible := fun m : SnapMember => (m.state = .waiting ∨ m.state = .charging) ∧ m.runPermit = true
      ∧ (n.bays[m.bay.val]).online = true ∧ (n.bays[m.bay.val]).state = .occupied
      ∧ (n.bays[m.bay.val]).session = some m.slot ∧ (n.bays[m.bay.val]).stopFlag = false
    let claims := fun (m : SnapMember) (x : Claim) =>
      let y := n.bays[m.bay.val]
      let d := min m.demand y.maxSteps
      x.slot = m.slot ∧ x.sequence = m.sequence ∧ x.bay = m.bay ∧ x.cls = m.cls ∧ x.feeder = y.feeder ∧ x.min = y.minSteps
        ∧ x.h = y.standing
        ∧ (d = 0 → x.want = 0 ∧ x.cap = 0)
        ∧ (0 < d → m.cls = .firm → x.want = max (min m.firmSteps d) y.minSteps ∧ x.cap = x.want)
        ∧ (0 < d → m.cls ≠ .firm → x.want = y.minSteps ∧ x.cap = max d y.minSteps)
    let available := n.batteryDeclared = true ∧ n.batteryOnline = true ∧ n.reserve = .free
    c.load = (if n.meterDeclared = true ∧ n.meterOnline = true then n.storeLoad else n.fallbackLoad)
      ∧ c.canopy = (n.inverters.toList.map fun v => if v.declared && v.online then v.lastPower else 0).sum
      ∧ c.b0 = (n.importCap : Int) - n.margin - c.load + c.canopy
      ∧ (∀ x ∈ c.claims, ∃ m ∈ n.queue, eligible m ∧ claims m x)
      ∧ (∀ m ∈ n.queue, eligible m → ∃ x ∈ c.claims, claims m x)
      ∧ (c.claims.map (·.slot)).Sublist (n.queue.map (·.slot))
      ∧ c.claims.map (fun x => { x with g := 0 }) = n.claims
      ∧ (∀ x ∈ c.claims, (n.bays[x.bay.val]).minSteps ≤ (n.bays[x.bay.val]).maxSteps →
          x.cap ≤ (n.bays[x.bay.val]).maxSteps)
      ∧ c.dm = (c.claims.map (·.cap)).sum
      ∧ (c.b0 < c.dm → available → n.permit = true → (c.discharge : Int) = min (n.pDis : Int) (c.dm - c.b0))
      ∧ (¬(c.b0 < c.dm ∧ available ∧ n.permit = true) → c.discharge = 0)
      ∧ ((c.dm : Int) < c.b0 → available → n.soe < n.eCap →
          (c.charge : Int) = min (n.pCh : Int) (min (c.b0 - c.dm) c.canopy))
      ∧ (¬((c.dm : Int) < c.b0 ∧ available ∧ n.soe < n.eCap) → c.charge = 0)
      ∧ (c.discharge = 0 ∨ c.charge = 0)
      ∧ (c.budget : Int) = max 0 (c.b0 + c.discharge - c.charge)
      ∧ c.claims = n.holdBack c.budget (n.share c.budget)
      ∧ c.held = (c.claims.filter fun x => decide (0 < x.want ∧ x.g = 0)).length
      ∧ c.trimmed = (((n.share c.budget).zip c.claims).filter fun z => decide (z.2.g < z.1.g)).length)
    ∧ ∀ s : State,
      let n := s.takeSnapshot
      (n.importCap = s.sc.importCap ∧ n.margin = s.sc.margin ∧ n.exportCap = s.sc.exportCap
          ∧ n.feederLimits = s.sc.feederLimits ∧ n.eCap = s.sc.eCap ∧ n.eFloor = s.sc.eFloor ∧ n.pDis = s.sc.pDis
          ∧ n.pCh = s.sc.pCh ∧ n.permit = s.al.permit ∧ n.reserve = s.sc.reserve ∧ n.soe = s.al.battery.soe
          ∧ n.storeLoad = s.al.storeLoad)
        ∧ n.fallbackLoad = (match s.sc.fallback with | .follow => s.sc.importCap | .fixed load => load)
        ∧ (n.meterDeclared = (s.device 55).declared ∧ (n.meterOnline = true ↔ (s.device 55).link = .online)
          ∧ n.batteryDeclared = (s.device 54).declared ∧ (n.batteryOnline = true ↔ (s.device 54).link = .online))
        ∧ (∀ k : InverterId, n.inverters[k.val] = ⟨(s.device (Role.canopy k).entry).declared,
            decide ((s.device (Role.canopy k).entry).link = .online), (s.inverter k).rating, (s.inverter k).lastPower⟩)
        ∧ n.queue = s.al.queue.map (fun m =>
            let x := s.slot m.slot
            ⟨m.slot, x.sequence, m.cls, m.arrival, x.bay, x.state, x.runPermit, x.demand,
              match x.accountIndex with | some i => (s.account i).firmSteps | none => 0⟩)
        ∧ ∀ b : BayId,
          let y := s.bay b
          let sent := y.kind.toSteps (s.bayDevice b).lastSent.toNat
          n.bays[b.val] = ⟨y.declared, y.state, s.bayOnline b, y.session, y.stopFlag, y.kind, y.maxSteps, y.minSteps, y.feeder,
              s.standing b⟩
            ∧ (y.declared = false → s.standing b = 0)
            ∧ (y.declared = true →
              (∀ p, s.flc.exchange = .sending p → p.entry.val = b.val → p.removed = false →
                  s.standing b = max y.committed (max sent (y.kind.toSteps p.value.toNat)))
                ∧ ((∀ p, s.flc.exchange = .sending p → p.entry.val ≠ b.val ∨ p.removed = true) →
                  s.standing b = max y.committed sent))

/-- Stages 5 and 6 of a pass (R81, R82), and what they give through stage 7 (R83, R84): the rooms at the start; the walk of the
queue that gives each session its want while both its rooms have it, and a FIRM one the room left down to its minimum; the rounds
that give each taker one step while both rooms have one, until the site has none or a round has no taker; every grant 0 or between
the minimum and the cap; and the sums within the rooms. -/
def Obligations.AdmissionAndSharing : Prop :=
  (∀ (n : Snapshot) (b : Nat),
    let cs := n.claims
    let idle := fun on : SnapBay → Bool => ((List.finRange 48).map fun y : BayId =>
      if (n.bays[y.val]).declared = true ∧ on n.bays[y.val] = true ∧ (∀ c ∈ cs, c.bay ≠ y) then (n.bays[y.val]).standing
      else 0).sum
    let site := b - idle fun _ => true
    let feeder := fun f : FeederId => n.feederLimits[f.val] - idle fun y => y.feeder == f
    let admitted := admitWalk cs (n.startRooms cs b)
    let shared := n.share b
    let final := n.holdBack b shared
    (n.startRooms cs b).site = site ∧ (∀ f, (n.startRooms cs b).feeder f = feeder f)
      ∧ admitted.1.length = cs.length
      ∧ (∀ (i : Nat) (c : Claim), cs[i]? = some c →
          let before := admitted.1.take i
          let room := min (site - (before.map (·.g)).sum)
            (feeder c.feeder - ((before.filter fun z => z.feeder == c.feeder).map (·.g)).sum)
          admitted.1[i]? = some { c with g :=
            if c.want = 0 then 0 else if c.want ≤ room then c.want
            else if c.cls = .firm ∧ c.min ≤ room then room else 0 })
      ∧ admitted.2.site = site - (admitted.1.map (·.g)).sum
      ∧ (∀ f, admitted.2.feeder f = feeder f - ((admitted.1.filter fun z => z.feeder == f).map (·.g)).sum)
      ∧ (∃ rounds : Nat,
          let last := (fun r : List Claim × Rooms => shareRound r.1 r.2)^[rounds] admitted
          shared = last.1 ∧ (last.2.site = 0 ∨ (shareRound last.1 last.2).1 = last.1))
      ∧ (∀ x ∈ shared, x.g = 0 ∨ (x.min ≤ x.g ∧ x.g ≤ x.cap))
      ∧ (∀ x ∈ final, x.g = 0 ∨ (x.min ≤ x.g ∧ x.g ≤ x.cap))
      ∧ (shared.map (·.g)).sum ≤ site ∧ (final.map (·.g)).sum ≤ site
      ∧ (∀ f, ((shared.filter fun z => z.feeder == f).map (·.g)).sum ≤ feeder f
          ∧ ((final.filter fun z => z.feeder == f).map (·.g)).sum ≤ feeder f)
      ∧ List.Forall₂ (fun x y : Claim => y = { x with g := y.g } ∧ y.g ≤ x.g) shared final)
    ∧ ∀ (cs : List Claim) (r : Rooms),
      let next := shareRound cs r
      next.1.length = cs.length
        ∧ ∀ (i : Nat) (c : Claim), cs[i]? = some c →
          let given := fun l : List Claim × List Claim => (l.2.map (·.g)).sum - (l.1.map (·.g)).sum
          let here := fun l : List Claim => l.filter fun z => z.feeder == c.feeder
          let site := r.site - given (cs.take i, next.1.take i)
          let feeder := r.feeder c.feeder - given (here (cs.take i), here (next.1.take i))
          next.1[i]? = some (if c.cls ≠ .firm ∧ 0 < c.g ∧ c.g < c.cap ∧ 1 ≤ site ∧ 1 ≤ feeder then { c with g := c.g + 1 }
            else c)

/-- Stage 7 (R83): after the hold-back, the power counted on each feeder and on the site is within its limit, or no more than
the standing power counted there. -/
def Obligations.HoldBackKeepsLimits : Prop :=
  ∀ (n : Snapshot) (b : Nat),
    let final := n.holdBack b (n.share b)
    (∀ f : FeederId,
        let idle := n.idleStanding final fun y => y.feeder == f
        let claims := final.filter fun c => c.feeder == f
        (claims.map fun c => max c.g c.h).sum + idle ≤ max n.feederLimits[f.val] ((claims.map fun c => c.h).sum + idle))
      ∧ (let idle := n.idleStanding final fun _ => true
        (final.map fun c => max c.g c.h).sum + idle ≤ max b ((final.map fun c => c.h).sum + idle))

/-! ## Timers (R53, R63, R96, R100, R118) -/

/-- AUTH_DEADLINE and END_DEADLINE (R53, R56, R63): an OPENING session without energy is abandoned and one with energy settled
with AUTH_TIMEOUT; an ENDING session is settled with its cause and END_UNCONFIRMED, and its bay enters FAULT.
The instant of the snapshot of the pass is the reading of log 6. -/
def Obligations.SessionDeadlinesReached : Prop :=
  ∀ (k : SlotId) (d : Nat) (s : State), PassSampled s → d ≤ s.runTimer →
    let x := s.slot k
    let b := x.bay
    let y := s.bay b
    (x.state = .opening → x.authDeadline = some d →
        (x.energyWh = 0 → exec (.authDeadline k) s = .next { (s.setSlot k {}).setBay b (if y.plug then
              { y with scan := .empty, lostDeadline := none, state := .stopped, session := none, stopFlag := true }
            else { y with scan := .empty, lostDeadline := none, state := .idle, session := none }) with
          freeDraws := s.freeDraws + 1 })
          ∧ (0 < x.energyWh → ∃ t, exec (.authDeadline k) s = .next t
            ∧ (t.slot k).state = .settled ∧ (t.slot k).endCause = some .authTimeout
            ∧ (t.slot k).endTime = some ⟨s.tc.day, s.tc.second⟩ ∧ (t.slot k).authDeadline = none
            ∧ (t.slot k).source = none
            ∧ ((∀ key, x.source ≠ some (.credit key)) → (t.slot k).accountHold = false)
            ∧ (t.bay b).grantSet = 0 ∧ (t.bay b).scan = .empty
            ∧ (t.bay b).state = (if y.plug then .stopped else .idle)
            ∧ (t.bay b).session = (if y.plug then some k else none)
            ∧ Counted .receiptReady k.val 0 s t ∧ OnlyAt k b s t))
      ∧ (x.state = .ending → x.endDeadline = some d → ∃ t, exec (.endDeadline k) s = .next t
        ∧ (t.slot k).state = .settled ∧ (t.slot k).endCause = x.endCause
        ∧ (t.slot k).flags = { x.flags with endUnconfirmed := true }
        ∧ (t.slot k).endTime = some ⟨s.tc.day, s.tc.second⟩ ∧ (t.slot k).endDeadline = none
        ∧ (t.slot k).energyWh = x.energyWh ∧ (t.slot k).cost = x.cost
        ∧ (t.slot k).source = none
        ∧ ((∀ key, x.source ≠ some (.credit key)) → (t.slot k).accountHold = false)
        ∧ (∃ r, (t.slot k).receipt = some r ∧ r.slot = k ∧ r.sequence = x.sequence ∧ r.bay = b
            ∧ r.endCause = x.endCause ∧ r.energyWh = x.energyWh ∧ r.flags.endUnconfirmed = true)
        ∧ (t.bay b).state = .fault ∧ (t.bay b).session = none ∧ (t.bay b).grantSet = 0 ∧ (t.bay b).stopFlag = true
        ∧ (t.bay b).grantAck = y.grantAck ∧ (t.bay b).scan = .empty ∧ (t.bay b).message = none
        ∧ (t.bay b).ackWait = none ∧ (t.bay b).lostDeadline = none
        ∧ PassRequested s t ∧ OnlyAt k b s t)

/-- ACK_DEADLINE, LOST_DEADLINE and QUERY_DEADLINE (R43, R65, R96, R100, R101, R118); without a session in a live state the end of
the link-loss wait changes nothing else. The passes they ask for take their snapshots as log 6 reads them. -/
def Obligations.BayDeadlinesReached : Prop :=
  ∀ (b : BayId) (s : State), PassSampled s →
    (∀ w, (s.bay b).ackWait = some w → w.deadline ≤ s.runTimer → s.liveSlot b = none →
        ∃ t, exec (.ackDeadline b) s = .next t
          ∧ t.bay b = { s.bay b with
              state := .fault, session := none, stopFlag := true, message := none, ackWait := none, grantSet := 0 }
          ∧ (∀ c, c ≠ b → t.bay c = s.bay c) ∧ Counted .bayFault b.val 0 s t ∧ PassRequested s t
          ∧ ResultsKept s t ∧ t.st = s.st ∧ t.cs = s.cs ∧ t.sc = s.sc ∧ t.flc = s.flc ∧ t.tc = s.tc
          ∧ t.hp.port = s.hp.port)
      ∧ (∀ w k, (s.bay b).ackWait = some w → w.deadline ≤ s.runTimer → s.liveSlot b = some k → (s.slot k).bay = b →
        ∃ t, exec (.ackDeadline b) s = .next t
          ∧ (t.slot k).state = .settled ∧ (t.slot k).endCause = some .bayFault
          ∧ (t.bay b).state = .fault ∧ (t.bay b).session = none ∧ (t.bay b).grantSet = 0
          ∧ (t.bay b).grantAck = (s.bay b).grantAck ∧ (t.bay b).ackWait = none ∧ PassRequested s t ∧ OnlyAt k b s t)
      ∧ (∀ d k, (s.bay b).lostDeadline = some d → d ≤ s.runTimer → s.liveSlot b = some k → (s.slot k).bay = b →
        ∃ t, exec (.lostDeadline b) s = .next t
          ∧ (t.slot k).state = .settled ∧ (t.slot k).endCause = some .linkLost
          ∧ (t.bay b).state = .fault ∧ (t.bay b).session = none ∧ (t.bay b).grantSet = 0
          ∧ (t.bay b).grantAck = (s.bay b).grantAck ∧ (t.bay b).lostDeadline = none ∧ PassRequested s t ∧ OnlyAt k b s t)
      ∧ (∀ d, (s.bay b).lostDeadline = some d → d ≤ s.runTimer → s.liveSlot b = none →
        exec (.lostDeadline b) s =
          .next { s.setBay b { s.bay b with lostDeadline := none } with freeDraws := s.freeDraws + 1 })
      ∧ (∀ key n d, (s.bay b).scan = .pending key n d → d ≤ s.runTimer →
        exec (.queryDeadline b) s = .next { s.setBay b { s.bay b with
            scan := .empty, message := some ⟨.creditNotFound, 3, false⟩ } with
          freeDraws := s.freeDraws + 1 })

/-! ## Metering and receipts (chapters 8 and 9) -/

/-- Step 3 of a bay report hands the register, modulo 2 to the power of the meter width, to the bay's live session (R33, R139). The
absorption of a register (R140 to R148): the baseline, the wrapped difference, the plausibility bound, the split by the
shares, the coverage of the parts in the order solar, battery, grid from the open block, with a draw whenever the block empties, the
price of what is not covered, and the spend-cap test. -/
def Obligations.RegisterAbsorbed : Prop :=
  (∀ (b : BayId) (r : BayReport) (s : State),
    (∀ k, s.liveSlot b = some k → stepMeter b r s = absorb b k (r.register % 2 ^ (s.bay b).meterWidth) s)
      ∧ (s.liveSlot b = none → stepMeter b r s = s))
    ∧ (∀ (b : BayId) (k : SlotId) (register : Nat) (s : State),
    let x := s.slot k
    let y := s.bay b
    let delta := (register + 2 ^ y.meterWidth - y.lastRegister % 2 ^ y.meterWidth) % 2 ^ y.meterWidth
    let bound := (y.maxSteps * max 1 ((s.runTimer - y.lastReportTime) / 1000) + 35) / 36 + 50
    let t := absorb b k register s
    (t.bay b).lastRegister = register ∧ (t.bay b).lastReportTime = s.runTimer
      ∧ (x.baselineSet = false → t.slot k = { x with baselineSet := true } ∧ t.hp = s.hp)
      ∧ (x.baselineSet = true → delta = 0 → t.slot k = x ∧ t.hp = s.hp)
      ∧ (x.baselineSet = true → 0 < delta → (bound < delta ∨ 4294967295 < x.energyWh + delta) →
          t.slot k = { x with flags := { x.flags with meterDiscontinuity := true } } ∧ Counted .meterJump b.val 0 s t)
      ∧ (x.baselineSet = false ∨ delta = 0 ∨ bound < delta ∨ 4294967295 < x.energyWh + delta ∨
          (x.source = none ∧ x.spendCap = none) →
          t.bay b = { y with lastRegister := register, lastReportTime := s.runTimer }
            ∧ (∀ j, j ≠ k → t.slot j = s.slot j) ∧ (∀ c, c ≠ b → t.bay c = s.bay c) ∧ t.cs = s.cs ∧ t.al = s.al)
      ∧ (x.baselineSet = true → 0 < delta → delta ≤ bound → x.energyWh + delta ≤ 4294967295 →
          let solar := delta * s.al.share.solar
          let battery := delta * s.al.share.battery
          let grid := delta * s.al.share.grid
          let accrued := { x with
            energyWh := x.energyWh + delta, solar := x.solar + solar, battery := x.battery + battery, grid := x.grid + grid }
          let u := coverAll k solar battery grid (s.setSlot k accrued)
          let z := u.state.slot k
          let price := u.solar * s.tc.canopyPrice + (u.battery + u.grid) * s.tc.bandPrice
          let priced := testSpendCap k (u.state.setSlot k { z with cost := z.cost + price })
          t = priced.setBay b { priced.bay b with lastRegister := register, lastReportTime := s.runTimer }
            ∧ (x.source = none → x.spendCap = none → t.hp = s.hp ∧ t.slot k = { accrued with
              cost := x.cost + (solar * s.tc.canopyPrice + (battery + grid) * s.tc.bandPrice) }))
      ∧ t.sc = s.sc ∧ t.flc = s.flc ∧ t.tc = s.tc)
    ∧ (∀ (k : SlotId) (solar battery grid : Nat) (s : State),
      let u := coverAll k solar battery grid s
      let c1 := cover k solar s
      let c2 := cover k battery c1.2
      let c3 := cover k grid c2.2
      ((s.slot k).source = none → u = ⟨solar, battery, grid, s⟩)
        ∧ ∀ src, (s.slot k).source = some src →
          (s.sourceSolarOnly src = true → u = ⟨c1.1, battery, grid, c1.2⟩)
            ∧ (s.sourceSolarOnly src = false → u = ⟨c1.1, c2.1, c3.1, c3.2⟩))
    ∧ (∀ (s : State) (i : AccountId), s.sourceSolarOnly (.account i) = (s.account i).solarOnly)
    ∧ (∀ s : State, CreditInv s → ∀ c ∈ s.cs.credits, s.sourceSolarOnly (.credit c.key) = c.solarOnly)
    ∧ ∀ (k : SlotId) (part : Nat) (s : State),
      let x := s.slot k
      let take := min part x.blockLeft
      let taken := s.setSlot k { x with covered := x.covered + take, blockLeft := x.blockLeft - take }
      (part = 0 ∨ x.source = none → cover k part s = (part, s))
        ∧ (x.source ≠ none → 0 < part → part < x.blockLeft → cover k part s = (0, taken))
        ∧ (x.source ≠ none → 0 < part → x.blockLeft ≤ part → 0 < s.cs.blockSize →
            cover k part s = cover k (part - take) (draw k taken))
        ∧ (cover k part s).1 ≤ part
        ∧ ((cover k part s).2.slot k).covered = x.covered + (part - (cover k part s).1)

/-- R156 and R157: the figures of a receipt. -/
def Obligations.ReceiptFigures : Prop :=
  ∀ (k : SlotId) (x : Slot),
    let r := receiptOf k x
    r.solarWh = x.solar / 1000 ∧ r.batteryWh = x.battery / 1000 ∧ r.coveredWh = x.covered / 1000
      ∧ (x.solar + x.battery + x.grid = 1000 * x.energyWh →
          r.solarWh + r.batteryWh + r.gridWh = x.energyWh ∧ x.grid / 1000 ≤ r.gridWh ∧ r.gridWh ≤ x.grid / 1000 + 2)
      ∧ (x.covered ≤ 1000 * x.energyWh → r.coveredWh ≤ x.energyWh)
      ∧ r.amountDue = (x.cost + 5000000) / 10000000

/-! ## Invariants -/

/-- The invariants hold right after reset. -/
def Obligations.InvariantsHoldAtReset : Prop :=
  GateInv State.reset ∧ PassInv State.reset ∧ ShareInv State.reset ∧ AttnInv State.reset ∧ DeclarationInv State.reset
    ∧ CreditInv State.reset ∧ AccountInv State.reset ∧ ReserveInv State.reset ∧ RangeInv State.reset
    ∧ SessionInv State.reset ∧ QueueInv State.reset ∧ PassSampled State.reset ∧ MeterInv State.reset ∧ LedgerInv State.reset

/-- Every step keeps the gate with its marks, the allocator's pass state, and the sum of the shares (R9, R10, R69, R70, R87); and
the reserve with RSV_REQ, and the setpoint at 0 while the reserve is not FREE (R16, R89, R108). The instant of the snapshot is the
reading of log 6. -/
def Obligations.AllocatorInvariantKept : Prop :=
  (∀ s t : State, GateInv s → PassInv s → ShareInv s → step s = .next t →
      GateInv t ∧ PassInv t ∧ ShareInv t ∧ PassSampled t)
    ∧ ∀ s t : State, ReserveInv s → step s = .next t → ReserveInv t

/-- R178: every step leaves ATTN asserted exactly under its condition, and at reset it is deasserted. -/
def Obligations.AttnInvariantKept : Prop :=
  State.reset.hp.attn = false ∧ ∀ s t : State, AttnInv s → step s = .next t → AttnInv t

/-- Every step keeps each bay record in agreement with its declaration, and the settings, the clock and the counters in their
ranges. -/
def Obligations.RecordInvariantKept : Prop :=
  ∀ s t : State, DeclarationInv s → RangeInv s → step s = .next t → DeclarationInv t ∧ RangeInv t

/-- Every step keeps the credit table and the accounts within their rules (R109, R126).
The ascending order is the model's (log 27). -/
def Obligations.CreditStoreInvariantKept : Prop :=
  ∀ s t : State, CreditInv s → AccountInv s → step s = .next t → CreditInv t ∧ AccountInv t

/-- Every step keeps live sessions and their bays naming each other, and the admission queue made of exactly the sessions in
WAITING, CHARGING and SUSPENDED (R46, R52, R56, R67). -/
def Obligations.SessionInvariantKept : Prop :=
  ∀ s t : State, SessionInv s → QueueInv s → step s = .next t → SessionInv t ∧ QueueInv t

/-- Every step keeps the parts of every session's energy summing to it, with no more than it covered (R145, R146); and the bays, the
sessions and the credits in agreement: a HELD credit and its holder's source name each other (R56, R119, R120, R133). -/
def Obligations.LedgerInvariantKept : Prop :=
  (∀ s t : State, ShareInv s → MeterInv s → step s = .next t → MeterInv t)
    ∧ ∀ s t : State, SessionInv s → CreditInv s → LedgerInv s → step s = .next t → LedgerInv t
end

