-- ==== Sys2Proof/Laws/State.lean ====
section
/-! SUPPORT. What each named update of the tables leaves and gives: one lemma for each field and each read. -/

namespace Sys2Proof.Machine

/-! ## setBay -/

@[simp] theorem setBay_pending (s : State) (b : BayId) (x : Bay) : (s.setBay b x).pending = s.pending := rfl
@[simp] theorem setBay_runTimer (s : State) (b : BayId) (x : Bay) : (s.setBay b x).runTimer = s.runTimer := rfl
@[simp] theorem setBay_freeDraws (s : State) (b : BayId) (x : Bay) : (s.setBay b x).freeDraws = s.freeDraws := rfl
@[simp] theorem setBay_sc (s : State) (b : BayId) (x : Bay) : (s.setBay b x).sc = s.sc := rfl
@[simp] theorem setBay_flc (s : State) (b : BayId) (x : Bay) : (s.setBay b x).flc = s.flc := rfl
@[simp] theorem setBay_st (s : State) (b : BayId) (x : Bay) : (s.setBay b x).st = s.st := rfl
@[simp] theorem setBay_al (s : State) (b : BayId) (x : Bay) : (s.setBay b x).al = s.al := rfl
@[simp] theorem setBay_cs (s : State) (b : BayId) (x : Bay) : (s.setBay b x).cs = s.cs := rfl
@[simp] theorem setBay_tc (s : State) (b : BayId) (x : Bay) : (s.setBay b x).tc = s.tc := rfl
@[simp] theorem setBay_hp (s : State) (b : BayId) (x : Bay) : (s.setBay b x).hp = s.hp := rfl
@[simp] theorem setBay_slot (s : State) (b : BayId) (x : Bay) (k' : SlotId) : (s.setBay b x).slot k' = s.slot k' := rfl
@[simp] theorem setBay_device (s : State) (b : BayId) (x : Bay) (e' : Entry) : (s.setBay b x).device e' = s.device e' := rfl
@[simp] theorem setBay_bayDevice (s : State) (b : BayId) (x : Bay) (b' : BayId) : (s.setBay b x).bayDevice b' = s.bayDevice b' := rfl
@[simp] theorem setBay_inverter (s : State) (b : BayId) (x : Bay) (j' : InverterId) : (s.setBay b x).inverter j' = s.inverter j' := rfl
@[simp] theorem setBay_account (s : State) (b : BayId) (x : Bay) (i' : AccountId) : (s.setBay b x).account i' = s.account i' := rfl
@[simp] theorem setBay_notice (s : State) (b : BayId) (x : Bay) (n' : NoticeKind) : (s.setBay b x).notice n' = s.notice n' := rfl

/-! ## setSlot -/

@[simp] theorem setSlot_pending (s : State) (k : SlotId) (x : Slot) : (s.setSlot k x).pending = s.pending := rfl
@[simp] theorem setSlot_runTimer (s : State) (k : SlotId) (x : Slot) : (s.setSlot k x).runTimer = s.runTimer := rfl
@[simp] theorem setSlot_freeDraws (s : State) (k : SlotId) (x : Slot) : (s.setSlot k x).freeDraws = s.freeDraws := rfl
@[simp] theorem setSlot_sc (s : State) (k : SlotId) (x : Slot) : (s.setSlot k x).sc = s.sc := rfl
@[simp] theorem setSlot_flc (s : State) (k : SlotId) (x : Slot) : (s.setSlot k x).flc = s.flc := rfl
@[simp] theorem setSlot_bays (s : State) (k : SlotId) (x : Slot) : (s.setSlot k x).bays = s.bays := rfl
@[simp] theorem setSlot_al (s : State) (k : SlotId) (x : Slot) : (s.setSlot k x).al = s.al := rfl
@[simp] theorem setSlot_cs (s : State) (k : SlotId) (x : Slot) : (s.setSlot k x).cs = s.cs := rfl
@[simp] theorem setSlot_tc (s : State) (k : SlotId) (x : Slot) : (s.setSlot k x).tc = s.tc := rfl
@[simp] theorem setSlot_hp (s : State) (k : SlotId) (x : Slot) : (s.setSlot k x).hp = s.hp := rfl
@[simp] theorem setSlot_st_sequence (s : State) (k : SlotId) (x : Slot) : (s.setSlot k x).st.sequence = s.st.sequence := rfl
@[simp] theorem setSlot_st_arrival (s : State) (k : SlotId) (x : Slot) : (s.setSlot k x).st.arrival = s.st.arrival := rfl
@[simp] theorem setSlot_bay (s : State) (k : SlotId) (x : Slot) (b' : BayId) : (s.setSlot k x).bay b' = s.bay b' := rfl
@[simp] theorem setSlot_device (s : State) (k : SlotId) (x : Slot) (e' : Entry) : (s.setSlot k x).device e' = s.device e' := rfl
@[simp] theorem setSlot_bayDevice (s : State) (k : SlotId) (x : Slot) (b' : BayId) : (s.setSlot k x).bayDevice b' = s.bayDevice b' := rfl
@[simp] theorem setSlot_inverter (s : State) (k : SlotId) (x : Slot) (j' : InverterId) : (s.setSlot k x).inverter j' = s.inverter j' := rfl
@[simp] theorem setSlot_account (s : State) (k : SlotId) (x : Slot) (i' : AccountId) : (s.setSlot k x).account i' = s.account i' := rfl
@[simp] theorem setSlot_notice (s : State) (k : SlotId) (x : Slot) (n' : NoticeKind) : (s.setSlot k x).notice n' = s.notice n' := rfl

/-! ## setDevice -/

@[simp] theorem setDevice_pending (s : State) (e : Entry) (x : Device) : (s.setDevice e x).pending = s.pending := rfl
@[simp] theorem setDevice_runTimer (s : State) (e : Entry) (x : Device) : (s.setDevice e x).runTimer = s.runTimer := rfl
@[simp] theorem setDevice_freeDraws (s : State) (e : Entry) (x : Device) : (s.setDevice e x).freeDraws = s.freeDraws := rfl
@[simp] theorem setDevice_sc (s : State) (e : Entry) (x : Device) : (s.setDevice e x).sc = s.sc := rfl
@[simp] theorem setDevice_bays (s : State) (e : Entry) (x : Device) : (s.setDevice e x).bays = s.bays := rfl
@[simp] theorem setDevice_st (s : State) (e : Entry) (x : Device) : (s.setDevice e x).st = s.st := rfl
@[simp] theorem setDevice_al (s : State) (e : Entry) (x : Device) : (s.setDevice e x).al = s.al := rfl
@[simp] theorem setDevice_cs (s : State) (e : Entry) (x : Device) : (s.setDevice e x).cs = s.cs := rfl
@[simp] theorem setDevice_tc (s : State) (e : Entry) (x : Device) : (s.setDevice e x).tc = s.tc := rfl
@[simp] theorem setDevice_hp (s : State) (e : Entry) (x : Device) : (s.setDevice e x).hp = s.hp := rfl
@[simp] theorem setDevice_flc_position (s : State) (e : Entry) (x : Device) : (s.setDevice e x).flc.position = s.flc.position := rfl
@[simp] theorem setDevice_flc_start (s : State) (e : Entry) (x : Device) : (s.setDevice e x).flc.start = s.flc.start := rfl
@[simp] theorem setDevice_flc_exchange (s : State) (e : Entry) (x : Device) : (s.setDevice e x).flc.exchange = s.flc.exchange := rfl
@[simp] theorem setDevice_flc_gapFrom (s : State) (e : Entry) (x : Device) : (s.setDevice e x).flc.gapFrom = s.flc.gapFrom := rfl
@[simp] theorem setDevice_bay (s : State) (e : Entry) (x : Device) (b' : BayId) : (s.setDevice e x).bay b' = s.bay b' := rfl
@[simp] theorem setDevice_slot (s : State) (e : Entry) (x : Device) (k' : SlotId) : (s.setDevice e x).slot k' = s.slot k' := rfl
@[simp] theorem setDevice_inverter (s : State) (e : Entry) (x : Device) (j' : InverterId) : (s.setDevice e x).inverter j' = s.inverter j' := rfl
@[simp] theorem setDevice_account (s : State) (e : Entry) (x : Device) (i' : AccountId) : (s.setDevice e x).account i' = s.account i' := rfl
@[simp] theorem setDevice_notice (s : State) (e : Entry) (x : Device) (n' : NoticeKind) : (s.setDevice e x).notice n' = s.notice n' := rfl

/-! ## setInverter -/

@[simp] theorem setInverter_pending (s : State) (k : InverterId) (x : Inverter) : (s.setInverter k x).pending = s.pending := rfl
@[simp] theorem setInverter_runTimer (s : State) (k : InverterId) (x : Inverter) : (s.setInverter k x).runTimer = s.runTimer := rfl
@[simp] theorem setInverter_freeDraws (s : State) (k : InverterId) (x : Inverter) : (s.setInverter k x).freeDraws = s.freeDraws := rfl
@[simp] theorem setInverter_sc (s : State) (k : InverterId) (x : Inverter) : (s.setInverter k x).sc = s.sc := rfl
@[simp] theorem setInverter_flc (s : State) (k : InverterId) (x : Inverter) : (s.setInverter k x).flc = s.flc := rfl
@[simp] theorem setInverter_bays (s : State) (k : InverterId) (x : Inverter) : (s.setInverter k x).bays = s.bays := rfl
@[simp] theorem setInverter_st (s : State) (k : InverterId) (x : Inverter) : (s.setInverter k x).st = s.st := rfl
@[simp] theorem setInverter_cs (s : State) (k : InverterId) (x : Inverter) : (s.setInverter k x).cs = s.cs := rfl
@[simp] theorem setInverter_tc (s : State) (k : InverterId) (x : Inverter) : (s.setInverter k x).tc = s.tc := rfl
@[simp] theorem setInverter_hp (s : State) (k : InverterId) (x : Inverter) : (s.setInverter k x).hp = s.hp := rfl
@[simp] theorem setInverter_al_queue (s : State) (k : InverterId) (x : Inverter) : (s.setInverter k x).al.queue = s.al.queue := rfl
@[simp] theorem setInverter_al_passState (s : State) (k : InverterId) (x : Inverter) : (s.setInverter k x).al.passState = s.al.passState := rfl
@[simp] theorem setInverter_al_snapshot (s : State) (k : InverterId) (x : Inverter) : (s.setInverter k x).al.snapshot = s.al.snapshot := rfl
@[simp] theorem setInverter_al_again (s : State) (k : InverterId) (x : Inverter) : (s.setInverter k x).al.again = s.al.again := rfl
@[simp] theorem setInverter_al_pendingRequest (s : State) (k : InverterId) (x : Inverter) : (s.setInverter k x).al.pendingRequest = s.al.pendingRequest := rfl
@[simp] theorem setInverter_al_refresh (s : State) (k : InverterId) (x : Inverter) : (s.setInverter k x).al.refresh = s.al.refresh := rfl
@[simp] theorem setInverter_al_permit (s : State) (k : InverterId) (x : Inverter) : (s.setInverter k x).al.permit = s.al.permit := rfl
@[simp] theorem setInverter_al_share (s : State) (k : InverterId) (x : Inverter) : (s.setInverter k x).al.share = s.al.share := rfl
@[simp] theorem setInverter_al_usedLoad (s : State) (k : InverterId) (x : Inverter) : (s.setInverter k x).al.usedLoad = s.al.usedLoad := rfl
@[simp] theorem setInverter_al_usedCanopy (s : State) (k : InverterId) (x : Inverter) : (s.setInverter k x).al.usedCanopy = s.al.usedCanopy := rfl
@[simp] theorem setInverter_al_battery (s : State) (k : InverterId) (x : Inverter) : (s.setInverter k x).al.battery = s.al.battery := rfl
@[simp] theorem setInverter_al_storeLoad (s : State) (k : InverterId) (x : Inverter) : (s.setInverter k x).al.storeLoad = s.al.storeLoad := rfl
@[simp] theorem setInverter_al_lastPass (s : State) (k : InverterId) (x : Inverter) : (s.setInverter k x).al.lastPass = s.al.lastPass := rfl
@[simp] theorem setInverter_bay (s : State) (k : InverterId) (x : Inverter) (b' : BayId) : (s.setInverter k x).bay b' = s.bay b' := rfl
@[simp] theorem setInverter_slot (s : State) (k : InverterId) (x : Inverter) (k' : SlotId) : (s.setInverter k x).slot k' = s.slot k' := rfl
@[simp] theorem setInverter_device (s : State) (k : InverterId) (x : Inverter) (e' : Entry) : (s.setInverter k x).device e' = s.device e' := rfl
@[simp] theorem setInverter_bayDevice (s : State) (k : InverterId) (x : Inverter) (b' : BayId) : (s.setInverter k x).bayDevice b' = s.bayDevice b' := rfl
@[simp] theorem setInverter_account (s : State) (k : InverterId) (x : Inverter) (i' : AccountId) : (s.setInverter k x).account i' = s.account i' := rfl
@[simp] theorem setInverter_notice (s : State) (k : InverterId) (x : Inverter) (n' : NoticeKind) : (s.setInverter k x).notice n' = s.notice n' := rfl

/-! ## setAccount -/

@[simp] theorem setAccount_pending (s : State) (i : AccountId) (x : Account) : (s.setAccount i x).pending = s.pending := rfl
@[simp] theorem setAccount_runTimer (s : State) (i : AccountId) (x : Account) : (s.setAccount i x).runTimer = s.runTimer := rfl
@[simp] theorem setAccount_freeDraws (s : State) (i : AccountId) (x : Account) : (s.setAccount i x).freeDraws = s.freeDraws := rfl
@[simp] theorem setAccount_sc (s : State) (i : AccountId) (x : Account) : (s.setAccount i x).sc = s.sc := rfl
@[simp] theorem setAccount_flc (s : State) (i : AccountId) (x : Account) : (s.setAccount i x).flc = s.flc := rfl
@[simp] theorem setAccount_bays (s : State) (i : AccountId) (x : Account) : (s.setAccount i x).bays = s.bays := rfl
@[simp] theorem setAccount_st (s : State) (i : AccountId) (x : Account) : (s.setAccount i x).st = s.st := rfl
@[simp] theorem setAccount_al (s : State) (i : AccountId) (x : Account) : (s.setAccount i x).al = s.al := rfl
@[simp] theorem setAccount_tc (s : State) (i : AccountId) (x : Account) : (s.setAccount i x).tc = s.tc := rfl
@[simp] theorem setAccount_hp (s : State) (i : AccountId) (x : Account) : (s.setAccount i x).hp = s.hp := rfl
@[simp] theorem setAccount_cs_credits (s : State) (i : AccountId) (x : Account) : (s.setAccount i x).cs.credits = s.cs.credits := rfl
@[simp] theorem setAccount_cs_blockSize (s : State) (i : AccountId) (x : Account) : (s.setAccount i x).cs.blockSize = s.cs.blockSize := rfl
@[simp] theorem setAccount_bay (s : State) (i : AccountId) (x : Account) (b' : BayId) : (s.setAccount i x).bay b' = s.bay b' := rfl
@[simp] theorem setAccount_slot (s : State) (i : AccountId) (x : Account) (k' : SlotId) : (s.setAccount i x).slot k' = s.slot k' := rfl
@[simp] theorem setAccount_device (s : State) (i : AccountId) (x : Account) (e' : Entry) : (s.setAccount i x).device e' = s.device e' := rfl
@[simp] theorem setAccount_bayDevice (s : State) (i : AccountId) (x : Account) (b' : BayId) : (s.setAccount i x).bayDevice b' = s.bayDevice b' := rfl
@[simp] theorem setAccount_inverter (s : State) (i : AccountId) (x : Account) (j' : InverterId) : (s.setAccount i x).inverter j' = s.inverter j' := rfl
@[simp] theorem setAccount_notice (s : State) (i : AccountId) (x : Account) (n' : NoticeKind) : (s.setAccount i x).notice n' = s.notice n' := rfl

/-! ## setNotice -/

@[simp] theorem setNotice_pending (s : State) (n : NoticeKind) (x : Notice) : (s.setNotice n x).pending = s.pending := rfl
@[simp] theorem setNotice_runTimer (s : State) (n : NoticeKind) (x : Notice) : (s.setNotice n x).runTimer = s.runTimer := rfl
@[simp] theorem setNotice_freeDraws (s : State) (n : NoticeKind) (x : Notice) : (s.setNotice n x).freeDraws = s.freeDraws := rfl
@[simp] theorem setNotice_sc (s : State) (n : NoticeKind) (x : Notice) : (s.setNotice n x).sc = s.sc := rfl
@[simp] theorem setNotice_flc (s : State) (n : NoticeKind) (x : Notice) : (s.setNotice n x).flc = s.flc := rfl
@[simp] theorem setNotice_bays (s : State) (n : NoticeKind) (x : Notice) : (s.setNotice n x).bays = s.bays := rfl
@[simp] theorem setNotice_st (s : State) (n : NoticeKind) (x : Notice) : (s.setNotice n x).st = s.st := rfl
@[simp] theorem setNotice_al (s : State) (n : NoticeKind) (x : Notice) : (s.setNotice n x).al = s.al := rfl
@[simp] theorem setNotice_cs (s : State) (n : NoticeKind) (x : Notice) : (s.setNotice n x).cs = s.cs := rfl
@[simp] theorem setNotice_tc (s : State) (n : NoticeKind) (x : Notice) : (s.setNotice n x).tc = s.tc := rfl
@[simp] theorem setNotice_hp_port (s : State) (n : NoticeKind) (x : Notice) : (s.setNotice n x).hp.port = s.hp.port := rfl
@[simp] theorem setNotice_hp_dropped (s : State) (n : NoticeKind) (x : Notice) : (s.setNotice n x).hp.dropped = s.hp.dropped := rfl
@[simp] theorem setNotice_hp_attn (s : State) (n : NoticeKind) (x : Notice) : (s.setNotice n x).hp.attn = s.hp.attn := rfl
@[simp] theorem setNotice_hp_miso (s : State) (n : NoticeKind) (x : Notice) : (s.setNotice n x).hp.miso = s.hp.miso := rfl
@[simp] theorem setNotice_bay (s : State) (n : NoticeKind) (x : Notice) (b' : BayId) : (s.setNotice n x).bay b' = s.bay b' := rfl
@[simp] theorem setNotice_slot (s : State) (n : NoticeKind) (x : Notice) (k' : SlotId) : (s.setNotice n x).slot k' = s.slot k' := rfl
@[simp] theorem setNotice_device (s : State) (n : NoticeKind) (x : Notice) (e' : Entry) : (s.setNotice n x).device e' = s.device e' := rfl
@[simp] theorem setNotice_bayDevice (s : State) (n : NoticeKind) (x : Notice) (b' : BayId) : (s.setNotice n x).bayDevice b' = s.bayDevice b' := rfl
@[simp] theorem setNotice_inverter (s : State) (n : NoticeKind) (x : Notice) (j' : InverterId) : (s.setNotice n x).inverter j' = s.inverter j' := rfl
@[simp] theorem setNotice_account (s : State) (n : NoticeKind) (x : Notice) (i' : AccountId) : (s.setNotice n x).account i' = s.account i' := rfl

/-! ## setCredits -/

@[simp] theorem setCredits_pending (s : State) (x : List Credit) : (s.setCredits x).pending = s.pending := rfl
@[simp] theorem setCredits_runTimer (s : State) (x : List Credit) : (s.setCredits x).runTimer = s.runTimer := rfl
@[simp] theorem setCredits_freeDraws (s : State) (x : List Credit) : (s.setCredits x).freeDraws = s.freeDraws := rfl
@[simp] theorem setCredits_sc (s : State) (x : List Credit) : (s.setCredits x).sc = s.sc := rfl
@[simp] theorem setCredits_flc (s : State) (x : List Credit) : (s.setCredits x).flc = s.flc := rfl
@[simp] theorem setCredits_bays (s : State) (x : List Credit) : (s.setCredits x).bays = s.bays := rfl
@[simp] theorem setCredits_st (s : State) (x : List Credit) : (s.setCredits x).st = s.st := rfl
@[simp] theorem setCredits_al (s : State) (x : List Credit) : (s.setCredits x).al = s.al := rfl
@[simp] theorem setCredits_tc (s : State) (x : List Credit) : (s.setCredits x).tc = s.tc := rfl
@[simp] theorem setCredits_hp (s : State) (x : List Credit) : (s.setCredits x).hp = s.hp := rfl
@[simp] theorem setCredits_cs_accounts (s : State) (x : List Credit) : (s.setCredits x).cs.accounts = s.cs.accounts := rfl
@[simp] theorem setCredits_cs_blockSize (s : State) (x : List Credit) : (s.setCredits x).cs.blockSize = s.cs.blockSize := rfl
@[simp] theorem setCredits_bay (s : State) (x : List Credit) (b' : BayId) : (s.setCredits x).bay b' = s.bay b' := rfl
@[simp] theorem setCredits_slot (s : State) (x : List Credit) (k' : SlotId) : (s.setCredits x).slot k' = s.slot k' := rfl
@[simp] theorem setCredits_device (s : State) (x : List Credit) (e' : Entry) : (s.setCredits x).device e' = s.device e' := rfl
@[simp] theorem setCredits_bayDevice (s : State) (x : List Credit) (b' : BayId) : (s.setCredits x).bayDevice b' = s.bayDevice b' := rfl
@[simp] theorem setCredits_inverter (s : State) (x : List Credit) (j' : InverterId) : (s.setCredits x).inverter j' = s.inverter j' := rfl
@[simp] theorem setCredits_account (s : State) (x : List Credit) (i' : AccountId) : (s.setCredits x).account i' = s.account i' := rfl
@[simp] theorem setCredits_notice (s : State) (x : List Credit) (n' : NoticeKind) : (s.setCredits x).notice n' = s.notice n' := rfl

/-! ## setExchange -/

@[simp] theorem setExchange_pending (s : State) (x : Exchange) : (s.setExchange x).pending = s.pending := rfl
@[simp] theorem setExchange_runTimer (s : State) (x : Exchange) : (s.setExchange x).runTimer = s.runTimer := rfl
@[simp] theorem setExchange_freeDraws (s : State) (x : Exchange) : (s.setExchange x).freeDraws = s.freeDraws := rfl
@[simp] theorem setExchange_sc (s : State) (x : Exchange) : (s.setExchange x).sc = s.sc := rfl
@[simp] theorem setExchange_bays (s : State) (x : Exchange) : (s.setExchange x).bays = s.bays := rfl
@[simp] theorem setExchange_st (s : State) (x : Exchange) : (s.setExchange x).st = s.st := rfl
@[simp] theorem setExchange_al (s : State) (x : Exchange) : (s.setExchange x).al = s.al := rfl
@[simp] theorem setExchange_cs (s : State) (x : Exchange) : (s.setExchange x).cs = s.cs := rfl
@[simp] theorem setExchange_tc (s : State) (x : Exchange) : (s.setExchange x).tc = s.tc := rfl
@[simp] theorem setExchange_hp (s : State) (x : Exchange) : (s.setExchange x).hp = s.hp := rfl
@[simp] theorem setExchange_flc_devices (s : State) (x : Exchange) : (s.setExchange x).flc.devices = s.flc.devices := rfl
@[simp] theorem setExchange_flc_position (s : State) (x : Exchange) : (s.setExchange x).flc.position = s.flc.position := rfl
@[simp] theorem setExchange_flc_start (s : State) (x : Exchange) : (s.setExchange x).flc.start = s.flc.start := rfl
@[simp] theorem setExchange_flc_gapFrom (s : State) (x : Exchange) : (s.setExchange x).flc.gapFrom = s.flc.gapFrom := rfl
@[simp] theorem setExchange_bay (s : State) (x : Exchange) (b' : BayId) : (s.setExchange x).bay b' = s.bay b' := rfl
@[simp] theorem setExchange_slot (s : State) (x : Exchange) (k' : SlotId) : (s.setExchange x).slot k' = s.slot k' := rfl
@[simp] theorem setExchange_device (s : State) (x : Exchange) (e' : Entry) : (s.setExchange x).device e' = s.device e' := rfl
@[simp] theorem setExchange_bayDevice (s : State) (x : Exchange) (b' : BayId) : (s.setExchange x).bayDevice b' = s.bayDevice b' := rfl
@[simp] theorem setExchange_inverter (s : State) (x : Exchange) (j' : InverterId) : (s.setExchange x).inverter j' = s.inverter j' := rfl
@[simp] theorem setExchange_account (s : State) (x : Exchange) (i' : AccountId) : (s.setExchange x).account i' = s.account i' := rfl
@[simp] theorem setExchange_notice (s : State) (x : Exchange) (n' : NoticeKind) : (s.setExchange x).notice n' = s.notice n' := rfl

/-! ## setPort -/

@[simp] theorem setPort_pending (s : State) (x : Port) : (s.setPort x).pending = s.pending := rfl
@[simp] theorem setPort_runTimer (s : State) (x : Port) : (s.setPort x).runTimer = s.runTimer := rfl
@[simp] theorem setPort_freeDraws (s : State) (x : Port) : (s.setPort x).freeDraws = s.freeDraws := rfl
@[simp] theorem setPort_sc (s : State) (x : Port) : (s.setPort x).sc = s.sc := rfl
@[simp] theorem setPort_flc (s : State) (x : Port) : (s.setPort x).flc = s.flc := rfl
@[simp] theorem setPort_bays (s : State) (x : Port) : (s.setPort x).bays = s.bays := rfl
@[simp] theorem setPort_st (s : State) (x : Port) : (s.setPort x).st = s.st := rfl
@[simp] theorem setPort_al (s : State) (x : Port) : (s.setPort x).al = s.al := rfl
@[simp] theorem setPort_cs (s : State) (x : Port) : (s.setPort x).cs = s.cs := rfl
@[simp] theorem setPort_tc (s : State) (x : Port) : (s.setPort x).tc = s.tc := rfl
@[simp] theorem setPort_hp_dropped (s : State) (x : Port) : (s.setPort x).hp.dropped = s.hp.dropped := rfl
@[simp] theorem setPort_hp_notices (s : State) (x : Port) : (s.setPort x).hp.notices = s.hp.notices := rfl
@[simp] theorem setPort_hp_attn (s : State) (x : Port) : (s.setPort x).hp.attn = s.hp.attn := rfl
@[simp] theorem setPort_hp_miso (s : State) (x : Port) : (s.setPort x).hp.miso = s.hp.miso := rfl
@[simp] theorem setPort_bay (s : State) (x : Port) (b' : BayId) : (s.setPort x).bay b' = s.bay b' := rfl
@[simp] theorem setPort_slot (s : State) (x : Port) (k' : SlotId) : (s.setPort x).slot k' = s.slot k' := rfl
@[simp] theorem setPort_device (s : State) (x : Port) (e' : Entry) : (s.setPort x).device e' = s.device e' := rfl
@[simp] theorem setPort_bayDevice (s : State) (x : Port) (b' : BayId) : (s.setPort x).bayDevice b' = s.bayDevice b' := rfl
@[simp] theorem setPort_inverter (s : State) (x : Port) (j' : InverterId) : (s.setPort x).inverter j' = s.inverter j' := rfl
@[simp] theorem setPort_account (s : State) (x : Port) (i' : AccountId) : (s.setPort x).account i' = s.account i' := rfl
@[simp] theorem setPort_notice (s : State) (x : Port) (n' : NoticeKind) : (s.setPort x).notice n' = s.notice n' := rfl

/-! ## modBay -/

@[simp] theorem modBay_pending (s : State) (b : BayId) (f : Bay → Bay) : (s.modBay b f).pending = s.pending := rfl
@[simp] theorem modBay_runTimer (s : State) (b : BayId) (f : Bay → Bay) : (s.modBay b f).runTimer = s.runTimer := rfl
@[simp] theorem modBay_freeDraws (s : State) (b : BayId) (f : Bay → Bay) : (s.modBay b f).freeDraws = s.freeDraws := rfl
@[simp] theorem modBay_sc (s : State) (b : BayId) (f : Bay → Bay) : (s.modBay b f).sc = s.sc := rfl
@[simp] theorem modBay_flc (s : State) (b : BayId) (f : Bay → Bay) : (s.modBay b f).flc = s.flc := rfl
@[simp] theorem modBay_st (s : State) (b : BayId) (f : Bay → Bay) : (s.modBay b f).st = s.st := rfl
@[simp] theorem modBay_al (s : State) (b : BayId) (f : Bay → Bay) : (s.modBay b f).al = s.al := rfl
@[simp] theorem modBay_cs (s : State) (b : BayId) (f : Bay → Bay) : (s.modBay b f).cs = s.cs := rfl
@[simp] theorem modBay_tc (s : State) (b : BayId) (f : Bay → Bay) : (s.modBay b f).tc = s.tc := rfl
@[simp] theorem modBay_hp (s : State) (b : BayId) (f : Bay → Bay) : (s.modBay b f).hp = s.hp := rfl
@[simp] theorem modBay_slot (s : State) (b : BayId) (f : Bay → Bay) (k' : SlotId) : (s.modBay b f).slot k' = s.slot k' := rfl
@[simp] theorem modBay_device (s : State) (b : BayId) (f : Bay → Bay) (e' : Entry) : (s.modBay b f).device e' = s.device e' := rfl
@[simp] theorem modBay_bayDevice (s : State) (b : BayId) (f : Bay → Bay) (b' : BayId) : (s.modBay b f).bayDevice b' = s.bayDevice b' := rfl
@[simp] theorem modBay_inverter (s : State) (b : BayId) (f : Bay → Bay) (j' : InverterId) : (s.modBay b f).inverter j' = s.inverter j' := rfl
@[simp] theorem modBay_account (s : State) (b : BayId) (f : Bay → Bay) (i' : AccountId) : (s.modBay b f).account i' = s.account i' := rfl
@[simp] theorem modBay_notice (s : State) (b : BayId) (f : Bay → Bay) (n' : NoticeKind) : (s.modBay b f).notice n' = s.notice n' := rfl

/-! ## modSlot -/

@[simp] theorem modSlot_pending (s : State) (k : SlotId) (f : Slot → Slot) : (s.modSlot k f).pending = s.pending := rfl
@[simp] theorem modSlot_runTimer (s : State) (k : SlotId) (f : Slot → Slot) : (s.modSlot k f).runTimer = s.runTimer := rfl
@[simp] theorem modSlot_freeDraws (s : State) (k : SlotId) (f : Slot → Slot) : (s.modSlot k f).freeDraws = s.freeDraws := rfl
@[simp] theorem modSlot_sc (s : State) (k : SlotId) (f : Slot → Slot) : (s.modSlot k f).sc = s.sc := rfl
@[simp] theorem modSlot_flc (s : State) (k : SlotId) (f : Slot → Slot) : (s.modSlot k f).flc = s.flc := rfl
@[simp] theorem modSlot_bays (s : State) (k : SlotId) (f : Slot → Slot) : (s.modSlot k f).bays = s.bays := rfl
@[simp] theorem modSlot_al (s : State) (k : SlotId) (f : Slot → Slot) : (s.modSlot k f).al = s.al := rfl
@[simp] theorem modSlot_cs (s : State) (k : SlotId) (f : Slot → Slot) : (s.modSlot k f).cs = s.cs := rfl
@[simp] theorem modSlot_tc (s : State) (k : SlotId) (f : Slot → Slot) : (s.modSlot k f).tc = s.tc := rfl
@[simp] theorem modSlot_hp (s : State) (k : SlotId) (f : Slot → Slot) : (s.modSlot k f).hp = s.hp := rfl
@[simp] theorem modSlot_st_sequence (s : State) (k : SlotId) (f : Slot → Slot) : (s.modSlot k f).st.sequence = s.st.sequence := rfl
@[simp] theorem modSlot_st_arrival (s : State) (k : SlotId) (f : Slot → Slot) : (s.modSlot k f).st.arrival = s.st.arrival := rfl
@[simp] theorem modSlot_bay (s : State) (k : SlotId) (f : Slot → Slot) (b' : BayId) : (s.modSlot k f).bay b' = s.bay b' := rfl
@[simp] theorem modSlot_device (s : State) (k : SlotId) (f : Slot → Slot) (e' : Entry) : (s.modSlot k f).device e' = s.device e' := rfl
@[simp] theorem modSlot_bayDevice (s : State) (k : SlotId) (f : Slot → Slot) (b' : BayId) : (s.modSlot k f).bayDevice b' = s.bayDevice b' := rfl
@[simp] theorem modSlot_inverter (s : State) (k : SlotId) (f : Slot → Slot) (j' : InverterId) : (s.modSlot k f).inverter j' = s.inverter j' := rfl
@[simp] theorem modSlot_account (s : State) (k : SlotId) (f : Slot → Slot) (i' : AccountId) : (s.modSlot k f).account i' = s.account i' := rfl
@[simp] theorem modSlot_notice (s : State) (k : SlotId) (f : Slot → Slot) (n' : NoticeKind) : (s.modSlot k f).notice n' = s.notice n' := rfl

/-! ## modDevice -/

@[simp] theorem modDevice_pending (s : State) (e : Entry) (f : Device → Device) : (s.modDevice e f).pending = s.pending := rfl
@[simp] theorem modDevice_runTimer (s : State) (e : Entry) (f : Device → Device) : (s.modDevice e f).runTimer = s.runTimer := rfl
@[simp] theorem modDevice_freeDraws (s : State) (e : Entry) (f : Device → Device) : (s.modDevice e f).freeDraws = s.freeDraws := rfl
@[simp] theorem modDevice_sc (s : State) (e : Entry) (f : Device → Device) : (s.modDevice e f).sc = s.sc := rfl
@[simp] theorem modDevice_bays (s : State) (e : Entry) (f : Device → Device) : (s.modDevice e f).bays = s.bays := rfl
@[simp] theorem modDevice_st (s : State) (e : Entry) (f : Device → Device) : (s.modDevice e f).st = s.st := rfl
@[simp] theorem modDevice_al (s : State) (e : Entry) (f : Device → Device) : (s.modDevice e f).al = s.al := rfl
@[simp] theorem modDevice_cs (s : State) (e : Entry) (f : Device → Device) : (s.modDevice e f).cs = s.cs := rfl
@[simp] theorem modDevice_tc (s : State) (e : Entry) (f : Device → Device) : (s.modDevice e f).tc = s.tc := rfl
@[simp] theorem modDevice_hp (s : State) (e : Entry) (f : Device → Device) : (s.modDevice e f).hp = s.hp := rfl
@[simp] theorem modDevice_flc_position (s : State) (e : Entry) (f : Device → Device) : (s.modDevice e f).flc.position = s.flc.position := rfl
@[simp] theorem modDevice_flc_start (s : State) (e : Entry) (f : Device → Device) : (s.modDevice e f).flc.start = s.flc.start := rfl
@[simp] theorem modDevice_flc_exchange (s : State) (e : Entry) (f : Device → Device) : (s.modDevice e f).flc.exchange = s.flc.exchange := rfl
@[simp] theorem modDevice_flc_gapFrom (s : State) (e : Entry) (f : Device → Device) : (s.modDevice e f).flc.gapFrom = s.flc.gapFrom := rfl
@[simp] theorem modDevice_bay (s : State) (e : Entry) (f : Device → Device) (b' : BayId) : (s.modDevice e f).bay b' = s.bay b' := rfl
@[simp] theorem modDevice_slot (s : State) (e : Entry) (f : Device → Device) (k' : SlotId) : (s.modDevice e f).slot k' = s.slot k' := rfl
@[simp] theorem modDevice_inverter (s : State) (e : Entry) (f : Device → Device) (j' : InverterId) : (s.modDevice e f).inverter j' = s.inverter j' := rfl
@[simp] theorem modDevice_account (s : State) (e : Entry) (f : Device → Device) (i' : AccountId) : (s.modDevice e f).account i' = s.account i' := rfl
@[simp] theorem modDevice_notice (s : State) (e : Entry) (f : Device → Device) (n' : NoticeKind) : (s.modDevice e f).notice n' = s.notice n' := rfl

/-! ## modInverter -/

@[simp] theorem modInverter_pending (s : State) (k : InverterId) (f : Inverter → Inverter) : (s.modInverter k f).pending = s.pending := rfl
@[simp] theorem modInverter_runTimer (s : State) (k : InverterId) (f : Inverter → Inverter) : (s.modInverter k f).runTimer = s.runTimer := rfl
@[simp] theorem modInverter_freeDraws (s : State) (k : InverterId) (f : Inverter → Inverter) : (s.modInverter k f).freeDraws = s.freeDraws := rfl
@[simp] theorem modInverter_sc (s : State) (k : InverterId) (f : Inverter → Inverter) : (s.modInverter k f).sc = s.sc := rfl
@[simp] theorem modInverter_flc (s : State) (k : InverterId) (f : Inverter → Inverter) : (s.modInverter k f).flc = s.flc := rfl
@[simp] theorem modInverter_bays (s : State) (k : InverterId) (f : Inverter → Inverter) : (s.modInverter k f).bays = s.bays := rfl
@[simp] theorem modInverter_st (s : State) (k : InverterId) (f : Inverter → Inverter) : (s.modInverter k f).st = s.st := rfl
@[simp] theorem modInverter_cs (s : State) (k : InverterId) (f : Inverter → Inverter) : (s.modInverter k f).cs = s.cs := rfl
@[simp] theorem modInverter_tc (s : State) (k : InverterId) (f : Inverter → Inverter) : (s.modInverter k f).tc = s.tc := rfl
@[simp] theorem modInverter_hp (s : State) (k : InverterId) (f : Inverter → Inverter) : (s.modInverter k f).hp = s.hp := rfl
@[simp] theorem modInverter_al_queue (s : State) (k : InverterId) (f : Inverter → Inverter) : (s.modInverter k f).al.queue = s.al.queue := rfl
@[simp] theorem modInverter_al_passState (s : State) (k : InverterId) (f : Inverter → Inverter) : (s.modInverter k f).al.passState = s.al.passState := rfl
@[simp] theorem modInverter_al_snapshot (s : State) (k : InverterId) (f : Inverter → Inverter) : (s.modInverter k f).al.snapshot = s.al.snapshot := rfl
@[simp] theorem modInverter_al_again (s : State) (k : InverterId) (f : Inverter → Inverter) : (s.modInverter k f).al.again = s.al.again := rfl
@[simp] theorem modInverter_al_pendingRequest (s : State) (k : InverterId) (f : Inverter → Inverter) : (s.modInverter k f).al.pendingRequest = s.al.pendingRequest := rfl
@[simp] theorem modInverter_al_refresh (s : State) (k : InverterId) (f : Inverter → Inverter) : (s.modInverter k f).al.refresh = s.al.refresh := rfl
@[simp] theorem modInverter_al_permit (s : State) (k : InverterId) (f : Inverter → Inverter) : (s.modInverter k f).al.permit = s.al.permit := rfl
@[simp] theorem modInverter_al_share (s : State) (k : InverterId) (f : Inverter → Inverter) : (s.modInverter k f).al.share = s.al.share := rfl
@[simp] theorem modInverter_al_usedLoad (s : State) (k : InverterId) (f : Inverter → Inverter) : (s.modInverter k f).al.usedLoad = s.al.usedLoad := rfl
@[simp] theorem modInverter_al_usedCanopy (s : State) (k : InverterId) (f : Inverter → Inverter) : (s.modInverter k f).al.usedCanopy = s.al.usedCanopy := rfl
@[simp] theorem modInverter_al_battery (s : State) (k : InverterId) (f : Inverter → Inverter) : (s.modInverter k f).al.battery = s.al.battery := rfl
@[simp] theorem modInverter_al_storeLoad (s : State) (k : InverterId) (f : Inverter → Inverter) : (s.modInverter k f).al.storeLoad = s.al.storeLoad := rfl
@[simp] theorem modInverter_al_lastPass (s : State) (k : InverterId) (f : Inverter → Inverter) : (s.modInverter k f).al.lastPass = s.al.lastPass := rfl
@[simp] theorem modInverter_bay (s : State) (k : InverterId) (f : Inverter → Inverter) (b' : BayId) : (s.modInverter k f).bay b' = s.bay b' := rfl
@[simp] theorem modInverter_slot (s : State) (k : InverterId) (f : Inverter → Inverter) (k' : SlotId) : (s.modInverter k f).slot k' = s.slot k' := rfl
@[simp] theorem modInverter_device (s : State) (k : InverterId) (f : Inverter → Inverter) (e' : Entry) : (s.modInverter k f).device e' = s.device e' := rfl
@[simp] theorem modInverter_bayDevice (s : State) (k : InverterId) (f : Inverter → Inverter) (b' : BayId) : (s.modInverter k f).bayDevice b' = s.bayDevice b' := rfl
@[simp] theorem modInverter_account (s : State) (k : InverterId) (f : Inverter → Inverter) (i' : AccountId) : (s.modInverter k f).account i' = s.account i' := rfl
@[simp] theorem modInverter_notice (s : State) (k : InverterId) (f : Inverter → Inverter) (n' : NoticeKind) : (s.modInverter k f).notice n' = s.notice n' := rfl

/-! ## modAccount -/

@[simp] theorem modAccount_pending (s : State) (i : AccountId) (f : Account → Account) : (s.modAccount i f).pending = s.pending := rfl
@[simp] theorem modAccount_runTimer (s : State) (i : AccountId) (f : Account → Account) : (s.modAccount i f).runTimer = s.runTimer := rfl
@[simp] theorem modAccount_freeDraws (s : State) (i : AccountId) (f : Account → Account) : (s.modAccount i f).freeDraws = s.freeDraws := rfl
@[simp] theorem modAccount_sc (s : State) (i : AccountId) (f : Account → Account) : (s.modAccount i f).sc = s.sc := rfl
@[simp] theorem modAccount_flc (s : State) (i : AccountId) (f : Account → Account) : (s.modAccount i f).flc = s.flc := rfl
@[simp] theorem modAccount_bays (s : State) (i : AccountId) (f : Account → Account) : (s.modAccount i f).bays = s.bays := rfl
@[simp] theorem modAccount_st (s : State) (i : AccountId) (f : Account → Account) : (s.modAccount i f).st = s.st := rfl
@[simp] theorem modAccount_al (s : State) (i : AccountId) (f : Account → Account) : (s.modAccount i f).al = s.al := rfl
@[simp] theorem modAccount_tc (s : State) (i : AccountId) (f : Account → Account) : (s.modAccount i f).tc = s.tc := rfl
@[simp] theorem modAccount_hp (s : State) (i : AccountId) (f : Account → Account) : (s.modAccount i f).hp = s.hp := rfl
@[simp] theorem modAccount_cs_credits (s : State) (i : AccountId) (f : Account → Account) : (s.modAccount i f).cs.credits = s.cs.credits := rfl
@[simp] theorem modAccount_cs_blockSize (s : State) (i : AccountId) (f : Account → Account) : (s.modAccount i f).cs.blockSize = s.cs.blockSize := rfl
@[simp] theorem modAccount_bay (s : State) (i : AccountId) (f : Account → Account) (b' : BayId) : (s.modAccount i f).bay b' = s.bay b' := rfl
@[simp] theorem modAccount_slot (s : State) (i : AccountId) (f : Account → Account) (k' : SlotId) : (s.modAccount i f).slot k' = s.slot k' := rfl
@[simp] theorem modAccount_device (s : State) (i : AccountId) (f : Account → Account) (e' : Entry) : (s.modAccount i f).device e' = s.device e' := rfl
@[simp] theorem modAccount_bayDevice (s : State) (i : AccountId) (f : Account → Account) (b' : BayId) : (s.modAccount i f).bayDevice b' = s.bayDevice b' := rfl
@[simp] theorem modAccount_inverter (s : State) (i : AccountId) (f : Account → Account) (j' : InverterId) : (s.modAccount i f).inverter j' = s.inverter j' := rfl
@[simp] theorem modAccount_notice (s : State) (i : AccountId) (f : Account → Account) (n' : NoticeKind) : (s.modAccount i f).notice n' = s.notice n' := rfl

/-! ## Reads of the updated table -/

@[simp] theorem bay_setBay_same (s : State) (b : BayId) (x : Bay) : (s.setBay b x).bay b = x := by
  simp [State.bay, State.setBay]

theorem bay_setBay_ne (s : State) (x : Bay) {b c : BayId} (h : c ≠ b) : (s.setBay b x).bay c = s.bay c := by
  have : b.val ≠ c.val := fun e => h (Fin.ext e.symm)
  simp [State.bay, State.setBay, this]

theorem bay_setBay (s : State) (b c : BayId) (x : Bay) : (s.setBay b x).bay c = if c = b then x else s.bay c := by
  split
  · next h => subst h; simp
  · next h => exact bay_setBay_ne s x h

@[simp] theorem slot_setSlot_same (s : State) (k : SlotId) (x : Slot) : (s.setSlot k x).slot k = x := by
  simp [State.slot, State.setSlot]

theorem slot_setSlot_ne (s : State) (x : Slot) {k j : SlotId} (h : j ≠ k) : (s.setSlot k x).slot j = s.slot j := by
  have : k.val ≠ j.val := fun e => h (Fin.ext e.symm)
  simp [State.slot, State.setSlot, this]

theorem slot_setSlot (s : State) (k j : SlotId) (x : Slot) : (s.setSlot k x).slot j = if j = k then x else s.slot j := by
  split
  · next h => subst h; simp
  · next h => exact slot_setSlot_ne s x h

@[simp] theorem device_setDevice_same (s : State) (e : Entry) (x : Device) : (s.setDevice e x).device e = x := by
  simp [State.device, State.setDevice]

theorem device_setDevice_ne (s : State) (x : Device) {e f : Entry} (h : f ≠ e) :
    (s.setDevice e x).device f = s.device f := by
  have : e.val ≠ f.val := fun h' => h (Fin.ext h'.symm)
  simp [State.device, State.setDevice, this]

theorem device_setDevice (s : State) (e f : Entry) (x : Device) :
    (s.setDevice e x).device f = if f = e then x else s.device f := by
  split
  · next h => subst h; simp
  · next h => exact device_setDevice_ne s x h

@[simp] theorem inverter_setInverter_same (s : State) (k : InverterId) (x : Inverter) :
    (s.setInverter k x).inverter k = x := by
  simp [State.inverter, State.setInverter]

theorem inverter_setInverter_ne (s : State) (x : Inverter) {k j : InverterId} (h : j ≠ k) :
    (s.setInverter k x).inverter j = s.inverter j := by
  have : k.val ≠ j.val := fun e => h (Fin.ext e.symm)
  simp [State.inverter, State.setInverter, this]

@[simp] theorem account_setAccount_same (s : State) (i : AccountId) (x : Account) :
    (s.setAccount i x).account i = x := by
  simp [State.account, State.setAccount]

theorem account_setAccount_ne (s : State) (x : Account) {i j : AccountId} (h : j ≠ i) :
    (s.setAccount i x).account j = s.account j := by
  have : i.val ≠ j.val := fun e => h (Fin.ext e.symm)
  simp [State.account, State.setAccount, this]

/-- The index of a notice kind names it. -/
theorem noticeKind_index_injective {m n : NoticeKind} (h : m.index.val = n.index.val) : m = n := by
  cases m <;> cases n <;> first | rfl | (exact absurd h (by decide))

@[simp] theorem notice_setNotice_same (s : State) (n : NoticeKind) (x : Notice) : (s.setNotice n x).notice n = x := by
  simp [State.notice, State.setNotice]

theorem notice_setNotice_ne (s : State) (x : Notice) {n m : NoticeKind} (h : m ≠ n) :
    (s.setNotice n x).notice m = s.notice m := by
  have : n.index.val ≠ m.index.val := fun e => h (noticeKind_index_injective e.symm)
  simp [State.notice, State.setNotice, this]

@[simp] theorem bay_modBay_same (s : State) (b : BayId) (f : Bay → Bay) : (s.modBay b f).bay b = f (s.bay b) :=
  bay_setBay_same s b _

theorem bay_modBay_ne (s : State) (f : Bay → Bay) {b c : BayId} (h : c ≠ b) : (s.modBay b f).bay c = s.bay c :=
  bay_setBay_ne s _ h

@[simp] theorem slot_modSlot_same (s : State) (k : SlotId) (f : Slot → Slot) : (s.modSlot k f).slot k = f (s.slot k) :=
  slot_setSlot_same s k _

theorem slot_modSlot_ne (s : State) (f : Slot → Slot) {k j : SlotId} (h : j ≠ k) : (s.modSlot k f).slot j = s.slot j :=
  slot_setSlot_ne s _ h

@[simp] theorem device_modDevice_same (s : State) (e : Entry) (f : Device → Device) :
    (s.modDevice e f).device e = f (s.device e) :=
  device_setDevice_same s e _

@[simp] theorem account_modAccount_same (s : State) (i : AccountId) (f : Account → Account) :
    (s.modAccount i f).account i = f (s.account i) :=
  account_setAccount_same s i _

end Sys2Proof.Machine
end

