-- ==== Sys2Proof/Laws/Edits.lean ====
section
/-! SUPPORT. What the shared operations over sessions, bays, credits and notices can do, said once: each is a chain of small
edits, and none of them touches the site configuration, the loop controller, the tariff clock, the port, the timers or the
queue of commands. -/

namespace Sys2Proof.Machine

/-- A bay record with the same declaration, and a message that is in its range when the old one was. -/
structure Bay.SameDeclaration (old new : Bay) : Prop where
  declared : new.declared = old.declared
  kind : new.kind = old.kind
  maxSteps : new.maxSteps = old.maxSteps
  minSteps : new.minSteps = old.minSteps
  meterWidth : new.meterWidth = old.meterWidth
  feeder : new.feeder = old.feeder

/-- An account with the same settings, whose remaining energy and holders stay within their bounds. -/
structure Account.SameSettings (old new : Account) : Prop where
  token : new.token = old.token
  enabled : new.enabled = old.enabled
  cls : new.cls = old.cls
  firmSteps : new.firmSteps = old.firmSteps
  allowanceWh : new.allowanceWh = old.allowanceWh
  solarOnly : new.solarOnly = old.solarOnly
  maxHolders : new.maxHolders = old.maxHolders
  remainingWh : new.remainingWh ≤ max old.remainingWh old.allowanceWh
  holders : new.holders ≤ max old.holders old.maxHolders

/-- One small edit. -/
inductive Edit : State → State → Prop where
  | bay (s : State) (b : BayId) (x : Bay) (h : (s.bay b).SameDeclaration x) : Edit s (s.setBay b x)
  | slot (s : State) (k : SlotId) (x : Slot) : Edit s (s.setSlot k x)
  | counters (s : State) (n m : Nat) : Edit s { s with st.sequence := n, st.arrival := m }
  | notice (s : State) (k : NoticeKind) (a key : Nat) : Edit s (countNotice k a key s)
  | pass (s : State) : Edit s (requestPass s)
  | queue (s : State) (q : List Member) : Edit s { s with al.queue := q }
  | credits (s : State) (cs : List Credit) (h : (cs.map (·.key)).Sublist (s.cs.credits.map (·.key))) :
      Edit s (s.setCredits cs)
  | account (s : State) (i : AccountId) (x : Account) (h : (s.account i).SameSettings x) : Edit s (s.setAccount i x)

/-- A chain of small edits. -/
abbrev Edits : State → State → Prop := Relation.ReflTransGen Edit

namespace Edits

theorem refl (s : State) : Edits s s := Relation.ReflTransGen.refl

theorem trans {s t u : State} (h : Edits s t) (g : Edits t u) : Edits s u := Relation.ReflTransGen.trans h g

theorem one {s t : State} (h : Edit s t) : Edits s t := .single h

theorem ite {s t u : State} {c : Prop} [Decidable c] (ht : Edits s t) (hu : Edits s u) : Edits s (if c then t else u) := by
  split <;> assumption

end Edits

/-! ## The primitive operations -/

theorem setBay_edits {s : State} {b : BayId} {x : Bay} (h : (s.bay b).SameDeclaration x) : Edits s (s.setBay b x) :=
  .one (.bay s b x h)

theorem modBay_edits (s : State) (b : BayId) (f : Bay → Bay) (h : ∀ y, Bay.SameDeclaration y (f y)) :
    Edits s (s.modBay b f) :=
  .one (.bay s b _ (h _))

theorem setSlot_edits (s : State) (k : SlotId) (x : Slot) : Edits s (s.setSlot k x) := .one (.slot s k x)

theorem modSlot_edits (s : State) (k : SlotId) (f : Slot → Slot) : Edits s (s.modSlot k f) := .one (.slot s k _)

theorem modAccount_edits (s : State) (i : AccountId) (f : Account → Account)
    (h : (s.account i).SameSettings (f (s.account i))) : Edits s (s.modAccount i f) :=
  .one (.account s i _ h)

theorem countNotice_edits (k : NoticeKind) (a key : Nat) (s : State) : Edits s (countNotice k a key s) :=
  .one (.notice s k a key)

theorem requestPass_edits (s : State) : Edits s (requestPass s) := .one (.pass s)

theorem requestPassIf_edits (c : Bool) (s : State) : Edits s (requestPassIf c s) :=
  Edits.ite (requestPass_edits s) (Edits.refl s)

theorem updateCredit_keys (key : Nat) (f : Credit → Credit) (hf : ∀ c, (f c).key = c.key) (cs : List Credit) :
    (updateCredit key f cs).map (·.key) = cs.map (·.key) := by
  simp only [updateCredit, List.map_map]
  refine List.map_congr_left fun c _ => ?_
  simp only [Function.comp_apply]
  split
  · exact hf c
  · rfl

theorem updateCredit_edits (s : State) (key : Nat) (f : Credit → Credit) (hf : ∀ c, (f c).key = c.key) :
    Edits s (s.setCredits (updateCredit key f s.cs.credits)) :=
  .one (.credits s _ (by rw [updateCredit_keys key f hf]))

theorem removeCredit_edits (s : State) (key : Nat) : Edits s (s.setCredits (removeCredit key s.cs.credits)) :=
  .one (.credits s _ (List.Sublist.map _ List.filter_sublist))

theorem withGrants_sameDeclaration (y : Bay) (set ack : Nat) : y.SameDeclaration (y.withGrants set ack) :=
  ⟨rfl, rfl, rfl, rfl, rfl, rfl⟩

theorem writeGrants_edits (b : BayId) (set ack : Nat) (s : State) : Edits s (writeGrants b set ack s) :=
  (setBay_edits (withGrants_sameDeclaration _ _ _)).trans (requestPassIf_edits _ _)

theorem writeGrantSet_edits (b : BayId) (set : Nat) (s : State) : Edits s (writeGrantSet b set s) :=
  writeGrants_edits b set _ s

theorem writeGrantAck_edits (b : BayId) (ack : Nat) (s : State) : Edits s (writeGrantAck b ack s) :=
  writeGrants_edits b _ ack s

theorem joinQueue_edits (k : SlotId) (s : State) : Edits s (joinQueue k s) :=
  (Edits.one (.queue s _)).trans (requestPass_edits _)

theorem leaveQueue_edits (k : SlotId) (s : State) : Edits s (leaveQueue k s) :=
  (Edits.one (.queue s _)).trans (requestPass_edits _)

theorem setMessage_edits (b : BayId) (c : MessageCode) (s : State) : Edits s (setMessage b c s) :=
  modBay_edits s b _ fun _ => ⟨rfl, rfl, rfl, rfl, rfl, rfl⟩

theorem emptyScan_edits (b : BayId) (s : State) : Edits s (emptyScan b s) :=
  modBay_edits s b _ fun _ => ⟨rfl, rfl, rfl, rfl, rfl, rfl⟩

theorem enterFault_edits (b : BayId) (s : State) : Edits s (enterFault b s) := by
  unfold enterFault
  refine Edits.trans ?_ (countNotice_edits _ _ _ _)
  refine Edits.trans ?_ (requestPass_edits _)
  refine Edits.trans ?_ (writeGrantSet_edits b 0 _)
  exact modBay_edits s b _ fun _ => ⟨rfl, rfl, rfl, rfl, rfl, rfl⟩

theorem enterBlocked_edits (b : BayId) (s : State) : Edits s (enterBlocked b s) := by
  unfold enterBlocked
  refine Edits.trans ?_ (writeGrantSet_edits b 0 _)
  exact modBay_edits s b _ fun _ => ⟨rfl, rfl, rfl, rfl, rfl, rfl⟩

/-! ## Sessions -/

theorem suspendSlot_edits (k : SlotId) (cause : SuspendCause) (s : State) : Edits s (suspendSlot k cause s) :=
  (modSlot_edits s k _).trans (requestPassIf_edits _ _)

theorem resumeSlot_edits (k : SlotId) (s : State) : Edits s (resumeSlot k s) :=
  (modSlot_edits s k _).trans (requestPassIf_edits _ _)

theorem endHold_edits (k : SlotId) (s : State) : Edits s (endHold k s) := by
  unfold endHold
  split
  · dsimp only
    split
    · exact (modSlot_edits s k _).trans
        (modAccount_edits _ _ _ ⟨rfl, rfl, rfl, rfl, rfl, rfl, rfl, by simp, by simp⟩)
    · exact modSlot_edits s k _
  · exact Edits.refl s

theorem releaseCredit_edits (key r : Nat) (s : State) : Edits s (releaseCredit key r s) := by
  unfold releaseCredit
  split
  · exact Edits.refl s
  · split
    · exact updateCredit_edits s key _ fun _ => rfl
    · exact removeCredit_edits s key

theorem releaseSource_edits (k : SlotId) (s : State) : Edits s (releaseSource k s) := by
  unfold releaseSource
  dsimp only
  split
  · exact Edits.refl s
  · exact (modSlot_edits s k _).trans (releaseCredit_edits _ _ _)
  · exact ((modSlot_edits s k _).trans
      (modAccount_edits _ _ _ ⟨rfl, rfl, rfl, rfl, rfl, rfl, rfl, by simp, by simp⟩)).trans (endHold_edits k _)

theorem releaseHoldings_edits (k : SlotId) (s : State) : Edits s (releaseHoldings k s) := by
  unfold releaseHoldings
  split
  · exact releaseSource_edits k s
  · exact endHold_edits k s

theorem settleSlot_edits (k : SlotId) (cause : Option EndCause) (s : State) : Edits s (settleSlot k cause s) :=
  (setSlot_edits s k _).trans (requestPassIf_edits _ _)

theorem settleBay_edits (b : BayId) (k : SlotId) (after : BayAfter) (s : State) : Edits s (settleBay b k after s) := by
  have h : Edits s (writeGrantSet b 0 (s.modBay b fun y => { y with scan := .empty, lostDeadline := none })) :=
    Edits.trans (modBay_edits s b (fun y => { y with scan := .empty, lostDeadline := none })
      fun _ => ⟨rfl, rfl, rfl, rfl, rfl, rfl⟩) (writeGrantSet_edits b 0 _)
  unfold settleBay
  dsimp only
  generalize writeGrantSet b 0 _ = t at h ⊢
  cases after <;> dsimp only
  · exact h.trans (modBay_edits t b _ fun _ => ⟨rfl, rfl, rfl, rfl, rfl, rfl⟩)
  · exact h.trans (modBay_edits t b _ fun _ => ⟨rfl, rfl, rfl, rfl, rfl, rfl⟩)
  · exact h.trans (enterFault_edits b t)
  · refine h.trans (Edits.trans ?_ (enterBlocked_edits b _))
    exact modBay_edits t b _ fun _ => ⟨rfl, rfl, rfl, rfl, rfl, rfl⟩

theorem makeReceipt_edits (k : SlotId) (s : State) : Edits s (makeReceipt k s) :=
  (modSlot_edits s k _).trans (countNotice_edits _ _ _ _)

/-- Settlement (R56) is a chain of small edits. -/
theorem settle_edits (k : SlotId) (cause : Option EndCause) (after : BayAfter) (s : State) :
    Edits s (settle k cause after s) := by
  unfold settle
  dsimp only
  refine Edits.trans ?_ (makeReceipt_edits k _)
  refine Edits.trans ?_ (releaseHoldings_edits k _)
  refine Edits.trans ?_ (settleBay_edits _ k after _)
  split
  · exact (settleSlot_edits k cause s).trans (leaveQueue_edits k _)
  · exact settleSlot_edits k cause s

theorem settleLost_edits (k : SlotId) (s : State) : Edits s (settleLost k s) :=
  (modSlot_edits s k _).trans (settle_edits k _ _ _)

theorem abandon_edits (k : SlotId) (s : State) : Edits s (abandon k s) := by
  unfold abandon
  refine Edits.trans (setSlot_edits s k {}) (modBay_edits _ _ _ fun y => ?_)
  split <;> exact ⟨rfl, rfl, rfl, rfl, rfl, rfl⟩

theorem endOpening_edits (k : SlotId) (cause : EndCause) (s : State) : Edits s (endOpening k cause s) :=
  Edits.ite (abandon_edits k s) (settle_edits k _ _ s)

/-- Entering ENDING (R58) is a chain of small edits. -/
theorem enterEnding_edits (k : SlotId) (cause : EndCause) (s : State) : Edits s (enterEnding k cause s) := by
  unfold enterEnding
  dsimp only
  have h := ((((setSlot_edits s k { s.slot k with
      state := .ending, endCause := some cause, runPermit := false, suspendCause := none
      endDeadline := some (s.runTimer + s.sc.timing.tEnd * 1000) }).trans
    (requestPassIf_edits (s.slot k).runPermit _)).trans (leaveQueue_edits k _)).trans
    (modBay_edits _ (s.slot k).bay (fun y => { y with stopFlag := true, scan := .empty })
      fun _ => ⟨rfl, rfl, rfl, rfl, rfl, rfl⟩)).trans (writeGrantSet_edits (s.slot k).bay 0 _)
  split
  · exact h
  · exact h.trans (settleLost_edits k _)

/-- Authorisation (R51) is a chain of small edits. -/
theorem authorise_edits (k : SlotId) (s : State) : Edits s (authorise k s) := by
  unfold authorise
  dsimp only
  have h := ((modSlot_edits s k fun x => { x with authDeadline := none, arrival := s.st.arrival }).trans
    (Edits.one (.counters _ s.st.sequence (nextArrival s.st.arrival)))).trans (joinQueue_edits k _)
  split
  · exact h.trans (modSlot_edits _ k _)
  · exact (h.trans (modSlot_edits _ k _)).trans (requestPassIf_edits _ _)

theorem authoriseIfOpening_edits (k : SlotId) (s : State) : Edits s (authoriseIfOpening k s) :=
  Edits.ite (authorise_edits k s) (Edits.refl s)

theorem testSpendCap_edits (k : SlotId) (s : State) : Edits s (testSpendCap k s) := by
  unfold testSpendCap
  dsimp only
  split
  · exact Edits.ite (enterEnding_edits k _ s) (Edits.refl s)
  · exact Edits.refl s

theorem stopSession_edits (k : SlotId) (cause : EndCause) (s : State) : Edits s (stopSession k cause s) := by
  unfold stopSession
  split
  · exact endOpening_edits k cause s
  · exact enterEnding_edits k cause s
  · exact enterEnding_edits k cause s
  · exact enterEnding_edits k cause s
  · exact Edits.refl s
  · exact Edits.refl s
  · exact Edits.refl s

/-! ## Blocks, credits and accounts -/

theorem takeFrom_edits (w : Nat) (s : State) (src : Source) : Edits s (takeFrom w s src) := by
  cases src with
  | credit key => exact updateCredit_edits s _ _ fun _ => rfl
  | account i =>
    refine modAccount_edits s i (fun a => { a with remainingWh := a.remainingWh - w })
      ⟨rfl, rfl, rfl, rfl, rfl, rfl, rfl, ?_, ?_⟩ <;> simp

theorem countExhausted_edits (s : State) (src : Source) : Edits s (countExhausted s src) := by
  cases src
  · exact Edits.refl s
  · exact countNotice_edits _ _ _ s

theorem exhaust_edits (k : SlotId) (src : Source) (s : State) : Edits s (exhaust k src s) := by
  unfold exhaust
  dsimp only
  have h := (releaseSource_edits k s).trans (countExhausted_edits _ src)
  exact Edits.ite (h.trans (enterEnding_edits k _ _)) h

/-- A draw (R133) is a chain of small edits. -/
theorem draw_edits (k : SlotId) (s : State) : Edits s (draw k s) := by
  unfold draw
  split
  · exact Edits.refl s
  · dsimp only
    split
    · exact (takeFrom_edits _ s _).trans (modSlot_edits _ k _)
    · exact exhaust_edits k _ s

theorem attach_edits (key : Nat) (k : SlotId) (b : BayId) (s : State) : Edits s (attach key k b s) := by
  unfold attach
  dsimp only
  refine Edits.trans ?_ (authoriseIfOpening_edits k _)
  refine Edits.trans ?_ (emptyScan_edits b _)
  refine Edits.trans ?_ (setMessage_edits b _ _)
  refine Edits.trans ?_ (draw_edits k _)
  refine Edits.trans ?_ (modSlot_edits _ k _)
  exact updateCredit_edits s key _ fun _ => rfl

theorem takeCard_edits (k : SlotId) (cap : Nat) (s : State) : Edits s (takeCard k cap s) := by
  unfold takeCard
  refine Edits.ite (Edits.refl s) ?_
  refine Edits.trans ?_ (testSpendCap_edits k _)
  refine Edits.trans ?_ (authoriseIfOpening_edits k _)
  exact modSlot_edits s k _

theorem acceptToken_edits (i : AccountId) (k : SlotId) (b : BayId) (s : State)
    (h : (s.account i).holders < (s.account i).maxHolders) : Edits s (acceptToken i k b s) := by
  unfold acceptToken
  dsimp only
  have h1 := (modAccount_edits s i (fun a => { a with holders := a.holders + 1 })
    ⟨rfl, rfl, rfl, rfl, rfl, rfl, rfl, by simp, by simp; omega⟩).trans (modSlot_edits _ k fun x =>
      { x with payment := .account, accountIndex := some i, accountHold := true
               cls := classUnder (s.account i).cls x.cls })
  refine ((Edits.trans ?_ (emptyScan_edits b _)).trans (setMessage_edits b _ _)).trans (authoriseIfOpening_edits k _)
  exact Edits.ite ((h1.trans (modSlot_edits _ k _)).trans (draw_edits k _)) h1

theorem takeToken_edits (key : Nat) (k : SlotId) (b : BayId) (s : State) : Edits s (takeToken key k b s) := by
  unfold takeToken
  split
  · split
    · split
      · next h => exact acceptToken_edits _ k b s h
      · exact setMessage_edits b _ s
    · exact setMessage_edits b _ s
  · exact setMessage_edits b _ s

theorem makePending_edits (key : Nat) (b : BayId) (s : State) : Edits s (makePending key b s) := by
  unfold makePending
  refine Edits.trans ?_ (countNotice_edits _ _ _ _)
  exact modBay_edits s b _ fun _ => ⟨rfl, rfl, rfl, rfl, rfl, rfl⟩

theorem refuseReceipt_edits (b : BayId) (c : MessageCode) (s : State) : Edits s (refuseReceipt b c s) :=
  (setMessage_edits b c s).trans (emptyScan_edits b _)

theorem takeReceiptScan_edits (key : Nat) (k : SlotId) (b : BayId) (s : State) :
    Edits s (takeReceiptScan key k b s) := by
  unfold takeReceiptScan
  split
  · exact refuseReceipt_edits b _ s
  · split
    · exact refuseReceipt_edits b _ s
    · split
      · exact Edits.ite (attach_edits key k b s) (refuseReceipt_edits b _ s)
      · exact makePending_edits key b s

theorem takeScan_edits (sc : Scan) (b : BayId) (s : State) : Edits s (takeScan sc b s) := by
  unfold takeScan
  split
  · exact setMessage_edits b _ s
  · split
    · exact takeToken_edits _ _ b s
    · exact Edits.ite (setMessage_edits b _ s) (takeReceiptScan_edits _ _ b s)

/-! ## Metering -/

theorem coverPart_edits (k : SlotId) (fuel part : Nat) (s : State) : Edits s (coverPart k fuel part s).2 := by
  induction fuel generalizing part s with
  | zero => exact Edits.refl s
  | succ n ih =>
    unfold coverPart
    split
    · exact Edits.refl s
    · dsimp only
      split
      · exact ((modSlot_edits s k _).trans (draw_edits k _)).trans (ih _ _)
      · exact (modSlot_edits s k _).trans (ih _ _)

theorem cover_edits (k : SlotId) (part : Nat) (s : State) : Edits s (cover k part s).2 := coverPart_edits k _ part s

theorem coverAll_edits (k : SlotId) (solar battery grid : Nat) (s : State) :
    Edits s (coverAll k solar battery grid s).state := by
  unfold coverAll
  split
  · exact Edits.refl s
  · dsimp only
    split
    · exact cover_edits k solar s
    · exact ((cover_edits k solar s).trans (cover_edits k battery _)).trans (cover_edits k grid _)

theorem accrue_edits (k : SlotId) (delta : Nat) (s : State) : Edits s (accrue k delta s) := by
  unfold accrue
  dsimp only
  exact (((modSlot_edits s k _).trans (coverAll_edits k _ _ _ _)).trans (modSlot_edits _ k _)).trans
    (testSpendCap_edits k _)

theorem meterJump_edits (k : SlotId) (b : BayId) (s : State) : Edits s (meterJump k b s) :=
  (modSlot_edits s k _).trans (countNotice_edits _ _ _ _)

theorem rebase_edits (b : BayId) (register : Nat) (s : State) : Edits s (rebase b register s) :=
  modBay_edits s b _ fun _ => ⟨rfl, rfl, rfl, rfl, rfl, rfl⟩

/-- The absorption of a register (R139) is a chain of small edits. -/
theorem absorb_edits (b : BayId) (k : SlotId) (register : Nat) (s : State) : Edits s (absorb b k register s) := by
  unfold absorb
  dsimp only
  split
  · exact (modSlot_edits s k _).trans (rebase_edits b register _)
  · refine Edits.trans ?_ (rebase_edits b register _)
    split
    · exact Edits.refl s
    · exact Edits.ite (accrue_edits k _ s) (meterJump_edits k b s)

/-! ## The steps of a bay report (R42) -/

theorem failBay_edits (b : BayId) (s : State) : Edits s (failBay b s) := by
  unfold failBay
  split
  · exact settle_edits _ _ _ s
  · exact enterFault_edits b s

theorem attemptOpening_edits (b : BayId) (s : State) : Edits s (attemptOpening b s) := by
  unfold attemptOpening
  split
  · exact Edits.refl s
  · split
    · dsimp only
      exact ((setSlot_edits s _ _).trans (Edits.one (.counters _ (nextSequence s.st.sequence) s.st.arrival))).trans
        (modBay_edits _ b _ fun _ => ⟨rfl, rfl, rfl, rfl, rfl, rfl⟩)
    · dsimp only
      have h := modBay_edits s b (fun y => { y with state := .waitingSlot }) fun _ => ⟨rfl, rfl, rfl, rfl, rfl, rfl⟩
      exact Edits.ite (h.trans (countNotice_edits _ _ _ _)) h

theorem stepOpening_edits (b : BayId) (r : BayReport) (s : State) : Edits s (stepOpening b r s) :=
  Edits.ite (attemptOpening_edits b s) (Edits.refl s)

theorem stepMeter_edits (b : BayId) (r : BayReport) (s : State) : Edits s (stepMeter b r s) := by
  unfold stepMeter
  split
  · exact absorb_edits b _ _ s
  · exact Edits.refl s

theorem takeAck_edits (b : BayId) (r : BayReport) (s : State) : Edits s (takeAck b r s) := by
  unfold takeAck
  dsimp only
  split
  · exact Edits.ite (Edits.refl s) (writeGrantAck_edits b 0 s)
  · split
    · exact writeGrantAck_edits b 0 s
    · exact Edits.ite (writeGrantAck_edits b _ s) ((writeGrantAck_edits b _ s).trans (failBay_edits b _))

theorem completeEnding_edits (b : BayId) (r : BayReport) (s : State) : Edits s (completeEnding b r s) := by
  unfold completeEnding
  split
  · exact Edits.ite (settle_edits _ _ _ s) (Edits.refl s)
  · exact Edits.refl s

theorem stepAck_edits (b : BayId) (r : BayReport) (s : State) : Edits s (stepAck b r s) := by
  unfold stepAck
  dsimp only
  generalize hx : takeAck b r s = t
  have h : Edits s t := hx ▸ takeAck_edits b r s
  exact Edits.ite h (h.trans (completeEnding_edits b r t))

theorem stepFault_edits (b : BayId) (r : BayReport) (s : State) : Edits s (stepFault b r s) :=
  Edits.ite (failBay_edits b s) (Edits.refl s)

theorem stepUnplugged_edits (b : BayId) (r : BayReport) (s : State) : Edits s (stepUnplugged b r s) := by
  unfold stepUnplugged
  split
  · exact Edits.refl s
  · split
    · split
      · exact endOpening_edits _ _ s
      · exact settle_edits _ _ _ s
      · exact settle_edits _ _ _ s
      · exact settle_edits _ _ _ s
      · exact settle_edits _ _ _ s
      · exact Edits.refl s
      · exact Edits.refl s
    · split
      · exact modBay_edits s b _ fun _ => ⟨rfl, rfl, rfl, rfl, rfl, rfl⟩
      · exact modBay_edits s b _ fun _ => ⟨rfl, rfl, rfl, rfl, rfl, rfl⟩
      · exact Edits.refl s
      · exact Edits.refl s
      · exact Edits.refl s
      · exact Edits.refl s

theorem stepCard_edits (b : BayId) (r : BayReport) (s : State) : Edits s (stepCard b r s) := by
  unfold stepCard
  split
  · exact takeCard_edits _ _ s
  · exact Edits.refl s

theorem stepScan_edits (b : BayId) (scan : Option Scan) (s : State) : Edits s (stepScan b scan s) := by
  unfold stepScan
  split
  · exact takeScan_edits _ b s
  · exact Edits.refl s

theorem stepButton_edits (b : BayId) (r : BayReport) (s : State) : Edits s (stepButton b r s) := by
  unfold stepButton
  split
  · exact Edits.ite (stopSession_edits _ _ s) (Edits.refl s)
  · exact Edits.refl s

theorem compareDemand_edits (k : SlotId) (demand : Nat) (s : State) : Edits s (compareDemand k demand s) := by
  unfold compareDemand
  dsimp only
  split
  · exact requestPassIf_edits _ s
  · exact Edits.refl s

theorem takeDemand_edits (b : BayId) (demand : Nat) (s : State) : Edits s (takeDemand b demand s) := by
  unfold takeDemand
  split
  · exact (modSlot_edits s _ _).trans (compareDemand_edits _ _ _)
  · exact Edits.refl s

/-- BT's ten steps over a report (R42) are a chain of small edits. -/
theorem takeBayReport_edits (b : BayId) (r : BayReport) (scan : Option Scan) (s : State) :
    Edits s (takeBayReport b r scan s) := by
  unfold takeBayReport
  dsimp only
  refine Edits.trans ?_ (takeDemand_edits b _ _)
  refine Edits.trans ?_ (stepButton_edits b r _)
  refine Edits.trans ?_ (stepScan_edits b scan _)
  refine Edits.trans ?_ (stepCard_edits b r _)
  refine Edits.trans ?_ (stepUnplugged_edits b r _)
  refine Edits.trans ?_ (stepFault_edits b r _)
  refine Edits.trans ?_ (stepAck_edits b r _)
  refine Edits.trans ?_ (stepMeter_edits b r _)
  refine Edits.trans ?_ (stepOpening_edits b r _)
  exact modBay_edits s b _ fun _ => ⟨rfl, rfl, rfl, rfl, rfl, rfl⟩

/-! ## Folds -/

theorem foldl_edits {α : Type} (f : State → α → State) (hf : ∀ t a, Edits t (f t a)) (l : List α) (s : State) :
    Edits s (l.foldl f s) := by
  induction l generalizing s with
  | nil => exact Edits.refl s
  | cons a l ih => exact (hf s a).trans (ih _)

theorem shedOnset_edits (classes : SessionClass → Bool) (s : State) : Edits s (shedOnset classes s) :=
  foldl_edits _ (fun t k => by
    split
    · exact Edits.ite (suspendSlot_edits k _ t) (Edits.refl t)
    · exact Edits.refl t) _ s

theorem shedEnd_edits (classes : SessionClass → Bool) (s : State) : Edits s (shedEnd classes s) := by
  unfold shedEnd
  split
  · exact Edits.refl s
  · exact foldl_edits _ (fun t k => Edits.ite (resumeSlot_edits k t) (Edits.refl t)) _ s

theorem shedChanged_edits (s : State) : Edits s (shedChanged s) := by
  unfold shedChanged
  dsimp only
  exact ((Edits.ite (shedOnset_edits _ s) (shedEnd_edits _ s)).trans (requestPass_edits _)).trans
    (countNotice_edits _ _ _ _)

theorem scopeChanged_edits (old : ShedScope) (s : State) : Edits s (scopeChanged old s) :=
  (shedOnset_edits _ s).trans (shedEnd_edits _ _)

theorem reevaluateShed_edits (was : Bool) (old : ShedScope) (s : State) : Edits s (reevaluateShed was old s) :=
  Edits.ite (shedChanged_edits s) (Edits.ite (scopeChanged_edits old s) (Edits.refl s))

theorem writeAllGrants_edits (cs : List Claim) (s : State) : Edits s (writeAllGrants cs s) :=
  foldl_edits _ (fun t b => by
    split
    · split
      · exact writeGrantSet_edits b _ t
      · exact Edits.refl t
    · exact Edits.refl t) _ s

theorem writeSessionStates_edits (cs : List Claim) (s : State) : Edits s (writeSessionStates cs s) :=
  foldl_edits _ (fun t _ => Edits.ite (modSlot_edits t _ _) (Edits.refl t)) _ s

theorem countHeld_edits (held : Nat) (s : State) : Edits s (countHeld held s) :=
  Edits.ite (countNotice_edits _ _ _ s) (Edits.refl s)

/-! ## Session requests and deadlines -/

theorem dropReference_edits (b : BayId) (k : SlotId) (s : State) : Edits s (dropReference b k s) :=
  Edits.ite (modBay_edits s b _ fun _ => ⟨rfl, rfl, rfl, rfl, rfl, rfl⟩) (Edits.refl s)

theorem takeReceiptAt_edits (k : SlotId) (s : State) : Edits s (takeReceiptAt k s).2 := by
  unfold takeReceiptAt
  split
  · exact (setSlot_edits s k _).trans (dropReference_edits _ k _)
  · exact Edits.refl s

theorem stopAt_edits (k : SlotId) (s : State) : Edits s (stopAt k s).2 := by
  unfold stopAt
  split
  · exact stopSession_edits k _ s
  · exact Edits.refl s

theorem suspendAt_edits (k : SlotId) (s : State) : Edits s (suspendAt k s).2 := by
  unfold suspendAt commandSuspend
  split
  · exact Edits.ite (modSlot_edits s k _) (suspendSlot_edits k _ s)
  · exact Edits.refl s

theorem resumeAt_edits (k : SlotId) (s : State) : Edits s (resumeAt k s).2 := by
  unfold resumeAt
  split
  · exact Edits.refl s
  · split
    · exact Edits.refl s
    · exact resumeSlot_edits k s

theorem resumeAllAct_edits (s : State) : Edits s (resumeAllAct s).2 :=
  foldl_edits _ (fun t k => resumeSlot_edits k t) _ s

theorem clearSlot_edits (k : SlotId) (s : State) : Edits s (clearSlot k s) := by
  unfold clearSlot
  refine Edits.trans (settle_edits k (some .siteClear) (afterByPlug (s.bay (s.slot k).bay).plug) s) ?_
  exact modBay_edits _ _ _ fun _ => ⟨rfl, rfl, rfl, rfl, rfl, rfl⟩

theorem clearSiteAct_edits (p : List Byte) (s : State) : Edits s (clearSiteAct p s).2 := by
  unfold clearSiteAct
  split
  · exact Edits.refl s
  · exact foldl_edits _ (fun t k => clearSlot_edits k t) _ s

theorem withSlot_edits (p : List Byte) (act : SlotId → State → Reply × State)
    (h : ∀ k t, Edits t (act k t).2) (s : State) : Edits s (withSlot p act s).2 := by
  unfold withSlot
  split
  · exact Edits.refl s
  · split
    · exact Edits.refl s
    · exact h _ s

theorem whenOpen_edits (act : State → Reply × State) (h : ∀ t, Edits t (act t).2) (s : State) :
    Edits s (whenOpen act s).2 := by
  unfold whenOpen
  split
  · exact Edits.refl s
  · exact h s

theorem endUnconfirmed_edits (k : SlotId) (s : State) : Edits s (endUnconfirmed k s) :=
  (modSlot_edits s k _).trans (settle_edits k _ _ _)

theorem endLinkWait_edits (b : BayId) (s : State) : Edits s (endLinkWait b s) := by
  unfold endLinkWait
  split
  · exact settle_edits _ _ _ s
  · exact modBay_edits s b _ fun _ => ⟨rfl, rfl, rfl, rfl, rfl, rfl⟩

theorem linkLossBay_edits (b : BayId) (s : State) : Edits s (linkLossBay b s) := by
  unfold linkLossBay
  dsimp only
  have h := modBay_edits s b (fun y => { y with ackWait := none }) fun _ => ⟨rfl, rfl, rfl, rfl, rfl, rfl⟩
  split
  · exact h
  · split
    · exact h.trans (settleLost_edits _ _)
    · exact (h.trans (modSlot_edits _ _ _)).trans (modBay_edits _ b _ fun _ => ⟨rfl, rfl, rfl, rfl, rfl, rfl⟩)

theorem linkReturnBay_edits (b : BayId) (s : State) : Edits s (linkReturnBay b s) :=
  modBay_edits s b _ fun _ => ⟨rfl, rfl, rfl, rfl, rfl, rfl⟩

/-! ## What a chain of small edits leaves -/

/-- What no small edit touches. -/
structure Untouched (s t : State) : Prop where
  pending : t.pending = s.pending
  runTimer : t.runTimer = s.runTimer
  freeDraws : t.freeDraws = s.freeDraws
  sc : t.sc = s.sc
  flc : t.flc = s.flc
  tc : t.tc = s.tc
  blockSize : t.cs.blockSize = s.cs.blockSize
  port : t.hp.port = s.hp.port
  dropped : t.hp.dropped = s.hp.dropped
  miso : t.hp.miso = s.hp.miso
  share : t.al.share = s.al.share
  permit : t.al.permit = s.al.permit
  inverters : t.al.inverters = s.al.inverters
  battery : t.al.battery = s.al.battery
  storeLoad : t.al.storeLoad = s.al.storeLoad
  lastPass : t.al.lastPass = s.al.lastPass
  usedLoad : t.al.usedLoad = s.al.usedLoad
  usedCanopy : t.al.usedCanopy = s.al.usedCanopy

theorem Untouched.refl (s : State) : Untouched s s := by constructor <;> rfl

theorem Untouched.trans {s t u : State} (h : Untouched s t) (g : Untouched t u) : Untouched s u := by
  constructor
  · exact g.pending.trans h.pending
  · exact g.runTimer.trans h.runTimer
  · exact g.freeDraws.trans h.freeDraws
  · exact g.sc.trans h.sc
  · exact g.flc.trans h.flc
  · exact g.tc.trans h.tc
  · exact g.blockSize.trans h.blockSize
  · exact g.port.trans h.port
  · exact g.dropped.trans h.dropped
  · exact g.miso.trans h.miso
  · exact g.share.trans h.share
  · exact g.permit.trans h.permit
  · exact g.inverters.trans h.inverters
  · exact g.battery.trans h.battery
  · exact g.storeLoad.trans h.storeLoad
  · exact g.lastPass.trans h.lastPass
  · exact g.usedLoad.trans h.usedLoad
  · exact g.usedCanopy.trans h.usedCanopy

theorem requestPass_untouched (s : State) : Untouched s (requestPass s) := by
  unfold requestPass
  split <;> (constructor <;> rfl)

theorem Edit.untouched {s t : State} (h : Edit s t) : Untouched s t := by
  cases h with
  | pass => exact requestPass_untouched s
  | bay | slot | counters | notice | queue | credits | account => constructor <;> rfl

/-- A chain of small edits leaves what no small edit touches. -/
theorem Edits.untouched {s t : State} (h : Edits s t) : Untouched s t := by
  induction h with
  | refl => exact .refl s
  | tail _ h ih => exact ih.trans h.untouched

end Sys2Proof.Machine
end

