-- ==== Sys2Proof/Laws/Machine.lean ====
section
/-! SUPPORT. What each shared operation of a step gives, said once: pass requests, notices and ATTN, the free order, the end of
a step, the answer to a request, the grants, and what the fields of a payload can hold. -/

namespace Sys2Proof.Machine

/-! ## Pass requests (R69, R10) -/

theorem requestPass_running {s : State} (h : s.al.passState = .running) :
    requestPass s = { s with al.again := true } := by
  simp only [requestPass, h]

theorem requestPass_closed {s : State} (h : s.al.passState = .idle) (g : s.sc.gate = .closed) :
    requestPass s = { s with al.pendingRequest := true } := by
  simp only [requestPass, h, g]

theorem requestPass_begins {s : State} (h : s.al.passState = .idle) (g : s.sc.gate = .opened) :
    requestPass s =
      { s with al.passState := .running, al.snapshot := none, al.refresh := none, al.pendingRequest := false } := by
  simp only [requestPass, h, g]

@[simp] theorem requestPass_bays (s : State) : (requestPass s).bays = s.bays := by
  unfold requestPass; split <;> rfl

@[simp] theorem requestPass_st (s : State) : (requestPass s).st = s.st := by
  unfold requestPass; split <;> rfl

@[simp] theorem requestPass_sc (s : State) : (requestPass s).sc = s.sc := (requestPass_untouched s).sc

@[simp] theorem requestPass_flc (s : State) : (requestPass s).flc = s.flc := (requestPass_untouched s).flc

@[simp] theorem requestPass_tc (s : State) : (requestPass s).tc = s.tc := (requestPass_untouched s).tc

@[simp] theorem requestPass_cs (s : State) : (requestPass s).cs = s.cs := by
  unfold requestPass; split <;> rfl

@[simp] theorem requestPass_hp (s : State) : (requestPass s).hp = s.hp := by
  unfold requestPass; split <;> rfl

@[simp] theorem requestPass_runTimer (s : State) : (requestPass s).runTimer = s.runTimer :=
  (requestPass_untouched s).runTimer

@[simp] theorem requestPass_pending (s : State) : (requestPass s).pending = s.pending :=
  (requestPass_untouched s).pending

@[simp] theorem requestPass_freeDraws (s : State) : (requestPass s).freeDraws = s.freeDraws :=
  (requestPass_untouched s).freeDraws

@[simp] theorem requestPass_queue (s : State) : (requestPass s).al.queue = s.al.queue := by
  unfold requestPass; split <;> rfl

@[simp] theorem requestPass_bay (s : State) (b : BayId) : (requestPass s).bay b = s.bay b := by
  simp only [State.bay, requestPass_bays]

@[simp] theorem requestPass_slot (s : State) (k : SlotId) : (requestPass s).slot k = s.slot k := by
  simp only [State.slot, requestPass_st]

@[simp] theorem requestPass_account (s : State) (i : AccountId) : (requestPass s).account i = s.account i := by
  simp only [State.account, requestPass_cs]

@[simp] theorem requestPass_notice (s : State) (k : NoticeKind) : (requestPass s).notice k = s.notice k := by
  simp only [State.notice, requestPass_hp]

@[simp] theorem requestPassIf_true (s : State) : requestPassIf true s = requestPass s := rfl

@[simp] theorem requestPassIf_false (s : State) : requestPassIf false s = s := rfl

@[simp] theorem requestPassIf_bays (c : Bool) (s : State) : (requestPassIf c s).bays = s.bays := by
  cases c <;> simp

@[simp] theorem requestPassIf_st (c : Bool) (s : State) : (requestPassIf c s).st = s.st := by cases c <;> simp

@[simp] theorem requestPassIf_cs (c : Bool) (s : State) : (requestPassIf c s).cs = s.cs := by cases c <;> simp

@[simp] theorem requestPassIf_hp (c : Bool) (s : State) : (requestPassIf c s).hp = s.hp := by cases c <;> simp

@[simp] theorem requestPassIf_sc (c : Bool) (s : State) : (requestPassIf c s).sc = s.sc := by cases c <;> simp

@[simp] theorem requestPassIf_flc (c : Bool) (s : State) : (requestPassIf c s).flc = s.flc := by cases c <;> simp

@[simp] theorem requestPassIf_bay (c : Bool) (s : State) (b : BayId) : (requestPassIf c s).bay b = s.bay b := by
  cases c <;> simp

@[simp] theorem requestPassIf_slot (c : Bool) (s : State) (k : SlotId) : (requestPassIf c s).slot k = s.slot k := by
  cases c <;> simp

@[simp] theorem requestPassIf_queue (c : Bool) (s : State) : (requestPassIf c s).al.queue = s.al.queue := by
  cases c <;> simp

/-! ## Notices and ATTN (R175, R178) -/

theorem countNotice_same (k : NoticeKind) (a key : Nat) (s : State) :
    (countNotice k a key s).notice k = (s.notice k).occur a key :=
  notice_setNotice_same s k _

theorem countNotice_ne {k j : NoticeKind} (a key : Nat) (s : State) (h : j ≠ k) :
    (countNotice k a key s).notice j = s.notice j :=
  notice_setNotice_ne s _ h

@[simp] theorem countNotice_bays (k : NoticeKind) (a key : Nat) (s : State) : (countNotice k a key s).bays = s.bays := rfl

@[simp] theorem countNotice_st (k : NoticeKind) (a key : Nat) (s : State) : (countNotice k a key s).st = s.st := rfl

@[simp] theorem countNotice_cs (k : NoticeKind) (a key : Nat) (s : State) : (countNotice k a key s).cs = s.cs := rfl

@[simp] theorem countNotice_al (k : NoticeKind) (a key : Nat) (s : State) : (countNotice k a key s).al = s.al := rfl

@[simp] theorem countNotice_bay (k : NoticeKind) (a key : Nat) (s : State) (b : BayId) :
    (countNotice k a key s).bay b = s.bay b := rfl

@[simp] theorem countNotice_slot (k : NoticeKind) (a key : Nat) (s : State) (j : SlotId) :
    (countNotice k a key s).slot j = s.slot j := rfl

/-- After an occurrence ATTN is as R178 says. -/
theorem countNotice_attn (k : NoticeKind) (a key : Nat) (s : State) :
    (countNotice k a key s).hp.attn = (countNotice k a key s).attnDue := rfl

/-- ATTN's condition speaks of the ten kinds. -/
theorem attnDue_iff (s : State) :
    s.attnDue = true ↔
      s.sc.gate = .opened ∧ ∃ k : NoticeKind, (s.notice k).masked = false ∧ 0 < (s.notice k).count := by
  unfold State.attnDue
  rw [Bool.and_eq_true, beq_iff_eq]
  refine and_congr_right fun _ => ?_
  simp only [List.any_eq_true, Bool.and_eq_true, Bool.not_eq_true', decide_eq_true_eq]
  constructor
  · rintro ⟨n, hn, hm⟩
    obtain ⟨i, hi, rfl⟩ := List.getElem_of_mem hn
    rw [Vector.length_toList] at hi
    have hk : ∀ i : Fin 10, ∃ k : NoticeKind, k.index = i := by
      intro i
      fin_cases i
      · exact ⟨.receiptReady, rfl⟩
      · exact ⟨.creditQuery, rfl⟩
      · exact ⟨.bayFault, rfl⟩
      · exact ⟨.meterJump, rfl⟩
      · exact ⟨.slotShortage, rfl⟩
      · exact ⟨.supplyShort, rfl⟩
      · exact ⟨.loopDevice, rfl⟩
      · exact ⟨.lineChange, rfl⟩
      · exact ⟨.accountExhausted, rfl⟩
      · exact ⟨.tableFullCredit, rfl⟩
    obtain ⟨k, hk⟩ := hk ⟨i, hi⟩
    have hv : s.notice k = s.hp.notices.toList[i] := by simp [State.notice, hk]
    exact ⟨k, by rw [hv]; exact hm⟩
  · rintro ⟨k, hm⟩
    exact ⟨s.notice k, by simp [State.notice], hm⟩

/-! ## The free order (logs 2, 10, 11) -/

theorem insertByKey_perm {α : Type} (x : Nat × α) (l : List (Nat × α)) : (insertByKey x l).Perm (x :: l) := by
  induction l with
  | nil => exact .refl _
  | cons y ys ih =>
    unfold insertByKey
    split
    · exact .refl _
    · exact (ih.cons y).trans (.swap x y ys)

theorem orderFrom_perm {α : Type} (draw i : Nat) (l : List α) : ((orderFrom draw i l).map (·.2)).Perm l := by
  induction l generalizing i with
  | nil => exact .refl _
  | cons x xs ih =>
    unfold orderFrom
    exact ((insertByKey_perm (Config.orderKey draw i, x) (orderFrom draw (i + 1) xs)).map (·.2)).trans
      ((ih (i + 1)).cons x)

/-- A free order is a permutation, and nothing more is known of it. -/
theorem freeOrder_perm {α : Type} (draw : Nat) (l : List α) : (freeOrder draw l).Perm l := orderFrom_perm draw 0 l

theorem mem_freeOrder {α : Type} {draw : Nat} {l : List α} {a : α} : a ∈ freeOrder draw l ↔ a ∈ l :=
  (freeOrder_perm draw l).mem_iff

/-! ## The end of a step -/

/-- With a running pass sampled there is nothing to sample. -/
theorem sampleIfBegun_of_sampled {s : State} (h : PassSampled s) : sampleIfBegun s = s := by
  unfold sampleIfBegun
  split
  · next hc =>
    have := h hc.1
    rw [hc.2] at this
    exact absurd this (by decide)
  · rfl

/-- A command that has begun no pass completes in the state it has made, with the free-value counter advanced. -/
theorem done_of_sampled {s : State} (h : PassSampled s) : done s = .next { s with freeDraws := s.freeDraws + 1 } := by
  unfold done
  rw [sampleIfBegun_of_sampled h]

/-- Every completed command answers a next state. -/
theorem done_next (s : State) : ∃ t, done s = .next t := ⟨_, rfl⟩

@[simp] theorem sampleIfBegun_sc (s : State) : (sampleIfBegun s).sc = s.sc := by unfold sampleIfBegun; split <;> rfl
@[simp] theorem sampleIfBegun_flc (s : State) : (sampleIfBegun s).flc = s.flc := by unfold sampleIfBegun; split <;> rfl
@[simp] theorem sampleIfBegun_bays (s : State) : (sampleIfBegun s).bays = s.bays := by unfold sampleIfBegun; split <;> rfl
@[simp] theorem sampleIfBegun_st (s : State) : (sampleIfBegun s).st = s.st := by unfold sampleIfBegun; split <;> rfl
@[simp] theorem sampleIfBegun_cs (s : State) : (sampleIfBegun s).cs = s.cs := by unfold sampleIfBegun; split <;> rfl
@[simp] theorem sampleIfBegun_tc (s : State) : (sampleIfBegun s).tc = s.tc := by unfold sampleIfBegun; split <;> rfl
@[simp] theorem sampleIfBegun_hp (s : State) : (sampleIfBegun s).hp = s.hp := by unfold sampleIfBegun; split <;> rfl
@[simp] theorem sampleIfBegun_runTimer (s : State) : (sampleIfBegun s).runTimer = s.runTimer := by
  unfold sampleIfBegun; split <;> rfl
@[simp] theorem sampleIfBegun_pending (s : State) : (sampleIfBegun s).pending = s.pending := by
  unfold sampleIfBegun; split <;> rfl
@[simp] theorem sampleIfBegun_passState (s : State) : (sampleIfBegun s).al.passState = s.al.passState := by
  unfold sampleIfBegun; split <;> rfl
@[simp] theorem sampleIfBegun_again (s : State) : (sampleIfBegun s).al.again = s.al.again := by
  unfold sampleIfBegun; split <;> rfl
@[simp] theorem sampleIfBegun_refresh (s : State) : (sampleIfBegun s).al.refresh = s.al.refresh := by
  unfold sampleIfBegun; split <;> rfl
@[simp] theorem sampleIfBegun_pendingRequest (s : State) :
    (sampleIfBegun s).al.pendingRequest = s.al.pendingRequest := by
  unfold sampleIfBegun; split <;> rfl
@[simp] theorem sampleIfBegun_share (s : State) : (sampleIfBegun s).al.share = s.al.share := by
  unfold sampleIfBegun; split <;> rfl
@[simp] theorem sampleIfBegun_permit (s : State) : (sampleIfBegun s).al.permit = s.al.permit := by
  unfold sampleIfBegun; split <;> rfl
@[simp] theorem sampleIfBegun_inverters (s : State) : (sampleIfBegun s).al.inverters = s.al.inverters := by
  unfold sampleIfBegun; split <;> rfl
@[simp] theorem sampleIfBegun_battery (s : State) : (sampleIfBegun s).al.battery = s.al.battery := by
  unfold sampleIfBegun; split <;> rfl
@[simp] theorem sampleIfBegun_storeLoad (s : State) : (sampleIfBegun s).al.storeLoad = s.al.storeLoad := by
  unfold sampleIfBegun; split <;> rfl
@[simp] theorem sampleIfBegun_lastPass (s : State) : (sampleIfBegun s).al.lastPass = s.al.lastPass := by
  unfold sampleIfBegun; split <;> rfl
@[simp] theorem sampleIfBegun_queue_slots (s : State) :
    (sampleIfBegun s).al.queue.map (·.slot) = s.al.queue.map (·.slot) := by
  unfold sampleIfBegun
  split
  · simp [Function.comp_def]
  · rfl

/-- The members of the queue keep their slots, classes and arrival numbers when a pass samples their demands. -/
theorem takeSnapshot_sampled (s : State) : (sampleIfBegun s).takeSnapshot = s.takeSnapshot := by
  unfold sampleIfBegun
  split
  · unfold State.takeSnapshot
    simp only [List.map_map]
    rfl
  · rfl

/-- A pass that has begun in a step ends the step with the records as its snapshot. -/
theorem sampleIfBegun_begun {s : State} (h : s.al.passState = .running) (g : s.al.snapshot = none) :
    (sampleIfBegun s).al.snapshot = some s.takeSnapshot := by
  unfold sampleIfBegun
  rw [if_pos ⟨h, g⟩]

/-- Every completed command leaves a running pass sampled. -/
theorem sampleIfBegun_sampled (s : State) : PassSampled (sampleIfBegun s) := by
  intro h
  unfold sampleIfBegun at h ⊢
  split
  · rfl
  · next hc =>
    rw [if_neg hc] at h
    have hn : s.al.snapshot ≠ none := fun hn => hc ⟨h, hn⟩
    exact Option.isSome_iff_ne_none.mpr hn

/-! ## The answer to a request (R169) -/

/-- A request row that finds its request in PROCESSING acts on it and answers it. -/
theorem serve_held {i : Instr} {f : List Byte} {s : State} (act : State → Reply × State) (h : Holds i f s) :
    serve i act s = done (answer f (act s).1 (act s).2) := by
  simp only [serve, h.1, h.2, if_true]

/-- A request row that does not find its request leaves the state as it is (log 4). -/
theorem serve_absent {i : Instr} {s : State} (act : State → Reply × State)
    (h : ∀ f, s.hp.port = .processing f → requestOf f ≠ i) : serve i act s = .next s := by
  unfold serve
  split
  · next f hf => rw [if_neg (h f hf)]
  · rfl
  · rfl

/-- A request row always answers a next state. -/
theorem serve_next (i : Instr) (act : State → Reply × State) (s : State) : ∃ t, serve i act s = .next t := by
  unfold serve
  split
  · split
    · exact done_next _
    · exact ⟨_, rfl⟩
  · exact ⟨_, rfl⟩
  · exact ⟨_, rfl⟩

/-- An answer that has begun no pass: the state the block left, with the response in the port. -/
theorem serve_answered {i : Instr} {f : List Byte} {s t : State} {r : Reply} (act : State → Reply × State)
    (h : Holds i f s) (ha : act s = (r, t)) (hd : t.freeDraws = s.freeDraws) (hp : PassSampled t) :
    serve i act s = .next (t.answered f r.status r.payload s) := by
  rw [serve_held act h, ha, done_of_sampled (s := answer f r t) hp]
  simp only [answer, State.answered, State.setPort, answeredPort, hd]

/-! ## Grants (R91, R95) -/

theorem writeGrants_bay (b : BayId) (set ack : Nat) (s : State) :
    (writeGrants b set ack s).bay b = (s.bay b).withGrants set ack := by
  simp [writeGrants]

theorem writeGrants_bay_ne {b c : BayId} (set ack : Nat) (s : State) (h : c ≠ b) :
    (writeGrants b set ack s).bay c = s.bay c := by
  simp only [writeGrants, requestPassIf_bay]
  exact bay_setBay_ne s _ h

@[simp] theorem writeGrants_st (b : BayId) (set ack : Nat) (s : State) : (writeGrants b set ack s).st = s.st := by
  simp [writeGrants]

@[simp] theorem writeGrants_slot (b : BayId) (set ack : Nat) (s : State) (k : SlotId) :
    (writeGrants b set ack s).slot k = s.slot k := by
  simp [State.slot]

@[simp] theorem writeGrants_cs (b : BayId) (set ack : Nat) (s : State) : (writeGrants b set ack s).cs = s.cs := by
  simp [writeGrants]

@[simp] theorem writeGrants_hp (b : BayId) (set ack : Nat) (s : State) : (writeGrants b set ack s).hp = s.hp := by
  simp [writeGrants]

/-! ## What the fields of a payload can hold -/

theorem beNat_append_singleton (bs : List Byte) (b : Byte) : beNat (bs ++ [b]) = beNat bs * 256 + b.toNat := by
  simp [beNat]

/-- A field of w bytes is below 256 to the power w. -/
theorem beNat_lt (bs : List Byte) : beNat bs < 256 ^ bs.length := by
  induction bs using List.reverseRecOn with
  | nil => simp [beNat]
  | append_singleton bs b ih =>
    rw [beNat_append_singleton, List.length_append, List.length_singleton, pow_succ]
    have := b.isLt
    omega

/-- A number read from a payload fits the width it was read at. -/
theorem arg_lt (p : List Byte) (offset width : Nat) : arg p offset width < 256 ^ width :=
  (beNat_lt _).trans_le (Nat.pow_le_pow_right (by decide) (by simp))

/-- The index read is the number itself. -/
theorem index?_some {n v : Nat} {i : Fin n} : index? n v = some i ↔ v = i.val := by
  unfold index?
  split
  · constructor
    · intro h; cases h; rfl
    · intro h; simp [h]
  · constructor
    · intro h; cases h
    · rintro rfl; exact absurd i.isLt ‹_›

theorem index?_none {n v : Nat} : index? n v = none ↔ n ≤ v := by
  unfold index?
  split <;> simp <;> omega

end Sys2Proof.Machine
end

