-- ==== Sys2Proof/Laws/Completion.lean ====
section
/-! SUPPORT. What a completed command leaves: `completed t` is the state after the sampling of a pass that has begun in it.
What a pass request becomes under the edits that follow it, and by the sampling, is said here once for every command. -/

namespace Sys2Proof.Machine

/-- The state a completed command answers: a pass begun in it is sampled, and the free values advance. -/
def completed (t : State) : State := { sampleIfBegun t with freeDraws := t.freeDraws + 1 }

theorem done_eq (t : State) : done t = .next (completed t) := rfl

/-- A command that leaves AL as it was completes in the state it has made, with the free-value counter advanced. -/
theorem completed_of_same {s t : State} (hp : PassSampled s) (h : t.al = s.al) :
    completed t = { t with freeDraws := t.freeDraws + 1 } := by
  unfold completed
  rw [sampleIfBegun_of_sampled]
  unfold PassSampled at *
  rw [h]
  exact hp

@[simp] theorem completed_sc (s : State) : (completed s).sc = s.sc := sampleIfBegun_sc s
@[simp] theorem completed_flc (s : State) : (completed s).flc = s.flc := sampleIfBegun_flc s
@[simp] theorem completed_bays (s : State) : (completed s).bays = s.bays := sampleIfBegun_bays s
@[simp] theorem completed_st (s : State) : (completed s).st = s.st := sampleIfBegun_st s
@[simp] theorem completed_cs (s : State) : (completed s).cs = s.cs := sampleIfBegun_cs s
@[simp] theorem completed_tc (s : State) : (completed s).tc = s.tc := sampleIfBegun_tc s
@[simp] theorem completed_hp (s : State) : (completed s).hp = s.hp := sampleIfBegun_hp s
@[simp] theorem completed_runTimer (s : State) : (completed s).runTimer = s.runTimer := sampleIfBegun_runTimer s
@[simp] theorem completed_pending (s : State) : (completed s).pending = s.pending := sampleIfBegun_pending s
@[simp] theorem completed_passState (s : State) : (completed s).al.passState = s.al.passState :=
  sampleIfBegun_passState s
@[simp] theorem completed_again (s : State) : (completed s).al.again = s.al.again := sampleIfBegun_again s
@[simp] theorem completed_refresh (s : State) : (completed s).al.refresh = s.al.refresh := sampleIfBegun_refresh s
@[simp] theorem completed_pendingRequest (s : State) : (completed s).al.pendingRequest = s.al.pendingRequest :=
  sampleIfBegun_pendingRequest s
@[simp] theorem completed_share (s : State) : (completed s).al.share = s.al.share := sampleIfBegun_share s
@[simp] theorem completed_permit (s : State) : (completed s).al.permit = s.al.permit := sampleIfBegun_permit s
@[simp] theorem completed_inverters (s : State) : (completed s).al.inverters = s.al.inverters :=
  sampleIfBegun_inverters s
@[simp] theorem completed_battery (s : State) : (completed s).al.battery = s.al.battery := sampleIfBegun_battery s
@[simp] theorem completed_storeLoad (s : State) : (completed s).al.storeLoad = s.al.storeLoad :=
  sampleIfBegun_storeLoad s
@[simp] theorem completed_lastPass (s : State) : (completed s).al.lastPass = s.al.lastPass := sampleIfBegun_lastPass s
@[simp] theorem completed_queue (s : State) : (completed s).al.queue.map (·.slot) = s.al.queue.map (·.slot) :=
  sampleIfBegun_queue_slots s
@[simp] theorem completed_bay (s : State) (b : BayId) : (completed s).bay b = s.bay b := by simp [State.bay]
@[simp] theorem completed_slot (s : State) (b : SlotId) : (completed s).slot b = s.slot b := by simp [State.slot]
@[simp] theorem completed_device (s : State) (b : Entry) : (completed s).device b = s.device b :=
  by simp [State.device]
@[simp] theorem completed_bayDevice (s : State) (b : BayId) : (completed s).bayDevice b = s.bayDevice b :=
  by simp [State.bayDevice]
@[simp] theorem completed_inverter (s : State) (b : InverterId) : (completed s).inverter b = s.inverter b :=
  by simp [State.inverter]
@[simp] theorem completed_account (s : State) (b : AccountId) : (completed s).account b = s.account b :=
  by simp [State.account]
@[simp] theorem completed_notice (s : State) (b : NoticeKind) : (completed s).notice b = s.notice b :=
  by simp [State.notice]
@[simp] theorem completed_attnDue (s : State) : (completed s).attnDue = s.attnDue := by simp [State.attnDue]
@[simp] theorem completed_rsvReqActive (s : State) : (completed s).rsvReqActive = s.rsvReqActive :=
  by simp [State.rsvReqActive]
@[simp] theorem completed_shedActive (s : State) : (completed s).shedActive = s.shedActive :=
  by simp [State.shedActive]

@[simp] theorem setPort_attnDue (s : State) (p : Port) : (s.setPort p).attnDue = s.attnDue := rfl
@[simp] theorem setPort_port (s : State) (p : Port) : (s.setPort p).hp.port = p := rfl

/-! ## Reads that a pass request leaves -/

@[simp] theorem requestPass_device (s : State) (e : Entry) : (requestPass s).device e = s.device e :=
  by simp [State.device]
@[simp] theorem requestPass_bayDevice (s : State) (e : BayId) : (requestPass s).bayDevice e = s.bayDevice e :=
  by simp [State.bayDevice]
@[simp] theorem requestPass_inverters (s : State) : (requestPass s).al.inverters = s.al.inverters :=
  (requestPass_untouched s).inverters
@[simp] theorem requestPass_inverter (s : State) (e : InverterId) : (requestPass s).inverter e = s.inverter e :=
  by simp [State.inverter]
@[simp] theorem requestPass_battery (s : State) : (requestPass s).al.battery = s.al.battery :=
  (requestPass_untouched s).battery
@[simp] theorem requestPass_share (s : State) : (requestPass s).al.share = s.al.share :=
  (requestPass_untouched s).share
@[simp] theorem requestPass_permit (s : State) : (requestPass s).al.permit = s.al.permit :=
  (requestPass_untouched s).permit
@[simp] theorem requestPass_storeLoad (s : State) : (requestPass s).al.storeLoad = s.al.storeLoad :=
  (requestPass_untouched s).storeLoad
@[simp] theorem requestPass_lastPass (s : State) : (requestPass s).al.lastPass = s.al.lastPass :=
  (requestPass_untouched s).lastPass
@[simp] theorem requestPass_usedLoad (s : State) : (requestPass s).al.usedLoad = s.al.usedLoad :=
  (requestPass_untouched s).usedLoad
@[simp] theorem requestPass_usedCanopy (s : State) : (requestPass s).al.usedCanopy = s.al.usedCanopy :=
  (requestPass_untouched s).usedCanopy
@[simp] theorem requestPass_shedActive (s : State) : (requestPass s).shedActive = s.shedActive :=
  by simp [State.shedActive]
@[simp] theorem requestPass_rsvReqActive (s : State) : (requestPass s).rsvReqActive = s.rsvReqActive :=
  by simp [State.rsvReqActive]


/-! ## The answer of a request leaves all but the port -/

@[simp] theorem answer_sc (f r) (s : State) : (answer f r s).sc = s.sc := rfl
@[simp] theorem answer_flc (f r) (s : State) : (answer f r s).flc = s.flc := rfl
@[simp] theorem answer_bays (f r) (s : State) : (answer f r s).bays = s.bays := rfl
@[simp] theorem answer_st (f r) (s : State) : (answer f r s).st = s.st := rfl
@[simp] theorem answer_al (f r) (s : State) : (answer f r s).al = s.al := rfl
@[simp] theorem answer_cs (f r) (s : State) : (answer f r s).cs = s.cs := rfl
@[simp] theorem answer_tc (f r) (s : State) : (answer f r s).tc = s.tc := rfl
@[simp] theorem answer_runTimer (f r) (s : State) : (answer f r s).runTimer = s.runTimer := rfl
@[simp] theorem answer_pending (f r) (s : State) : (answer f r s).pending = s.pending := rfl
@[simp] theorem answer_freeDraws (f r) (s : State) : (answer f r s).freeDraws = s.freeDraws := rfl
@[simp] theorem answer_notices (f r) (s : State) : (answer f r s).hp.notices = s.hp.notices := rfl
@[simp] theorem answer_dropped (f r) (s : State) : (answer f r s).hp.dropped = s.hp.dropped := rfl
@[simp] theorem answer_attn (f r) (s : State) : (answer f r s).hp.attn = s.hp.attn := rfl
@[simp] theorem answer_attnDue (f r) (s : State) : (answer f r s).attnDue = s.attnDue := rfl
@[simp] theorem answer_slot (f : List Byte) (r : Reply) (s : State) (k) : (answer f r s).slot k = s.slot k := rfl
@[simp] theorem answer_bay (f : List Byte) (r : Reply) (s : State) (k) : (answer f r s).bay k = s.bay k := rfl
@[simp] theorem answer_device (f : List Byte) (r : Reply) (s : State) (k) : (answer f r s).device k = s.device k :=
  rfl
@[simp] theorem answer_bayDevice (f : List Byte) (r : Reply) (s : State) (k) : (answer f r s).bayDevice k =
    s.bayDevice k :=
  rfl
@[simp] theorem answer_notice (f : List Byte) (r : Reply) (s : State) (k) : (answer f r s).notice k = s.notice k :=
  rfl
@[simp] theorem answer_inverter (f : List Byte) (r : Reply) (s : State) (k) : (answer f r s).inverter k =
    s.inverter k :=
  rfl
@[simp] theorem answer_account (f : List Byte) (r : Reply) (s : State) (k) : (answer f r s).account k = s.account k :=
  rfl
@[simp] theorem answer_shed (f r) (s : State) : (answer f r s).shedActive = s.shedActive := rfl
@[simp] theorem answer_rsv (f r) (s : State) : (answer f r s).rsvReqActive = s.rsvReqActive := rfl
theorem answer_port (f) (r : Reply) (s t : State) (h : t.freeDraws = s.freeDraws) :
    (answer f r t).hp.port = answeredPort f r.status r.payload s :=
  by
  simp [answer, answeredPort, h]


@[simp] theorem requestPass_attnDue (s : State) : (requestPass s).attnDue = s.attnDue := by simp [State.attnDue]

/-- A request row that finds its request completes in the state its block leaves, with the answer in the port. -/
theorem serve_completed {i : Instr} {f : List Byte} {s t : State} {r : Reply} {act : State → Reply × State}
    (h : Holds i f s) (ha : act s = (r, t)) : serve i act s = .next (completed (answer f r t)) := by
  rw [serve_held act h, ha]
  rfl

/-- An answer that leaves the state as it was. -/
theorem serve_unchanged {i : Instr} {f : List Byte} {s : State} {act : State → Reply × State} {st : Status}
    {fs : List Field} (hp : PassSampled s) (h : Holds i f s) (ha : act s = (⟨st, fs⟩, s)) :
    serve i act s = .next (s.answered f st fs s) :=
  serve_answered act h ha rfl hp

/-! ## Pass requests followed by edits -/

/-- AL's pass and its snapshot are the same. -/
structure SamePass (s t : State) : Prop where
  passState : t.al.passState = s.al.passState
  snapshot : t.al.snapshot = s.al.snapshot

theorem SamePass.refl (s : State) : SamePass s s := ⟨rfl, rfl⟩

theorem requestPass_asked {s t : State} (h : SamePass s t) : PassAsked s (requestPass t) := by
  unfold PassAsked requestPass
  cases hp : t.al.passState <;> cases hg : t.sc.gate <;> simp [h.passState ▸ hp, hg, hp, h.snapshot]

theorem PassAsked.edit {s t u : State} (h : PassAsked s t) (e : Edit t u) : PassAsked s u := by
  unfold PassAsked at *
  cases e with
  | pass =>
    unfold requestPass
    cases hp : t.al.passState <;> cases hg : t.sc.gate <;> cases hs : s.al.passState <;> simp_all
  | bay | slot | counters | notice | queue | credits | account => exact h

/-- A pass request stays asked for under any chain of small edits. -/
theorem PassAsked.edits {s t u : State} (h : PassAsked s t) (e : Edits t u) : PassAsked s u := by
  induction e with
  | refl => exact h
  | tail _ e ih => exact ih.edit e

/-- A pass request after any chain of small edits. -/
theorem Edits.asked {s t u : State} (e : Edits t u) (h : SamePass s t) : PassAsked s (requestPass u) := by
  suffices SamePass s u ∨ PassAsked s u by
    rcases this with h | h
    · exact requestPass_asked h
    · exact h.edits (requestPass_edits u)
  induction e with
  | refl => exact .inl h
  | tail _ e ih =>
    rcases ih with ih | ih
    · cases e with
      | pass => exact .inr (requestPass_asked ih)
      | bay | slot | counters | notice | queue | credits | account => exact .inl ⟨ih.1, ih.2⟩
    · exact .inr (ih.edit e)

/-- A snapshot depends on the records it copies alone (R75). -/
theorem takeSnapshot_congr {s t : State} (h1 : t.sc = s.sc) (h2 : t.flc = s.flc) (h3 : t.bays = s.bays) (h4 : t.st = s.st)
    (h5 : t.cs.accounts = s.cs.accounts)
    (h6 : t.al.queue.map (fun m => (m.slot, m.cls, m.arrival)) =
      s.al.queue.map (fun m => (m.slot, m.cls, m.arrival)))
    (h7 : t.al.inverters = s.al.inverters) (h8 : t.al.battery = s.al.battery) (h9 : t.al.storeLoad = s.al.storeLoad)
    (h10 : t.al.permit = s.al.permit) : t.takeSnapshot = s.takeSnapshot := by
  have hd : ∀ e, t.device e = s.device e := fun e => by simp [State.device, h2]
  have hb : ∀ e, t.bay e = s.bay e := fun e => by simp [State.bay, h3]
  have hs : ∀ e, t.slot e = s.slot e := fun e => by simp [State.slot, h4]
  have hi : ∀ e, t.inverter e = s.inverter e := fun e => by simp [State.inverter, h7]
  have ha : ∀ e, t.account e = s.account e := fun e => by simp [State.account, h5]
  have hsb : t.snapBay = s.snapBay := by
    funext b; simp [State.snapBay, hb, State.bayOnline, State.bayDevice, hd, State.standing, State.wireStanding, h2]
  have hsi : t.snapInverter = s.snapInverter := by
    funext b; simp [State.snapInverter, hd, hi]
  have hq : t.al.queue.map t.snapMember = s.al.queue.map s.snapMember := by
    have e1 : ∀ u : State, u.al.queue.map u.snapMember =
        (u.al.queue.map (fun m => (m.slot, m.cls, m.arrival))).map fun q =>
      let x := u.slot q.1
      { slot := q.1, sequence := x.sequence, cls := q.2.1, arrival := q.2.2, bay := x.bay, state := x.state
        runPermit := x.runPermit, demand := x.demand, firmSteps := u.firmStepsOf x } := by
        intro u; rw [List.map_map]; rfl
    rw [e1, e1, h6]
    have : ∀ x, t.firmStepsOf x = s.firmStepsOf x := by intro x; simp [State.firmStepsOf, ha]
    simp [hs, this]
  unfold State.takeSnapshot
  simp [hsb, hsi, hq, hd, h1, h8, h9, h10]

theorem completed_takeSnapshot (t : State) : (completed t).takeSnapshot = t.takeSnapshot := by
  apply takeSnapshot_congr <;> (try simp)
  unfold completed sampleIfBegun; dsimp only; split
  · simp only [List.map_map]; rfl
  · rfl

/-- A pass asked for has been requested, once the command is completed. -/
theorem PassAsked.completed {s t : State} (hp : PassSampled s) (h : PassAsked s t) : PassRequested s (completed t) :=
  by
  obtain ⟨h1, h2, h3⟩ := h
  refine ⟨by simpa using h1, ?_, ?_⟩
  · intro hr
    obtain ⟨a, b, c⟩ := h2 hr
    refine ⟨by simpa using a, by simpa using b, ?_⟩
    have : sampleIfBegun t = t := sampleIfBegun_of_sampled (by intro _; rw [c]; exact hp hr)
    show (sampleIfBegun t).al.snapshot = _
    rw [this, c]
  · intro hg hi
    obtain ⟨a, b, c⟩ := h3 (by simpa using hg) hi
    refine ⟨by simpa using a, ?_, by simpa using c⟩
    rw [completed_takeSnapshot]
    exact sampleIfBegun_begun a b

/-- A chain of small edits keeps the results of the passes. -/
theorem Untouched.results {s t : State} (h : Untouched s t) : ResultsKept s t :=
  ⟨h.share, h.permit, h.inverters, h.battery, h.storeLoad, h.lastPass⟩

theorem ResultsKept.completed {s t : State} (h : ResultsKept s t) : ResultsKept s (completed t) := by
  simpa [ResultsKept] using h

theorem Counted.completed {k : NoticeKind} {a key : Nat} {s t : State} (h : Counted k a key s t) :
    Counted k a key s (completed t) := by
  simpa [Counted] using h

end Sys2Proof.Machine
end

