-- ==== Sys2Proof/Laws/Sessions.lean ====
section
/-! SUPPORT. The operations on one session: releasing its holdings, settling it, entering ENDING. `At k b s t`: t differs from s
in slot k and bay b alone, among slots and bays; then what the settlement leaves in them, field by field, and each operation in one statement of Safety.lean (`Settled`, `Failed`,
`EndingEntered`, `EndingLost`). -/

namespace Sys2Proof.Machine

/-- A pass request after any chain of small edits from the same state. -/
theorem PassAsked.ofEdits {s u : State} (e : Edits s u) : PassAsked s (requestPass u) := e.asked (.refl s)

/-- The operations on one session: every other slot and bay, and the session store's counters, are as they were. -/
structure At (k : SlotId) (b : BayId) (s t : State) : Prop where
  slots : ∀ j, j ≠ k → t.slot j = s.slot j
  bays : ∀ c, c ≠ b → t.bay c = s.bay c
  sequence : t.st.sequence = s.st.sequence
  arrival : t.st.arrival = s.st.arrival

theorem At.refl (k b s) : At k b s s := ⟨fun _ _ => rfl, fun _ _ => rfl, rfl, rfl⟩

theorem At.trans {k b} {s t u : State} (h : At k b s t) (g : At k b t u) : At k b s u :=
  ⟨fun j hj => (g.slots j hj).trans (h.slots j hj), fun j hj => (g.bays j hj).trans (h.bays j hj),
    g.3.trans h.3, g.4.trans h.4⟩

theorem At.pass (k b s) : At k b s (requestPass s) := by constructor <;> simp

theorem At.passIf (k b s) (c) : At k b s (requestPassIf c s) := by constructor <;> simp

theorem At.setSlot (k b s x) : At k b s (s.setSlot k x) := ⟨fun _ hj => slot_setSlot_ne s x hj, fun _ _ => rfl, rfl, rfl⟩

theorem At.modSlot (k b s f) : At k b s (s.modSlot k f) := At.setSlot _ _ _ _

theorem At.setBay (k b s x) : At k b s (s.setBay b x) := ⟨fun _ _ => rfl, fun _ hj => bay_setBay_ne s x hj, rfl, rfl⟩

theorem At.modBay (k b s f) : At k b s (s.modBay b f) := At.setBay _ _ _ _

theorem At.notice (k b s n a key) : At k b s (countNotice n a key s) := ⟨fun _ _ => rfl, fun _ _ => rfl, rfl, rfl⟩

theorem At.queue (k b s q) : At k b s { s with al.queue := q } := ⟨fun _ _ => rfl, fun _ _ => rfl, rfl, rfl⟩

theorem At.leave (k b s) : At k b s (leaveQueue k s) := (At.queue _ _ _ _).trans (At.pass _ _ _)

theorem At.grants (k b s a c) : At k b s (writeGrants b a c s) := (At.setBay k b s _).trans (At.passIf _ _ _ _)

theorem At.grantSet (k b s a) : At k b s (writeGrantSet b a s) := At.grants _ _ _ _ _

theorem At.ofRecords {k b s t} (h1 : t.st = s.st) (h2 : t.bays = s.bays) : At k b s t :=
  ⟨fun _ _ => by simp [State.slot, h1], fun _ _ => by simp [State.bay, h2], by rw [h1], by rw [h1]⟩

theorem At.ite {k b s t u} {c : Prop} [Decidable c] (h : At k b s t) (g : At k b s u) :
    At k b s (if c then t else u) := by split <;> assumption

theorem At.enterFault (k b s) : At k b s (enterFault b s) := by
  unfold Machine.enterFault
  refine At.trans ?_ (At.notice _ _ _ _ _ _)
  refine At.trans ?_ (At.pass _ _ _)
  exact (At.modBay k b s _).trans (At.grantSet _ _ _ _)

theorem At.enterBlocked (k b s) : At k b s (enterBlocked b s) := by
  unfold Machine.enterBlocked
  exact (At.modBay k b s _).trans (At.grantSet _ _ _ _)

theorem At.endHold (k b s) : At k b s (endHold k s) := by
  unfold Machine.endHold
  split
  · dsimp only; split
    · exact At.trans (At.modSlot k b s fun x => { x with accountHold := false }) (At.ofRecords rfl rfl)
    · exact At.modSlot _ _ _ _
  · exact At.refl _ _ _

theorem releaseCredit_st (key r s) : (releaseCredit key r s).st = s.st := by
  unfold releaseCredit; split
  · rfl
  · split <;> rfl

theorem releaseCredit_bays (key r s) : (releaseCredit key r s).bays = s.bays := by
  unfold releaseCredit; split
  · rfl
  · split <;> rfl

theorem releaseCredit_al (key r s) : (releaseCredit key r s).al = s.al := by
  unfold releaseCredit; split
  · rfl
  · split <;> rfl

theorem releaseCredit_hp (key r s) : (releaseCredit key r s).hp = s.hp := by
  unfold releaseCredit; split
  · rfl
  · split <;> rfl

theorem At.releaseSource (k b s) : At k b s (releaseSource k s) := by
  unfold Machine.releaseSource
  dsimp only; split
  · exact At.refl _ _ _
  · exact (At.modSlot k b s _).trans (At.ofRecords (releaseCredit_st _ _ _) (releaseCredit_bays _ _ _))
  · refine At.trans ?_ (At.endHold _ _ _)
    exact At.trans (At.modSlot k b s fun x => { x with source := none, blockLeft := 0, finalBlock := false }) (At.ofRecords rfl rfl)

theorem At.releaseHoldings (k b s) : At k b s (releaseHoldings k s) := by
  unfold Machine.releaseHoldings; split
  · exact At.releaseSource _ _ _
  · exact At.endHold _ _ _

theorem At.settleBay (k b k' a s) : At k b s (settleBay b k' a s) := by
  unfold Machine.settleBay
  dsimp only
  have h := (At.modBay k b s (fun y => { y with scan := .empty, lostDeadline := none })).trans (At.grantSet k b _ 0)
  generalize writeGrantSet b 0 _ = t at h ⊢
  cases a <;> dsimp only
  · exact h.trans (At.modBay _ _ _ _)
  · exact h.trans (At.modBay _ _ _ _)
  · exact h.trans (At.enterFault _ _ _)
  · exact h.trans ((At.modBay _ _ _ _).trans (At.enterBlocked _ _ _))

theorem At.makeReceipt (k b s) : At k b s (makeReceipt k s) := (At.modSlot k b s _).trans (At.notice _ _ _ _ _ _)

theorem At.settleSlot (k b c s) : At k b s (settleSlot k c s) := (At.setSlot k b s _).trans (At.passIf _ _ _ _)

theorem At.settle (k c a s) : At k (s.slot k).bay s (settle k c a s) := by
  unfold Machine.settle; dsimp only
  refine At.trans ?_ (At.makeReceipt _ _ _)
  refine At.trans ?_ (At.releaseHoldings _ _ _)
  refine At.trans ?_ (At.settleBay _ _ _ _ _)
  split
  · exact (At.settleSlot _ _ _ _).trans (At.leave _ _ _)
  · exact At.settleSlot _ _ _ _

/-! ## What a settlement leaves in its own slot and bay (R63, R64, R156) -/
theorem endHold_slot (k s) : (endHold k s).slot k = { s.slot k with accountHold := false } := by
  unfold endHold
  split
  · dsimp only; split
    · simp [State.modAccount]
    · simp
  · rename_i h; cases hs : s.slot k; simp [hs] at h ⊢; exact h

theorem endHold_bays (k s) : (endHold k s).bays = s.bays := by
  unfold endHold; split
  · dsimp only; split <;> rfl
  · rfl

theorem endHold_al (k s) : (endHold k s).al = s.al := by
  unfold endHold; split
  · dsimp only; split <;> rfl
  · rfl

theorem endHold_hp (k s) : (endHold k s).hp = s.hp := by
  unfold endHold; split
  · dsimp only; split <;> rfl
  · rfl

theorem releaseSource_bays (k s) : (releaseSource k s).bays = s.bays := by
  unfold releaseSource; dsimp only; split
  · rfl
  · rw [releaseCredit_bays]; rfl
  · rw [endHold_bays]; rfl

theorem releaseSource_al (k s) : (releaseSource k s).al = s.al := by
  unfold releaseSource; dsimp only; split
  · rfl
  · rw [releaseCredit_al]; rfl
  · rw [endHold_al]; rfl

theorem releaseSource_hp (k s) : (releaseSource k s).hp = s.hp := by
  unfold releaseSource; dsimp only; split
  · rfl
  · rw [releaseCredit_hp]; rfl
  · rw [endHold_hp]; rfl

theorem releaseHoldings_bays (k s) : (releaseHoldings k s).bays = s.bays := by
  unfold releaseHoldings; split
  · exact releaseSource_bays _ _
  · exact endHold_bays _ _

theorem releaseHoldings_al (k s) : (releaseHoldings k s).al = s.al := by
  unfold releaseHoldings; split
  · exact releaseSource_al _ _
  · exact endHold_al _ _

theorem releaseHoldings_hp (k s) : (releaseHoldings k s).hp = s.hp := by
  unfold releaseHoldings; split
  · exact releaseSource_hp _ _
  · exact endHold_hp _ _

/-- The slot after its holdings are released. -/
theorem releaseHoldings_slot (k s) : ∃ h fb bl, (releaseHoldings k s).slot k =
      { s.slot k with source := none, blockLeft := bl, finalBlock := fb, accountHold := h }
    ∧ ((∀ key, (s.slot k).source ≠ some (.credit key)) → h = false) := by
  unfold releaseHoldings
  split
  · rename_i src hs
    unfold releaseSource
    simp only [hs]
    cases src with
    | credit key =>
      refine ⟨(s.slot k).accountHold, false, 0, ?_, fun h => absurd rfl (h key)⟩
      simp only [State.slot, releaseCredit_st]
      show (State.modSlot s k _).slot k = _
      rw [slot_modSlot_same]; rfl
    | account i =>
      refine ⟨false, false, 0, ?_, fun _ => rfl⟩
      simp only
      rw [endHold_slot]
      simp [State.modAccount]
  · rename_i hs
    refine ⟨false, (s.slot k).finalBlock, (s.slot k).blockLeft, ?_, fun _ => rfl⟩
    rw [endHold_slot]
    rw [← hs]

/-- The bay record after a settlement, for each state the bay can enter. -/
def bayAfterSettle (k : SlotId) (a : BayAfter) (y : Bay) : Bay :=
  let base := { y with scan := .empty, lostDeadline := none, grantSet := 0 }
  let ackWait := if y.grantAck ≤ 0 then none else y.ackWait
  match a with
  | .idle => { base with ackWait := ackWait, state := .idle, session := none }
  | .stopped => { base with ackWait := ackWait, state := .stopped, session := some k, stopFlag := true }
  | .fault => { base with state := .fault, session := none, stopFlag := true, message := none, ackWait := none }
  | .blocked => { base with state := .blocked, session := none, stopFlag := true, message := none, ackWait := none }

theorem settleBay_bay (b k a s) : (settleBay b k a s).bay b = 
    bayAfterSettle k a (s.bay b) := by
  unfold settleBay bayAfterSettle
  cases a
  · simp [writeGrantSet, writeGrants_bay, Bay.withGrants]
  · simp [writeGrantSet, writeGrants_bay, Bay.withGrants]
  · simp [enterFault, writeGrantSet, writeGrants_bay, Bay.withGrants]
  · simp [enterBlocked, writeGrantSet, writeGrants_bay, Bay.withGrants]

theorem settleBay_st (b k a s) : (settleBay b k a s).st = s.st := by
  unfold settleBay
  cases a <;> simp [writeGrantSet, enterFault, enterBlocked]

/-- The bay's part of a settlement counts no notice but the FAULT one. -/
theorem settleBay_hp (b k s) : (settleBay b k .idle s).hp = s.hp
    ∧ (settleBay b k .stopped s).hp = s.hp ∧ (settleBay b k .blocked s).hp = s.hp := by
  unfold settleBay
  refine ⟨?_, ?_, ?_⟩ <;> simp [writeGrantSet, enterBlocked]

theorem settleBay_hp_fault (b k s) : (settleBay b k .fault s).notice .receiptReady = s.notice .receiptReady := by
  unfold settleBay
  simp only [enterFault]
  rw [countNotice_ne _ _ _ (by decide)]
  simp [State.notice, writeGrantSet]

/-- The session record as it enters SETTLED. -/
def settledSlot (c : Option EndCause) (at_ : Stamp) (x : Slot) : Slot :=
  { x with
    state := .settled, endTime := some at_, endCause := c.or x.endCause, authDeadline := none, endDeadline := none
    runPermit := false, suspendCause := none }

/-- A settled session: its holdings are released and its receipt is made. -/
theorem settle_slot (k c a s) : ∃ h fb bl r, (settle k c a s).slot k = { settledSlot c s.stamp (s.slot k) with
      source := none, blockLeft := bl, finalBlock := fb, accountHold := h, receipt := some r }
     ∧ ((∀ key, (s.slot k).source ≠ some (.credit key)) → h = false)
    ∧ r.slot = k ∧ r.sequence = (s.slot k).sequence ∧ r.bay = (s.slot k).bay ∧ r.endCause = c.or (s.slot k).endCause
    ∧ r.energyWh = (s.slot k).energyWh ∧ r.flags = (s.slot k).flags := by
  unfold settle; dsimp only
  set s2 := (if (s.slot k).state.queued = true then leaveQueue k (settleSlot k c s) else settleSlot k c s) with hs2
  have h2 : s2.slot k = settledSlot c s.stamp (s.slot k) := by
    rw [hs2]
    have e1 : (settleSlot k c s).slot k = settledSlot c s.stamp (s.slot k) := by simp [settleSlot, settledSlot]
    split
    · unfold leaveQueue; rw [requestPass_slot]; exact e1
    · exact e1
  have h3 : (settleBay (s.slot k).bay k a s2).slot k = s2.slot k := by simp [State.slot, settleBay_st]
  obtain ⟨h, fb, bl, e, hh⟩ := releaseHoldings_slot k (settleBay (s.slot k).bay k a s2)
  refine ⟨h, fb, bl, receiptOf k ((releaseHoldings k (settleBay (s.slot k).bay k a s2)).slot k), ?_, ?_, ?_⟩
  · unfold makeReceipt
    rw [countNotice_slot, slot_modSlot_same, e, h3, h2]
  · intro hk; apply hh; rw [h3, h2]; exact hk
  · rw [e, h3, h2]; exact ⟨rfl, rfl, rfl, rfl, rfl, rfl⟩

theorem settle_bay (k c a s) : (settle k c a s).bay (s.slot k).bay = 
    bayAfterSettle k a (s.bay (s.slot k).bay) := by
  unfold settle; dsimp only [makeReceipt]
  rw [countNotice_bay, modSlot_bay]
  have e : ∀ t : State, (releaseHoldings k t).bay (s.slot k).bay = t.bay (s.slot k).bay := by
    intro t; simp [State.bay, releaseHoldings_bays]
  rw [e, settleBay_bay]
  have : (if (s.slot k).state.queued = true then leaveQueue k (settleSlot k c s) else settleSlot k c s).bay
      (s.slot k).bay = s.bay (s.slot k).bay := by
    split
    · simp [leaveQueue, settleSlot, State.bay]
    · simp [settleSlot]
  rw [this]

theorem Counted.answer {k : NoticeKind} {a key} {s t : State} (h : Counted k a key s t) (f r) :
    Counted k a key s (answer f r t) := h

theorem settle_hp_pre (k c s) :
    (if (s.slot k).state.queued = true then leaveQueue k (settleSlot k c s) else settleSlot k c s).hp = s.hp := by
  split <;> simp [leaveQueue, settleSlot]

theorem settle_counted (k c s) (a : BayAfter) (h : a = .idle ∨ a = .stopped) :
    Counted .receiptReady k.val 0 s (settle k c a s) := by
  have hh : (releaseHoldings k (settleBay (s.slot k).bay k a
      (if (s.slot k).state.queued = true then leaveQueue k (settleSlot k c s) else settleSlot k c s))).hp = s.hp := by
    rw [releaseHoldings_hp]
    rcases h with rfl | rfl
    · rw [(settleBay_hp _ _ _).1, settle_hp_pre]
    · rw [(settleBay_hp _ _ _).2.1, settle_hp_pre]
  unfold settle; dsimp only [makeReceipt]
  refine ⟨?_, ?_⟩
  · rw [countNotice_same]; simp [Notice.occur, State.notice, hh]
  · intro j hj; rw [countNotice_ne _ _ _ hj]; simp [State.notice, hh]

theorem At.only {k b} {s t : State} (h : At k b s t) (u : Untouched s t) : OnlyAt k b s t :=
  ⟨h.slots, h.bays, h.sequence, h.arrival, u.sc, u.flc, u.tc, u.runTimer, u.pending, u.dropped, u.results⟩

theorem OnlyAt.completed {k b} {s t : State} (h : OnlyAt k b s t) : OnlyAt k b s (completed t) := by
  obtain ⟨a1,a2,a3,a4,a5,a6,a7,a8,a9,a10,a11⟩ := h
  exact ⟨by simpa using a1, by simpa using a2, by simpa using a3, by simpa using a4, by simpa using a5,
    by simpa using a6, by simpa using a7, by simpa using a8, by simpa using a9, by simpa using a10, a11.completed⟩

theorem OnlyAt.answer {k b} {s t : State} (h : OnlyAt k b s t) (f r) : OnlyAt k b s (answer f r t) := by
  obtain ⟨a1,a2,a3,a4,a5,a6,a7,a8,a9,a10,a11⟩ := h
  exact ⟨a1,a2,a3,a4,a5,a6,a7,a8,a9,a10,a11⟩

theorem settle_only (k c a s) : OnlyAt k (s.slot k).bay s (settle k c a s) :=
  At.only (At.settle k c a s) (settle_edits k c a s).untouched

/-- A settlement whose bay enters FAULT requests a pass. -/
theorem settle_fault_asked (k c s) : PassAsked s (settle k c .fault s) := by
  unfold settle; dsimp only
  refine PassAsked.edits ?_ ((releaseHoldings_edits k _).trans (makeReceipt_edits k _))
  unfold settleBay; dsimp only
  unfold enterFault; dsimp only
  refine PassAsked.edits ?_ (countNotice_edits _ _ _ _)
  refine PassAsked.ofEdits ?_
  refine Edits.trans ?_ (writeGrantSet_edits _ 0 _)
  refine Edits.trans ?_ (modBay_edits _ _ _ fun _ => ⟨rfl, rfl, rfl, rfl, rfl, rfl⟩)
  refine Edits.trans ?_ (writeGrantSet_edits _ 0 _)
  refine Edits.trans ?_ (modBay_edits _ _ _ fun _ => ⟨rfl, rfl, rfl, rfl, rfl, rfl⟩)
  split
  · exact (settleSlot_edits k c s).trans (leaveQueue_edits k _)
  · exact settleSlot_edits k c s

/-- The session record as ENDING is entered (R58). -/
def endingSlot (k : SlotId) (cause : EndCause) (s : State) : State := s.setSlot k { s.slot k with
      state := .ending
      endCause := some cause
      runPermit := false
      suspendCause := none
      endDeadline := some (s.runTimer + s.sc.timing.tEnd * 1000) }
/-- Then the session leaves the admission queue. -/
def endingQueue (k : SlotId) (cause : EndCause) (s : State) : State :=
  leaveQueue k (requestPassIf (s.slot k).runPermit (endingSlot k cause s))
/-- The stop flag is taken and the scan dropped. -/
def endingMarks (y : Bay) : Bay := { y with stopFlag := true, scan := .empty }

/-- Then the bay takes the stop flag and a grant of 0, and its scan is dropped. -/
def endingBay (k : SlotId) (cause : EndCause) (s : State) : State :=
  writeGrantSet (s.slot k).bay 0 ((endingQueue k cause s).modBay (s.slot k).bay endingMarks)

theorem enterEnding_eq (k c s) : enterEnding k c s =
    if (endingBay k c s).bayOnline (s.slot k).bay then endingBay k c s else settleLost k (endingBay k c s) := rfl

theorem endingQueue_edits (k c s) : Edits s (endingQueue k c s) :=
  ((setSlot_edits s k _).trans (requestPassIf_edits _ _)).trans (leaveQueue_edits k _)

theorem endingBay_edits (k c s) : Edits s (endingBay k c s) :=
  ((endingQueue_edits k c s).trans (modBay_edits _ (s.slot k).bay endingMarks fun _ => ⟨rfl, rfl, rfl, rfl, rfl, rfl⟩)).trans
    (writeGrantSet_edits _ 0 _)

theorem endingQueue_at (k b c s) : At k b s (endingQueue k c s) :=
  ((At.setSlot _ _ _ _).trans (At.passIf _ _ _ _)).trans (At.leave _ _ _)

theorem endingBay_at (k c s) : At k (s.slot k).bay s (endingBay k c s) :=
  ((endingQueue_at _ _ _ _).trans (At.modBay _ _ _ _)).trans (At.grantSet _ _ _ _)

theorem endingBay_online (k c s) : (endingBay k c s).bayOnline (s.slot k).bay = s.bayOnline (s.slot k).bay := by
  simp only [State.bayOnline, State.bayDevice, State.device, (endingBay_edits k c s).untouched.flc]

theorem endingQueue_slot (k c s) : (endingQueue k c s).slot k = { s.slot k with
      state := .ending
      endCause := some c
      runPermit := false
      suspendCause := none
      endDeadline := some (s.runTimer + s.sc.timing.tEnd * 1000) } := by
  unfold endingQueue leaveQueue
  rw [requestPass_slot]
  show (requestPassIf _ _).slot k = _
  rw [requestPassIf_slot]
  exact slot_setSlot_same _ _ _

theorem endingBay_slot (k c s) : (endingBay k c s).slot k = { s.slot k with
      state := .ending
      endCause := some c
      runPermit := false
      suspendCause := none
      endDeadline := some (s.runTimer + s.sc.timing.tEnd * 1000) } := by
  unfold endingBay writeGrantSet
  rw [writeGrants_slot, modBay_slot, endingQueue_slot]

theorem endingQueue_bays (k c s) : (endingQueue k c s).bays = s.bays := by simp [endingQueue, endingSlot, leaveQueue]

theorem endingBay_bay (k c s) : (endingBay k c s).bay (s.slot k).bay = { s.bay (s.slot k).bay with
              stopFlag := true, scan := .empty, grantSet := 0
              ackWait := if (s.bay (s.slot k).bay).grantAck = 0 then none else (s.bay (s.slot k).bay).ackWait } := by
  have : (endingQueue k c s).bay (s.slot k).bay = s.bay (s.slot k).bay := by simp only [State.bay, endingQueue_bays]
  unfold endingBay writeGrantSet
  rw [writeGrants_bay, bay_modBay_same, this]
  simp [Bay.withGrants, endingMarks]

theorem endingBay_asked (k c s) : PassAsked s (endingBay k c s) := by
  unfold endingBay
  refine PassAsked.edits ?_ ((modBay_edits _ (s.slot k).bay endingMarks fun _ => ⟨rfl, rfl, rfl, rfl, rfl, rfl⟩).trans
    (writeGrantSet_edits _ 0 _))
  unfold endingQueue leaveQueue
  exact PassAsked.ofEdits (((setSlot_edits s k _).trans (requestPassIf_edits _ _)).trans (.one (.queue _ _)))

theorem endingBay_queue (k c s) : (endingBay k c s).al.queue = s.al.queue.filter (fun m => m.slot != k) := by
  unfold endingBay writeGrantSet writeGrants
  dsimp only
  rw [requestPassIf_queue]
  show (endingQueue k c s).al.queue = _
  unfold endingQueue leaveQueue
  rw [requestPass_queue]
  show List.filter _ _ = _
  rw [requestPassIf_queue]; rfl

theorem endingBay_cs (k c s) : (endingBay k c s).cs = s.cs := by
  simp [endingBay, endingQueue, endingSlot, writeGrantSet, leaveQueue]

theorem endingBay_hp (k c s) : (endingBay k c s).hp = s.hp := by
  simp [endingBay, endingQueue, endingSlot, writeGrantSet, leaveQueue]

/-! ## What each operation leaves, as one statement -/

/-- A bay's part of a settlement leaves the queue as it is. -/
theorem settleBay_queue (b k a s) : (settleBay b k a s).al.queue = s.al.queue := by
  cases a <;> simp [settleBay, enterFault, enterBlocked, writeGrantSet, countNotice, evalAttn, State.setNotice, writeGrants]

theorem settle_queue (k c a s) : (settle k c a s).al.queue =
    if (s.slot k).state.queued then s.al.queue.filter (fun m => m.slot != k) else s.al.queue := by
  unfold settle
  dsimp only [makeReceipt]
  show (releaseHoldings k _).al.queue = _
  rw [releaseHoldings_al, settleBay_queue]
  split <;> simp [leaveQueue, settleSlot]

/-- A settlement counts one RECEIPT_READY, whatever state the bay is given. -/
theorem settle_receiptReady (k c a s) :
    (settle k c a s).notice .receiptReady = (s.notice .receiptReady).occur k.val 0 := by
  have bay : ∀ b t, (settleBay b k a t).notice .receiptReady = t.notice .receiptReady := by
    intro b t
    cases a
    · simp only [State.notice, (settleBay_hp b k t).1]
    · simp only [State.notice, (settleBay_hp b k t).2.1]
    · exact settleBay_hp_fault b k t
    · simp only [State.notice, (settleBay_hp b k t).2.2]
  unfold settle
  dsimp only [makeReceipt]
  rw [countNotice_same]
  congr 1
  show (releaseHoldings k _).notice .receiptReady = _
  simp only [State.notice, releaseHoldings_hp]
  have := bay (s.slot k).bay (if (s.slot k).state.queued = true then leaveQueue k (settleSlot k c s) else settleSlot k c s)
  simp only [State.notice] at this
  rw [this, settle_hp_pre]

/-- A queued session that is settled leaves the queue, which is a pass request. -/
theorem settle_asked (k c a s) (h : (s.slot k).state.queued = true) : PassAsked s (settle k c a s) := by
  unfold settle
  dsimp only
  rw [if_pos h]
  refine PassAsked.edits ?_ (((settleBay_edits _ _ _ _).trans (releaseHoldings_edits k _)).trans (makeReceipt_edits k _))
  exact PassAsked.ofEdits ((settleSlot_edits k c s).trans (.one (.queue _ _)))

/-- What a settlement leaves (R56). -/
theorem settle_settled (k c a s) : Settled k (s.slot k).bay (c.or (s.slot k).endCause) s (settle k c a s) := by
  obtain ⟨h, fb, bl, r, e, -, -⟩ := settle_slot k c a s
  refine ⟨?_, ?_, ?_, ?_, ?_, ?_, ?_, ?_, ?_, ?_, ?_, fun hq => settle_asked k c a s hq, ?_, countNotice_attn _ _ _ _⟩
  · rw [e]; rfl
  · rw [e]; rfl
  · rw [e]; rfl
  · rw [e]; exact ⟨rfl, rfl⟩
  · rw [e]; exact ⟨rfl, rfl⟩
  · rw [e]
  · rw [e]; exact ⟨rfl, rfl, rfl⟩
  · rw [e]; exact ⟨rfl, rfl, rfl, rfl, rfl, rfl⟩
  · unfold settle
    dsimp only [makeReceipt]
    rw [countNotice_slot, slot_modSlot_same]
    rfl
  · rw [settle_bay]
    cases a <;> exact ⟨rfl, rfl, rfl⟩
  · rw [settle_queue]
    split
    · rw [List.filter_map]; rfl
    · rfl
  · rw [settle_receiptReady]; exact ⟨rfl, rfl⟩

/-- What an entry into FAULT leaves (R43, R98). -/
theorem enterFault_failed (b s) : Failed b s (enterFault b s) := by
  have e : (enterFault b s).bay b = { s.bay b with
      state := .fault, session := none, stopFlag := true, message := none, ackWait := none, grantSet := 0 } := by
    simp [enterFault, writeGrantSet, writeGrants_bay, Bay.withGrants]
  refine ⟨by rw [e], by rw [e], by rw [e], by rw [e], by rw [e], by rw [e], ?_,
    by unfold enterFault; exact countNotice_attn _ _ _ _, ?_⟩
  · unfold enterFault
    dsimp only
    rw [countNotice_same]
    simp [Notice.occur, State.notice, writeGrantSet]
  · unfold enterFault
    dsimp only
    refine PassAsked.edits ?_ (countNotice_edits _ _ _ _)
    refine PassAsked.ofEdits ?_
    refine Edits.trans ?_ (writeGrantSet_edits _ 0 _)
    exact modBay_edits _ _ _ fun _ => ⟨rfl, rfl, rfl, rfl, rfl, rfl⟩

/-- The bay's part of a settlement that enters FAULT counts one BAY_FAULT. -/
theorem settleBay_bayFault (b k s) : (settleBay b k .fault s).notice .bayFault = (s.notice .bayFault).occur b.val 0 := by
  unfold settleBay enterFault
  dsimp only
  rw [countNotice_same]
  simp [State.notice, writeGrantSet]

/-- A settlement whose bay enters FAULT leaves it so. -/
theorem settle_failed (k c s) : Failed (s.slot k).bay s (settle k c .fault s) := by
  have e := settle_bay k c .fault s
  simp only [bayAfterSettle] at e
  refine ⟨by rw [e], by rw [e], by rw [e], by rw [e], by rw [e], by rw [e], ?_,
    by unfold settle; exact countNotice_attn _ _ _ _, settle_fault_asked k c s⟩
  have n : (settle k c .fault s).notice .bayFault = (s.notice .bayFault).occur (s.slot k).bay.val 0 := by
    have := settleBay_bayFault (s.slot k).bay k
      (if (s.slot k).state.queued = true then leaveQueue k (settleSlot k c s) else settleSlot k c s)
    simp only [State.notice, settle_hp_pre] at this
    unfold settle
    dsimp only [makeReceipt]
    rw [countNotice_ne _ _ _ (by decide)]
    simp only [State.notice, modSlot_hp, releaseHoldings_hp]
    exact this
  rw [n]
  exact ⟨rfl, rfl⟩

/-- An entry into ENDING at an ONLINE bay (R58). -/
theorem enterEnding_entered (k c s) (h : s.bayOnline (s.slot k).bay = true) :
    EndingEntered k (s.slot k).bay c s (enterEnding k c s) := by
  rw [enterEnding_eq, endingBay_online, if_pos h]
  refine ⟨endingBay_slot k c s, endingBay_bay k c s, ?_, endingBay_asked k c s, ⟨endingBay_cs k c s, endingBay_hp k c s⟩,
    At.only (endingBay_at k c s) (endingBay_edits k c s).untouched⟩
  rw [endingBay_queue, List.filter_map]
  rfl

/-- An entry into ENDING at an OFFLINE bay (R100, log 30). -/
theorem enterEnding_lost (k c s) (hq : (s.slot k).state.queued = true) (h : s.bayOnline (s.slot k).bay = false) :
    EndingLost k (s.slot k).bay s (enterEnding k c s) := by
  rw [enterEnding_eq, endingBay_online, if_neg (by simp [h])]
  unfold settleLost
  set m : State := (endingBay k c s).modSlot k fun x =>
    { x with flags := { x.flags with endUnconfirmed := true, linkLostDuring := true } } with hm
  have x : m.slot k = { s.slot k with
      state := .ending, endCause := some c, runPermit := false, suspendCause := none
      endDeadline := some (s.runTimer + s.sc.timing.tEnd * 1000)
      flags := { (s.slot k).flags with endUnconfirmed := true, linkLostDuring := true } } := by
    rw [hm, slot_modSlot_same, endingBay_slot]
  have xb : (m.slot k).bay = (s.slot k).bay := by rw [x]
  have e : Edits s m := (endingBay_edits k c s).trans (modSlot_edits _ _ _)
  have hp : m.hp = s.hp := by rw [hm, modSlot_hp, endingBay_hp]
  have bay : m.bay (s.slot k).bay = (endingBay k c s).bay (s.slot k).bay := by rw [hm, modSlot_bay]
  have g := settle_settled k (some .linkLost) .fault m
  have f := settle_failed k (some .linkLost) m
  have only := settle_only k (some .linkLost) .fault m
  have asked : PassAsked s (settle k (some .linkLost) .fault m) :=
    ((endingBay_asked k c s).edits (modSlot_edits _ _ _)).edits (settle_edits k (some .linkLost) .fault m)
  have queue : m.al.queue = s.al.queue.filter (fun j => j.slot != k) := by
    rw [hm]; exact endingBay_queue k c s
  obtain ⟨hh, fb, bl, r, es, -⟩ := settle_slot k (some .linkLost) .fault m
  rw [xb] at g f only
  refine ⟨⟨g.state, g.cause, ?_, g.waits, g.permit, g.source, ?_, ?_, g.receipt, g.bay, ?_, fun _ => asked, ?_, g.attn⟩, ?_,
    ⟨f.state, f.session, f.stopFlag, f.message, f.ackWait, f.grantSet, ?_, f.attn, asked⟩, ?_, ?_⟩
  · rw [g.endTime, e.untouched.tc]
  · have := g.session; rw [x] at this; exact this
  · have := g.metered; rw [x] at this; exact this
  · have := g.queue
    rw [x] at this
    rw [this, if_pos hq, if_neg (by simp [SessionState.queued]), queue, List.filter_map]
    rfl
  · have := g.counted; simp only [State.notice, hp] at this; exact this
  · rw [es]; simp only [settledSlot]; rw [x]
  · have := f.counted; simp only [State.notice, hp] at this; exact this
  · have := settle_bay k (some .linkLost) .fault m
    rw [xb, bay, endingBay_bay] at this
    rw [this]; rfl
  · have a : At k (s.slot k).bay s m := (endingBay_at k c s).trans (At.modSlot _ _ _ _)
    have b := At.settle k (some .linkLost) .fault m
    rw [xb] at b
    exact At.only (a.trans b) (e.trans (settle_edits k (some .linkLost) .fault m)).untouched

end Sys2Proof.Machine
end

