-- ==== Sys2Proof/Laws/Passes.lean ====
section
/-! SUPPORT. What the end of a pass writes (R84, R87, R89), one lemma per record: the grants of all bays, the states of the
claimed sessions, and the results, which leave every record but AL's own as it was. -/

namespace Sys2Proof.Machine

/-- One bay's turn in the writing of the grants. -/
def grantStep (s : State) (cs : List Claim) (t : State) (b : BayId) : State :=
  if (s.bay b).declared then
    match s.grantFor cs b with
    | some g => writeGrantSet b g t
    | none => t
  else t

/-- A bay record after its turn in the writing of the grants. -/
def grantedBay (s : State) (cs : List Claim) (b : BayId) (y : Bay) : Bay :=
  if (s.bay b).declared = true then
    match s.grantFor cs b with
    | some g => y.withGrants g y.grantAck
    | none => y
  else y

theorem writeAllGrants_eq (cs : List Claim) (s : State) : writeAllGrants cs s = (indices 48).foldl (grantStep s cs) s := rfl

theorem grantStep_bay (s : State) (cs : List Claim) (t : State) (b : BayId) :
    (grantStep s cs t b).bay b = grantedBay s cs b (t.bay b) := by
  unfold grantStep grantedBay
  split
  · cases s.grantFor cs b <;> simp [writeGrantSet, writeGrants_bay]
  · rfl

theorem grantStep_bay_ne (s : State) (cs : List Claim) (t : State) {b c : BayId} (h : c ≠ b) :
    (grantStep s cs t b).bay c = t.bay c := by
  unfold grantStep
  split
  · split
    · exact writeGrants_bay_ne _ _ _ h
    · rfl
  · rfl

theorem foldl_grantStep_bay (s : State) (cs : List Claim) (l : List BayId) (hn : l.Nodup) (t : State) (c : BayId) :
    (l.foldl (grantStep s cs) t).bay c = if c ∈ l then grantedBay s cs c (t.bay c) else t.bay c := by
  induction l generalizing t with
  | nil => simp
  | cons b l ih =>
    rw [List.foldl_cons, ih hn.of_cons]
    have hb : b ∉ l := (List.nodup_cons.mp hn).1
    by_cases e : c = b
    · subst e
      simp [hb, grantStep_bay]
    · rw [grantStep_bay_ne _ _ _ e]
      simp [e]

/-- The writing of the grants, bay by bay. -/
theorem writeAllGrants_bay (cs : List Claim) (s : State) (c : BayId) :
    (writeAllGrants cs s).bay c = grantedBay s cs c (s.bay c) := by
  rw [writeAllGrants_eq, foldl_grantStep_bay s cs (indices 48) (List.nodup_finRange 48) s c]
  simp [indices]

/-- What a write of a grant keeps, the writing of all of them keeps. -/
theorem writeAllGrants_keeps {α : Type} (f : State → α) (hf : ∀ b g t, f (writeGrantSet b g t) = f t) (cs : List Claim)
    (s : State) : f (writeAllGrants cs s) = f s := by
  rw [writeAllGrants_eq]
  generalize indices 48 = l
  suffices ∀ t, f (l.foldl (grantStep s cs) t) = f t from this s
  induction l with
  | nil => exact fun _ => rfl
  | cons b l ih =>
    intro t
    rw [List.foldl_cons, ih]
    unfold grantStep
    split
    · split
      · exact hf _ _ _
      · rfl
    · rfl

theorem writeAllGrants_st (cs : List Claim) (s : State) : (writeAllGrants cs s).st = s.st :=
  writeAllGrants_keeps (·.st) (fun _ _ _ => by simp [writeGrantSet]) cs s

theorem writeAllGrants_cs (cs : List Claim) (s : State) : (writeAllGrants cs s).cs = s.cs :=
  writeAllGrants_keeps (·.cs) (fun _ _ _ => by simp [writeGrantSet]) cs s

theorem writeAllGrants_hp (cs : List Claim) (s : State) : (writeAllGrants cs s).hp = s.hp :=
  writeAllGrants_keeps (·.hp) (fun _ _ _ => by simp [writeGrantSet]) cs s

theorem writeAllGrants_queue (cs : List Claim) (s : State) : (writeAllGrants cs s).al.queue = s.al.queue :=
  writeAllGrants_keeps (·.al.queue) (fun _ _ _ => by simp [writeGrantSet, writeGrants]) cs s

/-- Where no committed figure is lowered, the writing of the grants requests no pass: AL is as it was (R70, log 7). -/
theorem writeAllGrants_al_of_none_lowered (cs : List Claim) (s : State)
    (hl : ∀ c, (s.bay c).committed ≤ ((writeAllGrants cs s).bay c).committed) : (writeAllGrants cs s).al = s.al := by
  have hl' : ∀ c g, (s.bay c).declared = true → s.grantFor cs c = some g →
      (s.bay c).committed ≤ ((s.bay c).withGrants g (s.bay c).grantAck).committed := by
    intro c g hd hg
    have := hl c
    rw [writeAllGrants_bay, grantedBay, if_pos hd, hg] at this
    exact this
  rw [writeAllGrants_eq]
  have hnd : (indices 48).Nodup := List.nodup_finRange 48
  generalize indices 48 = l at hnd ⊢
  suffices ∀ t, t.al = s.al → (∀ b ∈ l, t.bay b = s.bay b) → (l.foldl (grantStep s cs) t).al = s.al from
    this s rfl (fun _ _ => rfl)
  induction l with
  | nil => exact fun _ h _ => h
  | cons b l ih =>
    intro t h hb
    have hbl : b ∉ l := (List.nodup_cons.mp hnd).1
    rw [List.foldl_cons]
    refine ih hnd.of_cons _ ?_ fun c hc => ?_
    · unfold grantStep
      split
      · rename_i hd
        split
        · rename_i g hg
          have e := hb b List.mem_cons_self
          have := hl' b g hd hg
          unfold writeGrantSet writeGrants
          dsimp only
          rw [e, decide_eq_false (by omega)]
          exact h
        · exact h
      · exact h
    · have hcb : c ≠ b := by rintro rfl; exact hbl hc
      rw [grantStep_bay_ne _ _ _ hcb]
      exact hb c (List.mem_cons_of_mem _ hc)

/-- One claim's turn in the writing of the session states. -/
def stateStep (s t : State) (c : Claim) : State :=
  if s.stillEligible c then t.modSlot c.slot fun x => { x with state := if 0 < c.g then .charging else .waiting } else t

theorem writeSessionStates_eq (cs : List Claim) (s : State) : writeSessionStates cs s = cs.foldl (stateStep s) s := rfl

/-- What a write of one slot keeps, the writing of the session states keeps. -/
theorem writeSessionStates_keeps {α : Type} (f : State → α) (hf : ∀ k x t, f (State.setSlot t k x) = f t) (cs : List Claim)
    (s : State) : f (writeSessionStates cs s) = f s := by
  rw [writeSessionStates_eq]
  suffices ∀ t, f (cs.foldl (stateStep s) t) = f t from this s
  induction cs with
  | nil => exact fun _ => rfl
  | cons c cs ih =>
    intro t
    rw [List.foldl_cons, ih]
    unfold stateStep
    split
    · exact hf _ _ _
    · rfl

/-- A slot after the states are written: as it was when no eligible claim names it, else in the state of one that does. -/
theorem writeSessionStates_slot (cs : List Claim) (s : State) (k : SlotId) :
    ((writeSessionStates cs s).slot k = s.slot k ∧ ∀ c ∈ cs, c.slot = k → s.stillEligible c = false)
      ∨ ∃ c ∈ cs, c.slot = k ∧ s.stillEligible c = true
        ∧ (writeSessionStates cs s).slot k = { s.slot k with state := if 0 < c.g then .charging else .waiting } := by
  rw [writeSessionStates_eq]
  suffices ∀ t : State, (t.slot k = s.slot k ∨ ∃ st, t.slot k = { s.slot k with state := st }) →
      ((cs.foldl (stateStep s) t).slot k = t.slot k ∧ ∀ c ∈ cs, c.slot = k → s.stillEligible c = false)
        ∨ ∃ c ∈ cs, c.slot = k ∧ s.stillEligible c = true
          ∧ (cs.foldl (stateStep s) t).slot k = { s.slot k with state := if 0 < c.g then .charging else .waiting } from
    this s (.inl rfl)
  induction cs with
  | nil => intro t _; left; simp
  | cons c cs ih =>
    intro t ht
    rw [List.foldl_cons]
    by_cases he : s.stillEligible c = true
    · by_cases hk : c.slot = k
      · subst hk
        have h2 : (stateStep s t c).slot c.slot =
            { s.slot c.slot with state := if 0 < c.g then .charging else .waiting } := by
          rw [stateStep, if_pos he, slot_modSlot_same]
          rcases ht with ht | ⟨st, ht⟩ <;> rw [ht]
        rcases ih _ (.inr ⟨_, h2⟩) with ⟨h3, _⟩ | ⟨d, hd, h5, h6, h7⟩
        · exact .inr ⟨c, List.mem_cons_self, rfl, he, h3.trans h2⟩
        · exact .inr ⟨d, List.mem_cons_of_mem _ hd, h5, h6, h7⟩
      · have h2 : (stateStep s t c).slot k = t.slot k := by
          rw [stateStep, if_pos he]
          exact slot_modSlot_ne _ _ (fun e => hk e.symm)
        rcases ih _ (by rw [h2]; exact ht) with ⟨h3, h4⟩ | ⟨d, hd, h5, h6, h7⟩
        · refine .inl ⟨h3.trans h2, fun d hd hdk => ?_⟩
          rcases List.mem_cons.mp hd with rfl | hd
          · exact absurd hdk hk
          · exact h4 d hd hdk
        · exact .inr ⟨d, List.mem_cons_of_mem _ hd, h5, h6, h7⟩
    · have h2 : stateStep s t c = t := by rw [stateStep, if_neg he]
      rw [h2]
      rcases ih t ht with ⟨h3, h4⟩ | ⟨d, hd, h5, h6, h7⟩
      · refine .inl ⟨h3, fun d hd hdk => ?_⟩
        rcases List.mem_cons.mp hd with rfl | hd
        · simpa using he
        · exact h4 d hd hdk
      · exact .inr ⟨d, List.mem_cons_of_mem _ hd, h5, h6, h7⟩

theorem writeSessionStates_bays (cs : List Claim) (s : State) : (writeSessionStates cs s).bays = s.bays :=
  writeSessionStates_keeps (·.bays) (fun _ _ _ => rfl) cs s

theorem writeSessionStates_hp (cs : List Claim) (s : State) : (writeSessionStates cs s).hp = s.hp :=
  writeSessionStates_keeps (·.hp) (fun _ _ _ => rfl) cs s

theorem writeSessionStates_al (cs : List Claim) (s : State) : (writeSessionStates cs s).al = s.al :=
  writeSessionStates_keeps (·.al) (fun _ _ _ => rfl) cs s

theorem writeSessionStates_cs (cs : List Claim) (s : State) : (writeSessionStates cs s).cs = s.cs :=
  writeSessionStates_keeps (·.cs) (fun _ _ _ => rfl) cs s

/-- The writing of the grants changes nothing on which a claim's eligibility rests. -/
theorem stillEligible_writeAllGrants (cs : List Claim) (s : State) (c : Claim) :
    (writeAllGrants cs s).stillEligible c = s.stillEligible c := by
  have hb : ((writeAllGrants cs s).bay c.bay).session = (s.bay c.bay).session
      ∧ ((writeAllGrants cs s).bay c.bay).stopFlag = (s.bay c.bay).stopFlag := by
    rw [writeAllGrants_bay]
    unfold grantedBay
    split
    · split <;> exact ⟨rfl, rfl⟩
    · exact ⟨rfl, rfl⟩
  have hf := (writeAllGrants_edits cs s).untouched.flc
  simp only [State.stillEligible, hb.1, hb.2, State.slot, writeAllGrants_st, State.bayOnline, State.bayDevice, State.device, hf]

@[simp] theorem writeResults_bays (n c s) : (writeResults n c s).bays = s.bays := by
  unfold writeResults; dsimp only [writeLimits]
@[simp] theorem writeResults_st (n c s) : (writeResults n c s).st = s.st := by
  unfold writeResults; dsimp only [writeLimits]
@[simp] theorem writeResults_hp (n c s) : (writeResults n c s).hp = s.hp := by
  unfold writeResults; dsimp only [writeLimits]
@[simp] theorem writeResults_cs (n c s) : (writeResults n c s).cs = s.cs := by
  unfold writeResults; dsimp only [writeLimits]
@[simp] theorem writeResults_sc (n c s) : (writeResults n c s).sc = s.sc := by
  unfold writeResults; dsimp only [writeLimits]
@[simp] theorem writeResults_flc (n c s) : (writeResults n c s).flc = s.flc := by
  unfold writeResults; dsimp only [writeLimits]
@[simp] theorem writeResults_tc (n c s) : (writeResults n c s).tc = s.tc := by
  unfold writeResults; dsimp only [writeLimits]
@[simp] theorem writeResults_runTimer (n c s) : (writeResults n c s).runTimer = s.runTimer := by
  unfold writeResults; dsimp only [writeLimits]
@[simp] theorem writeResults_queue (n c s) : (writeResults n c s).al.queue = s.al.queue := by
  unfold writeResults; dsimp only [writeLimits]
@[simp] theorem writeResults_again (n c s) : (writeResults n c s).al.again = s.al.again := by
  unfold writeResults; dsimp only [writeLimits]
@[simp] theorem writeResults_share (n c s) : (writeResults n c s).al.share =
    sharesOf c.canopy c.discharge c.charge s.grantSum (nextPassNumber s.al.share.passNumber) := by
  unfold writeResults; dsimp only [writeLimits]
@[simp] theorem writeResults_setpoint (n c s) : (writeResults n c s).al.battery.setpoint =
    s.passSetpoint c.discharge c.charge := by
  unfold writeResults; dsimp only [writeLimits]

/-- The shares of canopy and battery leave a share of the grid (R87). -/
theorem shares_le (a d g : Nat) : min a g * 1000 / g + min d (g - min a g) * 1000 / g ≤ 1000 := by
  have h1 : min a g ≤ g := Nat.min_le_right _ _
  have h2 : min d (g - min a g) ≤ g - min a g := Nat.min_le_right _ _
  generalize min a g = x at h1 h2 ⊢
  generalize min d (g - x) = y at h2 ⊢
  refine (Nat.div_add_div_le_add_div).trans ?_
  refine Nat.div_le_of_le_mul ?_
  have : x + y ≤ g := by omega
  calc x * 1000 + y * 1000 = (x + y) * 1000 := by ring
    _ ≤ g * 1000 := Nat.mul_le_mul_right _ this

/-! ## The fields of a computed pass -/

theorem compute_load (n : Snapshot) : n.compute.load = n.load := by unfold Snapshot.compute; rfl
theorem compute_canopy (n : Snapshot) : n.compute.canopy = n.canopy := by unfold Snapshot.compute; rfl
theorem compute_b0 (n : Snapshot) : n.compute.b0 = n.b0 := by unfold Snapshot.compute; rfl
theorem compute_dm (n : Snapshot) : n.compute.dm = totalDemand n.claims := by unfold Snapshot.compute; rfl
theorem compute_discharge (n : Snapshot) : n.compute.discharge = n.discharge (totalDemand n.claims) := by
  unfold Snapshot.compute; rfl
theorem compute_charge (n : Snapshot) : n.compute.charge = n.charge (totalDemand n.claims) := by
  unfold Snapshot.compute; rfl
theorem compute_budget (n : Snapshot) : n.compute.budget = n.budget n.compute.discharge n.compute.charge := by
  rw [compute_discharge, compute_charge]; unfold Snapshot.compute; rfl
theorem compute_claims (n : Snapshot) : n.compute.claims = n.holdBack n.compute.budget (n.share n.compute.budget) := by
  rw [compute_budget, compute_discharge, compute_charge]; simp only [Snapshot.compute]

end Sys2Proof.Machine
end

