-- ==== Sys2Proof/Laws/PerInstr.lean ====
section
/-! SUPPORT. The statement family RequestForm, one lemma for each row: the request kind of a request row is a row number of
Table 10-2, its frame is the frame of that kind and its payload, and a well-formed row's payload length fits a header. -/

namespace Sys2Proof.Laws.RequestForm

/-- A row that is taken from a request frame has a kind of Table 10-2 and that frame (R169, R179). -/
def Statement (i : Instr) : Prop :=
  ∀ kp, i.requestKind = some kp →
    1 ≤ kp.1 ∧ kp.1 ≤ 30 ∧ i.requestFrame = some (frameOf kp.1 kp.2) ∧ (i.wellFormed = true → kp.2.length < 65536)

/-- A row that no request frame carries. -/
theorem of_none {i : Instr} (h : i.requestKind = none) : Statement i := fun kp hk => by simp [h] at hk

/-- A row that a request frame carries. -/
theorem of_kind {i : Instr} {n : Nat} {p : List Byte} (h : i.requestKind = some (n, p)) (low : 1 ≤ n) (high : n ≤ 30)
    (fits : i.wellFormed = true → p.length < 65536) : Statement i := fun kp hk => by
  obtain rfl : (n, p) = kp := by simpa [h] using hk
  exact ⟨low, high, by simp [Instr.requestFrame, h], fits⟩

theorem length_of_fits {p : List Byte} (h : payloadFits p = true) : p.length < 65536 := by simpa [payloadFits] using h

theorem length_of_bayRemoval {p : List Byte} (h : isBayRemoval p = true) : p.length < 65536 := by
  simp [isBayRemoval] at h; omega

theorem length_of_sourceRemoval {p : List Byte} (h : isSourceRemoval p = true) : p.length < 65536 := by
  simp [isSourceRemoval] at h; omega

theorem length_of_pendingList {p : List Byte} (h : isPendingListQuery p = true) : p.length < 65536 := by
  simp [isPendingListQuery] at h; simp [h]

theorem length_of_resumeAll {p : List Byte} (h : isResumeAll p = true) : p.length < 65536 := by
  simp [isResumeAll] at h; simp [h]

theorem fits_left {a b : Bool} (h : (a && b) = true) : a = true := by simp_all

theorem reset : Statement .reset := of_none rfl

theorem hostWriteTransaction (bytes : List Byte) : Statement (.hostWriteTransaction bytes) := of_none rfl

theorem hostReadTransaction (count : Nat) : Statement (.hostReadTransaction count) := of_none rfl

theorem siteLimits (payload : List Byte) : Statement (.siteLimits payload) :=
  of_kind rfl (by decide) (by decide) fun h => length_of_fits h

theorem fallbackLoad (payload : List Byte) : Statement (.fallbackLoad payload) :=
  of_kind rfl (by decide) (by decide) fun h => length_of_fits h

theorem battery (payload : List Byte) : Statement (.battery payload) :=
  of_kind rfl (by decide) (by decide) fun h => length_of_fits h

theorem layout (payload : List Byte) : Statement (.layout payload) :=
  of_kind rfl (by decide) (by decide) fun h => length_of_fits h

theorem timing (payload : List Byte) : Statement (.timing payload) :=
  of_kind rfl (by decide) (by decide) fun h => length_of_fits h

theorem lines (payload : List Byte) : Statement (.lines payload) :=
  of_kind rfl (by decide) (by decide) fun h => length_of_fits h

theorem declareBay (payload : List Byte) : Statement (.declareBay payload) :=
  of_kind rfl (by decide) (by decide) fun h => length_of_fits (fits_left h)

theorem removeBay (payload : List Byte) : Statement (.removeBay payload) :=
  of_kind rfl (by decide) (by decide) fun h => length_of_bayRemoval h

theorem declareSource (payload : List Byte) : Statement (.declareSource payload) :=
  of_kind rfl (by decide) (by decide) fun h => length_of_fits (fits_left h)

theorem removeSource (payload : List Byte) : Statement (.removeSource payload) :=
  of_kind rfl (by decide) (by decide) fun h => length_of_sourceRemoval h

theorem clock (payload : List Byte) : Statement (.clock payload) :=
  of_kind rfl (by decide) (by decide) fun h => length_of_fits h

theorem tariff (payload : List Byte) : Statement (.tariff payload) :=
  of_kind rfl (by decide) (by decide) fun h => length_of_fits h

theorem blockSize (payload : List Byte) : Statement (.blockSize payload) :=
  of_kind rfl (by decide) (by decide) fun h => length_of_fits h

theorem issueCredit (payload : List Byte) : Statement (.issueCredit payload) :=
  of_kind rfl (by decide) (by decide) fun h => length_of_fits h

theorem decline (payload : List Byte) : Statement (.decline payload) :=
  of_kind rfl (by decide) (by decide) fun h => length_of_fits h

theorem voidCredit (payload : List Byte) : Statement (.voidCredit payload) :=
  of_kind rfl (by decide) (by decide) fun h => length_of_fits h

theorem queryCredit (payload : List Byte) : Statement (.queryCredit payload) :=
  of_kind rfl (by decide) (by decide) fun h => length_of_fits (fits_left h)

theorem queryPendingList (payload : List Byte) : Statement (.queryPendingList payload) :=
  of_kind rfl (by decide) (by decide) fun h => length_of_pendingList h

theorem account (payload : List Byte) : Statement (.account payload) :=
  of_kind rfl (by decide) (by decide) fun h => length_of_fits h

theorem readAccount (payload : List Byte) : Statement (.readAccount payload) :=
  of_kind rfl (by decide) (by decide) fun h => length_of_fits h

theorem listSessions (payload : List Byte) : Statement (.listSessions payload) :=
  of_kind rfl (by decide) (by decide) fun h => length_of_fits h

theorem readSession (payload : List Byte) : Statement (.readSession payload) :=
  of_kind rfl (by decide) (by decide) fun h => length_of_fits h

theorem takeReceipt (payload : List Byte) : Statement (.takeReceipt payload) :=
  of_kind rfl (by decide) (by decide) fun h => length_of_fits h

theorem stop (payload : List Byte) : Statement (.stop payload) :=
  of_kind rfl (by decide) (by decide) fun h => length_of_fits h

theorem suspend (payload : List Byte) : Statement (.suspend payload) :=
  of_kind rfl (by decide) (by decide) fun h => length_of_fits h

theorem resume (payload : List Byte) : Statement (.resume payload) :=
  of_kind rfl (by decide) (by decide) fun h => length_of_fits (fits_left h)

theorem resumeAll (payload : List Byte) : Statement (.resumeAll payload) :=
  of_kind rfl (by decide) (by decide) fun h => length_of_resumeAll h

theorem clearSite (payload : List Byte) : Statement (.clearSite payload) :=
  of_kind rfl (by decide) (by decide) fun h => length_of_fits h

theorem readBay (payload : List Byte) : Statement (.readBay payload) :=
  of_kind rfl (by decide) (by decide) fun h => length_of_fits h

theorem clearBayFault (payload : List Byte) : Statement (.clearBayFault payload) :=
  of_kind rfl (by decide) (by decide) fun h => length_of_fits h

theorem readSite (payload : List Byte) : Statement (.readSite payload) :=
  of_kind rfl (by decide) (by decide) fun h => length_of_fits h

theorem readNotices (payload : List Byte) : Statement (.readNotices payload) :=
  of_kind rfl (by decide) (by decide) fun h => length_of_fits h

theorem ackNotice (payload : List Byte) : Statement (.ackNotice payload) :=
  of_kind rfl (by decide) (by decide) fun h => length_of_fits h

theorem noticeMask (payload : List Byte) : Statement (.noticeMask payload) :=
  of_kind rfl (by decide) (by decide) fun h => length_of_fits h

theorem linePinChange (line : Line) (level : Level) : Statement (.linePinChange line level) := of_none rfl

theorem lineQualified (line : Line) : Statement (.lineQualified line) := of_none rfl

theorem bayPoll : Statement .bayPoll := of_none rfl

theorem sourcePoll : Statement .sourcePoll := of_none rfl

theorem bayPollSent : Statement .bayPollSent := of_none rfl

theorem sourcePollSent : Statement .sourcePollSent := of_none rfl

theorem responseTimeout : Statement .responseTimeout := of_none rfl

theorem responseReceived (chars : List RxChar) : Statement (.responseReceived chars) := of_none rfl

theorem passEnd : Statement .passEnd := of_none rfl

theorem refreshTimerExpiry : Statement .refreshTimerExpiry := of_none rfl

theorem authDeadline (slot : SlotId) : Statement (.authDeadline slot) := of_none rfl

theorem endDeadline (slot : SlotId) : Statement (.endDeadline slot) := of_none rfl

theorem ackDeadline (bay : BayId) : Statement (.ackDeadline bay) := of_none rfl

theorem lostDeadline (bay : BayId) : Statement (.lostDeadline bay) := of_none rfl

theorem queryDeadline (bay : BayId) : Statement (.queryDeadline bay) := of_none rfl

theorem dayRollover : Statement .dayRollover := of_none rfl

theorem badRequestFrame (bytes : List Byte) : Statement (.badRequestFrame bytes) := of_none rfl

end Sys2Proof.Laws.RequestForm
end

