-- ==== Sys2Proof/Tests/Slice0.lean ====
section
/-! SUPPORT. Tests: every well-formedness check refuses an ill-formed command; worked examples and tables of the manual; and for
every statement of the certificates a concrete state and operands that meet its hypotheses, clause by clause. -/

namespace Sys2Proof.Tests

open Sys2Proof Sys2Proof.Machine

set_option Elab.async false

/-! ## Well-formedness: one ill-formed command for each check -/

theorem test_empty_write_ill_formed : (Instr.hostWriteTransaction []).wellFormed = false := by decide
theorem test_empty_read_ill_formed : (Instr.hostReadTransaction 0).wellFormed = false := by decide
theorem test_long_payload_ill_formed (p : List Byte) (h : p.length = 65536) : (Instr.siteLimits p).wellFormed = false :=
  decide_eq_false (by omega)
theorem test_declare_of_removal_ill_formed : (Instr.declareBay [3, 3, 0, 0, 16]).wellFormed = false := by decide
theorem test_removal_of_declaration_ill_formed : (Instr.removeBay [3, 2, 0, 0, 16]).wellFormed = false := by decide
theorem test_declare_source_of_removal_ill_formed : (Instr.declareSource [48, 1, 0, 0]).wellFormed = false := by decide
theorem test_remove_source_of_declaration_ill_formed : (Instr.removeSource [48, 0, 0, 0]).wellFormed = false := by decide
theorem test_query_of_pending_list_ill_formed : (Instr.queryCredit [0, 0, 0, 0]).wellFormed = false := by decide
theorem test_pending_list_with_key_ill_formed : (Instr.queryPendingList [0, 0, 0, 1]).wellFormed = false := by decide
theorem test_resume_of_all_ill_formed : (Instr.resume [255]).wellFormed = false := by decide
theorem test_resume_all_of_one_ill_formed : (Instr.resumeAll [5]).wellFormed = false := by decide
theorem test_empty_response_ill_formed : (Instr.responseReceived []).wellFormed = false := by decide
theorem test_good_frame_as_bad_ill_formed : (Instr.badRequestFrame [27, 0, 0]).wellFormed = false := by decide
theorem test_empty_frame_as_bad_ill_formed : (Instr.badRequestFrame []).wellFormed = false := by decide
theorem test_kind_31_is_bad : (Instr.badRequestFrame [31, 0, 0]).wellFormed = true := by decide

/-! ## Frames and codes of the manual -/

/-- R183's own example. -/
theorem test_loop_check : crc [0x31, 0x32, 0x33, 0x34, 0x35, 0x36, 0x37, 0x38, 0x39] = 0x29B1#16 := by decide +kernel

/-- STOP of slot 5: kind 21, length 1 (Tables 10-2, 11-1, 11-8). -/
theorem test_stop_frame : requestOf [21, 0, 1, 5] = .stop [5] := by decide +kernel
theorem test_resume_all_frame : requestOf [23, 0, 1, 255] = .resumeAll [255] := by decide +kernel
theorem test_bay_removal_frame : requestOf [7, 0, 5, 3, 3, 0, 0, 16] = .removeBay [3, 3, 0, 0, 16] := by decide +kernel
theorem test_pending_list_frame : requestOf [15, 0, 4, 0, 0, 0, 0] = .queryPendingList [0, 0, 0, 0] := by decide +kernel
theorem test_short_frame : requestOf [21, 0, 2, 5] = .badRequestFrame [21, 0, 2, 5] := by decide +kernel

/-- Table 4-3, AC grants and currents. -/
theorem test_table_4_3 :
    (BayKind.toWire .ac1 14, BayKind.toWire .ac1 73, BayKind.toWire .ac3 42, BayKind.toWire .ac3 220)
        = (60, 317, 60, 318)
      ∧ (BayKind.toSteps .ac1 60, BayKind.toSteps .ac1 317, BayKind.toSteps .ac3 60, BayKind.toSteps .ac3 318)
        = (14, 73, 42, 220) := by decide +kernel

/-- A 16-bit register that wraps (R141), the bounds of R142 for 73 steps over 5 s and 1500 steps over 1 s, and R157's example. -/
theorem test_meter_wraps : meterDelta 16 4 65530 = 10 := by decide +kernel
theorem test_plausible_bound : plausibleBound 73 5 = 61 ∧ plausibleBound 1500 1 = 92 := by decide +kernel
theorem test_amount_due : (receiptOf 0 { cost := 4216781350 }).amountDue = 422 := by decide +kernel

/-! ## Small states -/

/-- The request frame of a row. -/
def frame (i : Instr) : List Byte := i.requestFrame.getD []

/-- A state in whose port the request of a row is held. -/
def given (i : Instr) (s : State) : State := s.setPort (.processing (frame i))

/-- The two hypotheses of every statement on a request row. -/
abbrev Ready (i : Instr) (s : State) : Prop := PassSampled s ∧ Holds i (frame i) s

theorem sampled {s : State} (h : s.al.passState = .idle) : PassSampled s := fun hr => absurd (h.symm.trans hr) (by decide)

theorem ready {i : Instr} {s : State} (h : s.al.passState = .idle) (hi : requestOf (frame i) = i) : Ready i (given i s) :=
  ⟨sampled h, rfl, hi⟩

/-- Reset with the gate OPEN. -/
def site : State := { State.reset with sc := { limitsMark := true, layoutMark := true, gate := .opened, layoutMode := 1 } }

/-- A declared DC bay 3 that is ONLINE. -/
def withBay (y : Bay) : State :=
  (site.setBay 3 { y with declared := true, kind := .dc, maxSteps := 400, minSteps := 50, meterWidth := 20 }).setDevice 3
    { declared := true, kind := .dc, declaredMax := 500, link := .online }

/-- The same with a session in slot 2. -/
def withSession (x : Slot) : State :=
  (withBay { state := .occupied, session := some 2, plug := true }).setSlot 2 { x with bay := 3 }

/-- The same at an instant of the run timer. -/
def at_ (now : Nat) (s : State) : State := { s with runTimer := now }

/-- A HELD credit of a key with energy left. -/
def heldCredit (key remaining : Nat) : Credit := ⟨key, .held, 700, remaining, false, 9, 1, some 2, false, false⟩

/-! ## Worked cases of the manual -/

/-- A session that waits or charges at a bay, with the grant that its bay holds and acknowledges. -/
def joins (k : SlotId) (b : BayId) (kind : BayKind) (most demand grant : Nat) (cls : SessionClass) (s : State) : State :=
  let s := (s.setBay b {
      declared := true, kind := kind, maxSteps := most, minSteps := kind.minSteps, feeder := feederOf s.sc.layoutMode b
      state := .occupied, plug := true, session := some k, grantSet := grant, grantAck := grant }).setSlot k {
    state := .waiting, bay := b, cls := cls, arrival := k.val, runPermit := true, demand := demand
    accountIndex := if cls = .firm then some 0 else none }
  let s := s.setDevice (Role.bay b).entry { declared := true, kind := kind.device, declaredMax := most, link := .online }
  { s with al.queue := s.al.queue ++ [⟨k, cls, k.val, demand⟩] }

/-- A site with the sources of a worked case, all ONLINE: inverter ratings and powers, the load, and the battery. -/
def market (mode load : Nat) (limits : Vector Nat 4) (inverters : Vector Inverter 6) (used : Nat) (exportCap : Nat)
    (battery : SiteConfig → SiteConfig) (soe : Nat) : State :=
  let s : State := { site with
    sc := battery { site.sc with layoutMode := mode, importCap := 2000, margin := 50, exportCap := exportCap, feederLimits := limits }
    al := { inverters := inverters, storeLoad := load, permit := true, battery := { soe := soe } } }
  let on := fun (e : Entry) (kind : DeviceKind) (s : State) => s.setDevice e { declared := true, kind := kind, link := .online }
  on 54 .battery (on 55 .meter ((indices used).foldl (fun s k => on ⟨48 + k.val % 6, by omega⟩ .canopy s) s))

/-- The site of the five sessions (section 4.11), at a store load and with the grants of the five bays. -/
def fiveSessions (load g1 g2 g3 g4 g5 : Nat) : State :=
  let s := market 3 load #v[1000, 300, 300, 300] (Vector.ofFn fun k => if k.val < 2 then ⟨200, 150, 0, false⟩ else {}) 2 500
    (fun sc => { sc with eCap := 80000, eFloor := 20000, pDis := 200, pCh := 300 }) 40000
  let s := s.setAccount 0 { enabled := true, cls := .firm, firmSteps := 110, token := 9, maxHolders := 1 }
  s |> joins 0 14 .ac3 220 220 g1 .firm |> joins 1 3 .dc 1500 800 g2 .rapid |> joins 2 15 .ac1 73 73 g3 .ordinary
    |> joins 3 16 .ac3 220 220 g4 .ordinary |> joins 4 30 .ac1 73 40 g5 .ordinary

/-- The bright noon (section 4.12). -/
def brightNoon : State :=
  market 1 600 #v[1000, 0, 0, 0] #v[⟨600, 560, 0, false⟩, ⟨600, 560, 0, false⟩, ⟨400, 380, 0, false⟩, {}, {}, {}] 3 100
    (fun sc => { sc with eCap := 80000, eFloor := 20000, pDis := 200, pCh := 300 }) 40000
    |> joins 0 5 .ac3 220 220 220 .ordinary |> joins 1 6 .ac3 220 220 220 .ordinary

/-- The state after a command. -/
def after (i : Instr) (s : State) : State :=
  match exec i s with
  | .next t => t
  | _ => s

/-- A pass that runs on the records of a state, ended. -/
def passed (s : State) : State :=
  after .passEnd { s with al := { s.al with passState := .running, snapshot := some s.takeSnapshot } }

def grants (s : State) : List Nat := [14, 3, 15, 16, 30].map fun b : BayId => (s.bay b).grantSet

/-- Section 4.11: Tables 4-7 to 4-9, the shares, the limits and the setpoint. -/
theorem test_five_sessions :
    let s := passed (fiveSessions 1400 0 0 0 0 0)
    grants s = [110, 710, 73, 117, 40] ∧ s.al.lastPass.b0 = 850 ∧ s.al.lastPass.dm = 1243 ∧ s.al.lastPass.budget = 1050
      ∧ s.al.share = ⟨285, 190, 525, 1⟩ ∧ s.al.lastPass.netImport = 1950 ∧ (s.inverter 0).limit = 200
      ∧ s.al.battery.setpoint = 200 ∧ (s.slot 3).state = .charging ∧ s.al.lastPass.held = 0 := by decide +kernel

/-- Section 5.8, pass A: the ovens come on. -/
theorem test_ovens_come_on :
    let s := passed (fiveSessions 2000 110 710 73 117 40)
    grants s = [110, 118, 73, 109, 40] ∧ s.al.share = ⟨666, 333, 1, 1⟩ ∧ s.al.lastPass.netImport = 1950
      ∧ s.al.lastPass.trimmed = 0 := by decide +kernel

/-- Section 4.12: the canopy is curtailed. -/
theorem test_bright_noon :
    let s := passed brightNoon
    (s.bay 5).grantSet = 220 ∧ s.al.share = ⟨1000, 0, 0, 1⟩ ∧ s.al.lastPass.netImport = -160
      ∧ s.al.lastPass.curtailed = some 1440 ∧ (s.inverter 0).limit = 540 ∧ (s.inverter 2).limit = 360
      ∧ s.al.battery.setpoint = -300 := by decide +kernel

/-- A session in slot 2 at an AC bay 3 with a meter of 16 bits, shares, prices and an instant. -/
def metered (kind : BayKind) (most : Nat) (share : ShareRecord) (price last now : Nat) (x : Slot) : State :=
  { (withSession x).modBay 3 fun y => { y with kind := kind, maxSteps := most, meterWidth := 16, lastRegister := last } with
    al := { share := share }, runTimer := now
    tc := { bands := #v[⟨some 0, price⟩, {}, {}, {}], canopyPrice := 120 } }

/-- Section 8.6: one report's energy split, covered by a solar-only credit, and priced (Tables 8-5, 8-6). -/
theorem test_worked_accrual :
    let x : Slot := {
      state := .charging, baselineSet := true, source := some (.credit 7), blockLeft := 2000, energyWh := 1204
      solar := 343140, battery := 228760, grid := 632100, covered := 343140, cost := 333046000 }
    let s := absorb 3 2 4 ((metered .ac1 73 ⟨285, 190, 525, 1⟩ 389 65530 5300 x).setCredits
      [{ heldCredit 7 2400 with solarOnly := true }])
    let y := s.slot 2
    (y.energyWh, y.solar, y.battery, y.grid, y.covered, y.cost) = (1214, 345990, 230660, 637350, 345990, 335827350)
      ∧ y.blockLeft = 999150 ∧ y.finalBlock = false ∧ (s.bay 3).lastRegister = 4
      ∧ (lookupCredit 7 s).map (·.remainingWh) = some 1400 := by decide +kernel

/-- Section 8.7: report 1 reaches the cap, and report 3 is a discontinuity (Table 8-7). -/
theorem test_card_cap_reached :
    let x : Slot := { state := .charging, baselineSet := true, payment := .card, spendCap := some 1500, cost := 14990000000 }
    let s := absorb 3 2 125 (metered .ac3 220 ⟨0, 0, 1000, 1⟩ 452 100 2000 x)
    let t := absorb 3 2 120 (at_ 4000 s)
    (s.slot 2).cost = 15001300000 ∧ (s.slot 2).state = .ending ∧ (s.slot 2).endCause = some .capReached
      ∧ (s.bay 3).stopFlag = true ∧ (s.bay 3).grantSet = 0
      ∧ (t.slot 2).cost = 15001300000 ∧ (t.slot 2).flags.meterDiscontinuity = true ∧ (t.notice .meterJump).count = 1 := by
  decide +kernel

/-! ## Witnesses of the statements, clause by clause -/

theorem witness_StepRunsFrontCommand : ({ site with pending := [.passEnd, .reset] } : State).pending = .passEnd :: [.reset] := rfl

theorem witness_IdleStepIsOneMillisecond :
    State.reset.pending = []
      ∧ (∃ s : State, s.pending = [] ∧ s.tc.millis = 998)
      ∧ (∃ s : State, s.pending = [] ∧ s.tc.millis = 999 ∧ s.tc.second = 86399)
      ∧ (∃ s : State, s.pending = [] ∧ s.tc.millis = 999 ∧ s.tc.second = 86398)
      ∧ ∃ s : State, s.pending = [] ∧ s.sc.rsvReqPin.level ≠ s.sc.rsvReqPin.taken
        ∧ s.sc.rsvReqPin.since + 20 = s.runTimer + 1 :=
  ⟨rfl, ⟨{ site with tc := { millis := 998 } }, rfl, rfl⟩, ⟨{ site with tc := { millis := 999, second := 86399 } }, rfl, rfl,
    rfl⟩,
    ⟨{ site with tc := { millis := 999, second := 86398 } }, rfl, rfl, rfl⟩,
    ⟨{ site with sc := { rsvReqPin := ⟨.high, 0, .low⟩ }, runTimer := 19 }, rfl, by decide, rfl⟩⟩

theorem witness_EveryCommandAnswersNextState :
    (Instr.stop [5]).requestKind = some (21, [5]) ∧ ∀ f, site.hp.port = .processing f → requestOf f ≠ .stop [5] :=
  ⟨rfl, fun _ h => nomatch (show Port.idle = .processing _ from h)⟩

theorem witness_WriteTransactionByPortState :
    (PassSampled site ∧ site.hp.port = .idle)
      ∧ (∃ s : State, PassSampled s ∧ s.hp.port = .processing [1] ∧ s.hp.dropped = 255)
      ∧ ∃ (s : State) (r : Response), PassSampled s ∧ s.hp.port = .responseWaiting r ∧ s.hp.dropped = 254 :=
  ⟨⟨sampled rfl, rfl⟩, ⟨{ site with hp := { port := .processing [1], dropped := 255 } }, sampled rfl, rfl, rfl⟩,
    ⟨{ site with hp := { port := .responseWaiting ⟨.ok, 1, []⟩, dropped := 254 } }, _, sampled rfl, rfl, rfl⟩⟩

theorem witness_ReadTransactionClocksOneFrame :
    (∃ (s : State) (r : Response), PassSampled s ∧ s.hp.port = .responseWaiting r)
      ∧ PassSampled site ∧ ∀ r, site.hp.port ≠ .responseWaiting r :=
  ⟨⟨site.setPort (.responseWaiting ⟨.ok, 1, []⟩), _, sampled rfl, rfl⟩, sampled rfl,
    fun _ h => nomatch (show Port.idle = .responseWaiting _ from h)⟩

theorem witness_BadRequestFrameAnswered :
    ∃ s : State, PassSampled s ∧ Holds (.badRequestFrame [31, 0, 0]) [31, 0, 0] s :=
  ⟨site.setPort (.processing [31, 0, 0]), sampled rfl, rfl, by decide +kernel⟩

theorem witness_RequestRowsRoundTrip :
    (Instr.resume [254]).wellFormed = true ∧ (Instr.resume [254]).requestFrame = some [23, 0, 1, 254] := by decide +kernel

theorem witness_SiteLimitsApplied :
    (∃ s : State, Ready (.siteLimits []) s)
      ∧ (∃ s : State, Ready (.siteLimits [1]) s)
      ∧ (∃ s : State, Ready (.siteLimits [5, 220, 7, 8, 0, 0]) s ∧ s.sc.gate = .closed ∧ s.sc.layoutMark = true)
      ∧ (∃ s : State, Ready (.siteLimits [78, 32, 7, 208, 78, 33]) s ∧ s.sc.gate = .opened
        ∧ arg [78, 32, 7, 208, 78, 33] 0 2 = 20000 ∧ arg [78, 32, 7, 208, 78, 33] 4 2 = 20001) := by
  refine ⟨⟨given _ site, ready rfl (by decide +kernel)⟩,
    ⟨given _ site, ready rfl (by decide +kernel)⟩,
    ⟨given _ ({ State.reset with sc := { layoutMark := true } }), ready rfl (by decide +kernel), by decide +kernel⟩,
    ⟨given _ site, ready rfl (by decide +kernel), by decide +kernel⟩⟩

theorem witness_FallbackLoadAndBatteryApplied :
    (∃ s : State, Ready (.fallbackLoad []) s)
      ∧ (∃ s : State, Ready (.fallbackLoad [1]) s)
      ∧ (∃ s : State, Ready (.fallbackLoad [255, 255]) s)
      ∧ (∃ s : State, Ready (.fallbackLoad [78, 32]) s ∧ arg [78, 32] 0 2 = 20000)
      ∧ (∃ s : State, Ready (.fallbackLoad [78, 33]) s ∧ arg [78, 33] 0 2 = 20001)
      ∧ (∃ s : State, Ready (.battery []) s)
      ∧ (∃ s : State, Ready (.battery [1]) s)
      ∧ (∃ s : State, Ready (.battery (List.replicate 12 9)) s ∧ (List.replicate 12 (9 : Byte)).length = 12) := by
  refine ⟨⟨given _ site, ready rfl (by decide +kernel)⟩,
    ⟨given _ site, ready rfl (by decide +kernel)⟩,
    ⟨given _ site, ready rfl (by decide +kernel)⟩,
    ⟨given _ site, ready rfl (by decide +kernel), by decide +kernel⟩,
    ⟨given _ site, ready rfl (by decide +kernel), by decide +kernel⟩,
    ⟨given _ site, ready rfl (by decide +kernel)⟩,
    ⟨given _ site, ready rfl (by decide +kernel)⟩,
    ⟨given _ site, ready rfl (by decide +kernel), by decide +kernel⟩⟩

/-- A LAYOUT of a mode with limits 900. -/
def layoutOf (mode : Byte) : List Byte := [mode, 3, 132, 3, 132, 3, 132, 3, 132]

theorem witness_LayoutApplied :
    (∃ s : State, Ready (.layout []) s)
      ∧ (∃ s : State, Ready (.layout [1]) s)
      ∧ (∃ s : State, Ready (.layout (layoutOf 0)) s)
      ∧ (∃ s : State, Ready (.layout (layoutOf 5)) s)
      ∧ (∃ s : State, Ready (.layout (layoutOf 1)) s ∧ 0 < (s.bay 3).committed)
      ∧ (∃ s : State, Ready (.layout (layoutOf 4)) s ∧ (s.liveSlot 3).isSome = true)
      ∧ (∃ s : State, Ready (.layout (layoutOf 4)) s ∧ (∀ b, s.liveSlot b = none ∧ (s.bay b).committed = 0)
        ∧ s.sc.gate = .opened)
      ∧ (∃ s : State, Ready (.layout (layoutOf 1)) s ∧ (∀ b, s.liveSlot b = none ∧ (s.bay b).committed = 0)
        ∧ s.sc.gate = .closed ∧ s.sc.limitsMark = false)
      ∧ (∃ s : State, Ready (.layout (layoutOf 1)) s ∧ (∀ b, s.liveSlot b = none ∧ (s.bay b).committed = 0)
        ∧ s.sc.gate = .closed ∧ s.sc.limitsMark = true) := by
  refine ⟨⟨given _ site, ready rfl (by decide +kernel)⟩,
    ⟨given _ site, ready rfl (by decide +kernel)⟩,
    ⟨given _ site, ready rfl (by decide +kernel)⟩,
    ⟨given _ site, ready rfl (by decide +kernel)⟩,
    ⟨given _ (withBay { grantAck := 1 }), ready rfl (by decide +kernel), by decide +kernel⟩,
    ⟨given _ (withSession { state := .ending }), ready rfl (by decide +kernel), by decide +kernel⟩,
    ⟨given _ site, ready rfl (by decide +kernel), by decide +kernel⟩,
    ⟨given _ State.reset, ready rfl (by decide +kernel), by decide +kernel⟩,
    ⟨given _ ({ State.reset with sc := { limitsMark := true } }), ready rfl (by decide +kernel), by decide +kernel⟩⟩

/-- A TIMING of a loop rate. -/
def timingOf (rate : Byte) : List Byte := [0, 5, 0, 60, 0, 180, 0, 30, 0, 20, rate, 0, 20, 10, 20, 20, 3]

theorem witness_TimingApplied :
    (∃ s : State, Ready (.timing []) s)
      ∧ (∃ s : State, Ready (.timing [1]) s)
      ∧ (∃ s : State, Ready (.timing (timingOf 3)) s ∧ 2 < arg (timingOf 3) 10 1)
      ∧ (∃ s : State, Ready (.timing (timingOf 2)) s ∧ arg (timingOf 2) 10 1 = LoopRate.code .b115200) := by
  refine ⟨⟨given _ site, ready rfl (by decide +kernel)⟩,
    ⟨given _ site, ready rfl (by decide +kernel)⟩,
    ⟨given _ site, ready rfl (by decide +kernel), by decide +kernel⟩,
    ⟨given _ site, ready rfl (by decide +kernel), by decide +kernel⟩⟩

/-- A pin that has stood HIGH for 20 ms with LOW taken, or the other way about. -/
def moved (level taken : Level) : Pin := ⟨level, 0, taken⟩

/-- In the rows of one change the pin levels taken are HIGH or LOW and the new active level makes a line ACTIVE or INACTIVE. -/
theorem witness_LinesApplied :
    (∃ s : State, Ready (.lines []) s)
      ∧ (∃ s : State, Ready (.lines [1]) s)
      ∧ (∃ s : State, Ready (.lines [2, 0, 0, 6, 0]) s)
      ∧ (∃ s : State, Ready (.lines [0, 0, 0, 8, 0]) s)
      ∧ (∃ s : State, Ready (.lines [0, 0, 0, 7, 2]) s)
      ∧ (∃ s : State, Ready (.lines [0, 0, 0, 7, 1]) s ∧ s.shedActive = false ∧ s.rsvReqActive = false)
      ∧ (∃ s : State, Ready (.lines [1, 0, 0, 7, 0]) s ∧ s.shedActive = false ∧ (s.slot 2).state = .charging
        ∧ (s.slot 2).runPermit = true)
      ∧ (∃ s : State, Ready (.lines [1, 0, 0, 7, 0]) s ∧ s.shedActive = true ∧ s.sc.shedPin.taken ≠ .low
        ∧ (s.slot 2).suspendCause = some .shed ∧ s.sc.lines.scope.has (s.slot 2).cls = true)
      ∧ (∃ s : State, Ready (.lines [0, 0, 0, 1, 0]) s ∧ s.shedActive = true ∧ s.sc.lines.scope.has (s.slot 2).cls = true
        ∧ ShedScope.has ⟨true, false, false⟩ (s.slot 2).cls = false)
      ∧ (∃ s : State, Ready (.lines [0, 0, 0, 7, 0]) s ∧ s.shedActive = true ∧ (s.slot 2).state = .waiting
        ∧ s.sc.lines.scope.has (s.slot 2).cls = false)
      ∧ (∃ s : State, Ready (.lines [0, 1, 0, 7, 0]) s ∧ ReserveInv s ∧ s.rsvReqActive = false ∧ s.sc.rsvReqPin.taken = .low)
      ∧ (∃ s : State, Ready (.lines [0, 1, 0, 7, 0]) s ∧ s.rsvReqActive = true ∧ s.sc.rsvReqPin.taken ≠ .low)
      ∧ (∃ s : State, Ready (.lines [1, 1, 0, 7, 0]) s ∧ s.shedActive = false ∧ s.rsvReqActive = false
        ∧ s.sc.shedPin.taken = .low ∧ s.sc.rsvReqPin.taken = .low) := by
  refine ⟨⟨given _ site, ready rfl (by decide +kernel)⟩,
    ⟨given _ site, ready rfl (by decide +kernel)⟩,
    ⟨given _ site, ready rfl (by decide +kernel)⟩,
    ⟨given _ site, ready rfl (by decide +kernel)⟩,
    ⟨given _ site, ready rfl (by decide +kernel)⟩,
    ⟨given _ site, ready rfl (by decide +kernel), by decide +kernel⟩,
    ⟨given _ (withSession { state := .charging, runPermit := true }), ready rfl (by decide +kernel), by decide +kernel⟩,
    ⟨given _ ({ withSession { state := .suspended, suspendCause := some .shed }
      with sc := { gate := .opened, shedPin := moved .high .high } }), ready rfl (by decide +kernel), by decide +kernel⟩,
    ⟨given _ ({ withSession { state := .suspended, suspendCause := some .shed }
      with sc := { gate := .opened, shedPin := moved .high .high } }), ready rfl (by decide +kernel), by decide +kernel⟩,
    ⟨given _ ({ withSession { state := .waiting, cls := .firm }
      with sc := { gate := .opened, shedPin := moved .high .high } }), ready rfl (by decide +kernel), by decide +kernel⟩,
    ⟨given _ site, ready rfl (by decide +kernel), ⟨by decide, by decide⟩, by decide⟩,
    ⟨given _ ({ site with sc := { rsvReqPin := moved .high .high, reserve := .granted } }),
      ready rfl (by decide +kernel), by decide +kernel⟩,
    ⟨given _ site, ready rfl (by decide +kernel), by decide +kernel⟩⟩

theorem witness_ShedLineTaken :
    (∃ s : State, PassSampled s ∧ s.sc.shedPin.level ≠ .high ∧ s.sc.rsvReqPin.level = .low)
      ∧ (∃ s : State, PassSampled s ∧ s.sc.shedPin.level ≠ s.sc.shedPin.taken ∧ s.sc.shedPin.since + 20 = s.runTimer
        ∧ s.shedActive = false ∧ (s.slot 2).state = .charging ∧ s.sc.lines.scope.has (s.slot 2).cls = true)
      ∧ (∃ s : State, PassSampled s ∧ s.sc.shedPin.level ≠ s.sc.shedPin.taken ∧ s.sc.shedPin.since + 20 = s.runTimer
        ∧ s.shedActive = true ∧ (s.slot 2).state = .suspended ∧ (s.slot 2).suspendCause = some .shed) := by
  refine ⟨⟨site, sampled rfl, by decide⟩,
    ⟨at_ 20 { withSession { state := .charging }
      with sc := { gate := .opened, shedPin := moved .high .low } }, sampled rfl, by decide +kernel⟩,
    ⟨at_ 20 { withSession { state := .suspended, suspendCause := some .shed } with
        sc := { gate := .opened, shedPin := moved .low .high } }, sampled rfl, by decide +kernel⟩⟩

theorem witness_ReserveLineTaken :
    (∃ s : State, PassSampled s ∧ ReserveInv s ∧ s.sc.rsvReqPin.level ≠ s.sc.rsvReqPin.taken
        ∧ s.sc.rsvReqPin.since + 20 ≤ s.runTimer ∧ s.rsvReqActive = false)
      ∧ ∃ s : State, PassSampled s ∧ ReserveInv s ∧ s.sc.rsvReqPin.level ≠ s.sc.rsvReqPin.taken
        ∧ s.sc.rsvReqPin.since + 20 ≤ s.runTimer ∧ s.rsvReqActive = true :=
  ⟨⟨at_ 20 { site with sc := { rsvReqPin := moved .high .low } }, sampled rfl, ⟨by decide, by decide⟩, by decide⟩,
    ⟨at_ 20 { site with sc := { rsvReqPin := moved .low .high, reserve := .granted } }, sampled rfl,
      ⟨by decide, by decide⟩, by decide⟩⟩

theorem witness_BaysDeclaredAndRemoved :
    (∃ s : State, Ready (.declareBay [47, 2, 1, 144, 32]) s ∧ s.liveSlot 47 = none ∧ (s.bay 47).committed = 0
        ∧ ∀ e, (s.device e).declared = false)
      ∧ (∃ s : State, Ready (.declareBay [3, 0, 0, 0, 16]) s ∧ s.liveSlot 3 = none ∧ (s.bay 3).committed = 0
        ∧ (s.device 3).declared = true)
      ∧ (∃ s : State, Ready (.declareBay [3, 1, 1, 144, 16]) s ∧ 0 < (s.bay 3).committed)
      ∧ (∃ s : State, Ready (.declareBay [3]) s)
      ∧ (∃ s : State, Ready (.declareBay [48, 2, 1, 144, 32]) s)
      ∧ (∃ s : State, Ready (.declareBay [47, 4, 1, 144, 32]) s)
      ∧ (∃ s : State, Ready (.declareBay [47, 2, 1, 144, 17]) s)
      ∧ (∃ s : State, Ready (.removeBay [48, 3, 0, 0, 0]) s)
      ∧ (∃ s : State, Ready (.removeBay [3, 3, 0, 0, 0]) s ∧ (s.liveSlot 3).isSome = true)
      ∧ (∃ s : State, Ready (.removeBay [47, 3, 0, 0, 0]) s ∧ s.liveSlot 47 = none ∧ (s.bay 47).committed = 0
        ∧ (s.device 47).declared = false)
      ∧ (∃ s : State, Ready (.removeBay [3, 3, 0, 0, 0]) s ∧ s.liveSlot 3 = none ∧ (s.bay 3).committed = 0
        ∧ (s.device 3).declared = true) := by
  refine ⟨⟨given _ site, ready rfl (by decide +kernel), by decide +kernel⟩,
    ⟨given _ (withBay {}), ready rfl (by decide +kernel), by decide +kernel⟩,
    ⟨given _ (withBay { grantSet := 1 }), ready rfl (by decide +kernel), by decide +kernel⟩,
    ⟨given _ site, ready rfl (by decide +kernel)⟩,
    ⟨given _ site, ready rfl (by decide +kernel)⟩,
    ⟨given _ site, ready rfl (by decide +kernel)⟩,
    ⟨given _ site, ready rfl (by decide +kernel)⟩,
    ⟨given _ site, ready rfl (by decide +kernel)⟩,
    ⟨given _ (withSession { state := .opening }), ready rfl (by decide +kernel), by decide +kernel⟩,
    ⟨given _ site, ready rfl (by decide +kernel), by decide +kernel⟩,
    ⟨given _ (withBay {}), ready rfl (by decide +kernel), by decide +kernel⟩⟩

theorem witness_SourcesDeclaredAndRemoved :
    (∃ s : State, Ready (.declareSource [48, 0, 0, 0]) s ∧ (s.device 48).declared = false)
      ∧ (∃ s : State, Ready (.declareSource [53, 0, 7, 209]) s ∧ (s.device 53).declared = true ∧ (s.inverter 5).rating ≠ 2000)
      ∧ (∃ s : State, Ready (.declareSource [56, 0, 0, 0]) s)
      ∧ (∃ s : State, Ready (.declareSource [60, 0, 0, 0]) s)
      ∧ (∃ s : State, Ready (.declareSource [53]) s ∧ sourceAt (arg [53] 0 1) = some (.canopy 5))
      ∧ (∃ s : State, Ready (.declareSource []) s)
      ∧ (∃ s : State, Ready (.declareSource [48, 0]) s)
      ∧ (∃ s : State, Ready (.declareSource [54]) s ∧ sourceAt (arg [54] 0 1) = none)
      ∧ (∃ s : State, Ready (.declareSource [47, 0, 0, 0]) s ∧ sourceAt (arg [47, 0, 0, 0] 0 1) = none)
      ∧ (∃ s : State, Ready (.declareSource [48, 2, 0, 0]) s)
      ∧ (∃ s : State, Ready (.removeSource [61, 1, 0, 0]) s ∧ sourceAt (arg [61, 1, 0, 0] 0 1) = none)
      ∧ (∃ s : State, Ready (.removeSource [60, 1, 0, 0]) s ∧ sourceAt (arg [60, 1, 0, 0] 0 1) = some .meter
        ∧ (s.device Role.meter.entry).declared = false)
      ∧ (∃ s : State, Ready (.removeSource [48, 1, 0, 0]) s ∧ sourceAt (arg [48, 1, 0, 0] 0 1) = some (.canopy 0)
        ∧ (s.device (Role.canopy 0).entry).declared = true)
      ∧ (∃ s : State, Ready (.removeSource [56, 1, 0, 0]) s ∧ sourceAt (arg [56, 1, 0, 0] 0 1) = some .battery
        ∧ (s.device Role.battery.entry).declared = true
        ∧ s.sc.reserve = .claimed) := by
  refine ⟨⟨given _ site, ready rfl (by decide +kernel), by decide +kernel⟩,
    ⟨given _ (site.setDevice 53 { declared := true, kind := .canopy }), ready rfl (by decide +kernel), by decide +kernel⟩,
    ⟨given _ site, ready rfl (by decide +kernel)⟩,
    ⟨given _ site, ready rfl (by decide +kernel)⟩,
    ⟨given _ site, ready rfl (by decide +kernel), by decide +kernel⟩,
    ⟨given _ site, ready rfl (by decide +kernel)⟩,
    ⟨given _ site, ready rfl (by decide +kernel)⟩,
    ⟨given _ site, ready rfl (by decide +kernel), by decide +kernel⟩,
    ⟨given _ site, ready rfl (by decide +kernel), by decide +kernel⟩,
    ⟨given _ site, ready rfl (by decide +kernel)⟩,
    ⟨given _ site, ready rfl (by decide +kernel), by decide +kernel⟩,
    ⟨given _ site, ready rfl (by decide +kernel), by decide +kernel⟩,
    ⟨given _ (site.setDevice 48 { declared := true, kind := .canopy }), ready rfl (by decide +kernel), by decide +kernel⟩,
    ⟨given _ (((site.setDevice 54 { declared := true, kind := .battery }).setBay 0 {} |> fun s =>
      { s with sc := { reserve := .claimed } })), ready rfl (by decide +kernel), by decide +kernel⟩⟩

theorem witness_ClockWritten :
    (∃ s : State, Ready (.clock []) s)
      ∧ (∃ s : State, Ready (.clock [1]) s)
      ∧ (∃ s : State, Ready (.clock [0, 1, 0, 1, 81, 128]) s ∧ arg [0, 1, 0, 1, 81, 128] 2 4 = 86400)
      ∧ (∃ s : State, Ready (.clock [0, 1, 0, 1, 81, 127]) s ∧ arg [0, 1, 0, 1, 81, 127] 2 4 = 86399 ∧ s.tc.day < 1)
      ∧ (∃ s : State, PassSampled s ∧ s.tc.second = 86399 ∧ s.tc.millis = 1000) := by
  refine ⟨⟨given _ site, ready rfl (by decide +kernel)⟩,
    ⟨given _ site, ready rfl (by decide +kernel)⟩,
    ⟨given _ site, ready rfl (by decide +kernel), by decide +kernel⟩,
    ⟨given _ site, ready rfl (by decide +kernel), by decide +kernel⟩,
    ⟨{ site with tc := { second := 86399, millis := 1000 } }, sampled rfl, by decide +kernel⟩⟩

/-- A TARIFF whose first band starts at a minute with a price, the others unused. -/
def tariffOf (start price canopy : Nat) : List Byte :=
  be 2 start ++ be 2 price ++ be 4 0xFFFF0000 ++ be 4 0xFFFF0000 ++ be 4 0xFFFFFFFF ++ be 2 canopy

theorem witness_TariffWritten :
    (∃ s, Ready (.tariff []) s) ∧ (∃ s, Ready (.tariff [1]) s)
      ∧ (∃ s, Ready (.tariff (tariffOf 1440 0 0)) s ∧ arg (tariffOf 1440 0 0) 0 2 = 1440)
      ∧ (∃ s, Ready (.tariff (tariffOf 0 10000 0)) s ∧ arg (tariffOf 0 10000 0) 2 2 = 10000)
      ∧ (∃ s, Ready (.tariff (tariffOf 0 0 10000)) s ∧ arg (tariffOf 0 0 10000) 16 2 = 10000)
      ∧ ∃ s, Ready (.tariff (tariffOf 1439 9999 9999)) s ∧ (tariffOf 1439 9999 9999).length = 18
        ∧ (∀ n : BandId, arg (tariffOf 1439 9999 9999) (4 * n.val) 2 = 65535
            ∨ (arg (tariffOf 1439 9999 9999) (4 * n.val) 2 ≤ 1439 ∧ arg (tariffOf 1439 9999 9999) (4 * n.val + 2) 2 ≤ 9999))
        ∧ arg (tariffOf 1439 9999 9999) 16 2 ≤ 9999 :=
  ⟨⟨given _ site, ready rfl (by decide +kernel)⟩, ⟨given _ site, ready rfl (by decide +kernel)⟩,
    ⟨given _ site, ready rfl (by decide +kernel), by decide +kernel⟩,
    ⟨given _ site, ready rfl (by decide +kernel), by decide +kernel⟩,
    ⟨given _ site, ready rfl (by decide +kernel), by decide +kernel⟩,
    ⟨given _ site, ready rfl (by decide +kernel), by decide +kernel⟩⟩

/-- The band in force before the first start of the day is the last band of the day, and of two with one start the lower (R153). -/
theorem witness_BandInForce :
    let t : TariffClock := { bands := #v[⟨some 360, 1⟩, ⟨some 1320, 2⟩, ⟨none, 0⟩, ⟨some 1320, 3⟩] }
    t.bandAt 359 = some 1 ∧ t.bandAt 360 = some 0 ∧ t.bandNow = some 1 ∧ ({} : TariffClock).bandNow = none := by decide +kernel

/-- CreditInv of a state with one credit. -/
theorem creditInv_one (s : State) (c : Credit) (h : c.key ≠ 0) : CreditInv (s.setCredits [c]) :=
  ⟨List.pairwise_singleton _ _, by intro d hd; rw [List.mem_singleton.mp hd]; exact h, by show 1 ≤ 256; decide⟩

theorem witness_BlocksDrawnAndReleased :
    (∃ s : State, Ready (.blockSize []) s)
      ∧ (∃ s : State, Ready (.blockSize [1]) s)
      ∧ (∃ s : State, Ready (.blockSize [0, 99]) s ∧ arg [0, 99] 0 2 = 99)
      ∧ (∃ s : State, Ready (.blockSize [19, 137]) s ∧ arg [19, 137] 0 2 = 5001)
      ∧ (∃ s : State, Ready (.blockSize [0, 100]) s ∧ arg [0, 100] 0 2 = 100)
      ∧ (∃ s : State, Ready (.blockSize [19, 136]) s ∧ arg [19, 136] 0 2 = 5000)
      ∧ (∃ s : State, CreditInv s ∧ heldCredit 7 1000 ∈ s.cs.credits ∧ (s.slot 2).source = some (.credit 7))
      ∧ (∃ s : State, CreditInv s ∧ (s.slot 2).source = some (.account 4) ∧ (s.account 4).enabled = true
        ∧ 0 < (s.account 4).remainingWh)
      ∧ (∃ s : State, CreditInv s ∧ (s.slot 2).source = none)
      ∧ (∃ s : State, CreditInv s ∧ heldCredit 7 0 ∈ s.cs.credits ∧ (s.slot 2).source = some (.credit 7)
        ∧ (s.slot 2).payment = .unpaid
        ∧ (s.slot 2).state.queued = true ∧ s.bayOnline (s.slot 2).bay = true)
      ∧ (∃ s : State, CreditInv s ∧ heldCredit 7 0 ∈ s.cs.credits ∧ (s.slot 2).source = some (.credit 7)
        ∧ (s.slot 2).payment = .unpaid
        ∧ (s.slot 2).state.queued = true ∧ s.bayOnline (s.slot 2).bay = false)
      ∧ (∃ s : State, CreditInv s ∧ heldCredit 7 0 ∈ s.cs.credits ∧ (s.slot 2).source = some (.credit 7)
        ∧ (s.slot 2).payment = .card)
      ∧ (∃ s : State, CreditInv s ∧ (s.slot 2).source = some (.account 4) ∧ (s.account 4).enabled = true
        ∧ (s.account 4).remainingWh = 0)
      ∧ (∃ s : State, CreditInv s ∧ (s.slot 2).source = some (.account 15) ∧ (s.account 15).enabled = false)
      ∧ (∃ s : State, CreditInv s ∧ heldCredit 7 0 ∈ s.cs.credits ∧ (s.slot 2).source = some (.credit 7)
        ∧ (s.slot 2).blockLeft / 1000 = 1)
      ∧ (∃ s : State, CreditInv s ∧ heldCredit 7 0 ∈ s.cs.credits ∧ (s.slot 2).source = some (.credit 7)
        ∧ (s.slot 2).blockLeft / 1000 = 0)
      ∧ (∃ s : State, CreditInv s ∧ { heldCredit 7 1 with voided := true } ∈ s.cs.credits
        ∧ (s.slot 2).source = some (.credit 7))
      ∧ (∃ s : State, CreditInv s ∧ (s.slot 2).source = some (.account 4) ∧ (s.slot 2).accountIndex = some 4
        ∧ (s.slot 2).accountHold = true)
      ∧ (∃ s : State, CreditInv s ∧ (s.slot 2).source = some (.account 4) ∧ (s.slot 2).accountIndex = some 4
        ∧ (s.slot 2).accountHold = false)
      ∧ (∃ s : State, CreditInv s ∧ (s.slot 2).source = none ∧ (s.slot 2).accountHold = false)
      ∧ (∃ s : State, CreditInv s ∧ (s.slot 2).source = none ∧ (s.slot 2).accountHold = true
        ∧ (s.slot 2).accountIndex = some 4) := by
  refine ⟨⟨given _ site, ready rfl (by decide +kernel)⟩,
    ⟨given _ site, ready rfl (by decide +kernel)⟩,
    ⟨given _ site, ready rfl (by decide +kernel), by decide +kernel⟩,
    ⟨given _ site, ready rfl (by decide +kernel), by decide +kernel⟩,
    ⟨given _ site, ready rfl (by decide +kernel), by decide +kernel⟩,
    ⟨given _ site, ready rfl (by decide +kernel), by decide +kernel⟩,
    ⟨(withSession { source := some (.credit 7) }).setCredits [heldCredit 7 1000], creditInv_one _ _ (by decide),
      by decide +kernel⟩,
    ⟨(withSession { source := some (.account 4) }).setAccount 4 { enabled := true, remainingWh := 1, allowanceWh := 1 },
      ⟨List.Pairwise.nil, by decide, by decide⟩, by decide +kernel⟩,
    ⟨withSession {}, ⟨List.Pairwise.nil, by decide, by decide⟩, by decide +kernel⟩,
    ⟨(withSession { state := .charging, source := some (.credit 7) }).setCredits [heldCredit 7 0],
      creditInv_one _ _ (by decide), by decide +kernel⟩,
    ⟨((withSession { state := .waiting, source := some (.credit 7) }).setDevice 3 { declared := true }).setCredits [heldCredit 7 0], creditInv_one _ _ (by decide), by decide +kernel⟩,
    ⟨(withSession { state := .charging, payment := .card, source := some (.credit 7) }).setCredits [heldCredit 7 0],
      creditInv_one _ _ (by decide), by decide +kernel⟩,
    ⟨(withSession { state := .charging, source := some (.account 4) }).setAccount 4 { enabled := true }, ⟨List.Pairwise.nil,
      by decide, by decide⟩, by decide +kernel⟩,
    ⟨withSession { state := .charging, source := some (.account 15) }, ⟨List.Pairwise.nil, by decide, by decide⟩,
      by decide +kernel⟩,
    ⟨(withSession { source := some (.credit 7), blockLeft := 1999 }).setCredits [heldCredit 7 0],
      creditInv_one _ _ (by decide), by decide +kernel⟩,
    ⟨(withSession { source := some (.credit 7), blockLeft := 999 }).setCredits [heldCredit 7 0],
      creditInv_one _ _ (by decide), by decide +kernel⟩,
    ⟨(withSession { source := some (.credit 7) }).setCredits [{ heldCredit 7 1 with voided := true }],
      creditInv_one _ _ (by decide), by decide +kernel⟩,
    ⟨withSession { source := some (.account 4), accountIndex := some 4, accountHold := true }, ⟨List.Pairwise.nil,
      by decide, by decide⟩, by decide +kernel⟩,
    ⟨withSession { source := some (.account 4), accountIndex := some 4 }, ⟨List.Pairwise.nil, by decide, by decide⟩,
      by decide +kernel⟩,
    ⟨withSession {}, ⟨List.Pairwise.nil, by decide, by decide⟩, by decide +kernel⟩,
    ⟨withSession { accountIndex := some 4, accountHold := true }, ⟨List.Pairwise.nil, by decide, by decide⟩, by decide +kernel⟩⟩

/-- An ISSUE CREDIT. -/
def issueOf (key wh validity flags till bay : Nat) : List Byte :=
  be 4 key ++ be 2 wh ++ be 1 validity ++ be 1 flags ++ be 1 till ++ be 1 bay

theorem witness_IssueCreditRefused :
    (∃ s, Ready (.issueCredit []) s) ∧ (∃ s, Ready (.issueCredit (issueOf 0 1 0 0 1 0)) s)
      ∧ (∃ s, Ready (.issueCredit (issueOf 1 60001 0 0 1 0)) s) ∧ (∃ s, Ready (.issueCredit (issueOf 1 1 31 0 1 0)) s)
      ∧ (∃ s, Ready (.issueCredit (issueOf 1 1 0 0 64 0)) s) ∧ (∃ s, Ready (.issueCredit (issueOf 1 1 0 2 1 48)) s)
      ∧ (∃ s, Ready (.issueCredit (issueOf 7 60000 30 2 63 47)) s ∧ ∃ c ∈ s.cs.credits, c.key = 7)
      ∧ ∃ s, Ready (.issueCredit (issueOf 7 60000 30 2 63 47)) s ∧ (∀ c ∈ s.cs.credits, c.key ≠ 7)
        ∧ 256 ≤ s.cs.credits.length := by
  refine ⟨?_, ?_, ?_, ?_, ?_, ?_, ?_, ?_⟩
  iterate 6 exact ⟨given _ site, ready rfl (by decide +kernel)⟩
  · exact ⟨given _ (site.setCredits [heldCredit 7 1]), ready rfl (by decide +kernel), by decide⟩
  · exact ⟨given _ (site.setCredits ((List.range 256).map fun n => heldCredit (n + 8) 1)), ready rfl (by decide +kernel),
      by decide +kernel⟩

/-- A session in slot 2 whose bay waits for the answer to key 7. -/
def asking (x : Slot) : State := (withSession x).modBay 3 fun y => { y with scan := .pending 7 0 900 }

theorem witness_IssueCreditAccepted :
    (∃ s, Ready (.issueCredit (issueOf 7 60000 30 0 63 255)) s ∧ (∀ c ∈ s.cs.credits, c.key ≠ 7)
        ∧ s.cs.credits.length < 256)
      ∧ (∃ s, Ready (.issueCredit (issueOf 7 1 0 2 1 47)) s ∧ s.liveSlot 47 = none)
      ∧ (∃ s, Ready (.issueCredit (issueOf 7 1 0 2 1 3)) s ∧ (s.bay 3).scan = .pending 7 0 900 ∧ s.liveSlot 3 = some 2
        ∧ (s.slot 2).state ≠ .opening)
      ∧ (∃ s, Ready (.issueCredit (issueOf 7 1 0 2 1 3)) s ∧ (s.bay 3).scan = .pending 7 0 900 ∧ s.liveSlot 3 = some 2
        ∧ (s.slot 2).state = .opening ∧ s.shedActive = false)
      ∧ ∃ s, Ready (.issueCredit (issueOf 7 1 0 2 1 3)) s ∧ (s.bay 3).scan = .pending 7 0 900 ∧ s.liveSlot 3 = some 2
        ∧ (s.slot 2).state = .opening ∧ s.shedActive = true ∧ s.sc.lines.scope.has (s.slot 2).cls = true :=
  ⟨⟨given _ site, ready rfl (by decide +kernel), by decide +kernel⟩,
    ⟨given _ site, ready rfl (by decide +kernel), by decide +kernel⟩,
    ⟨given _ (asking { state := .waiting }), ready rfl (by decide +kernel), by decide +kernel⟩,
    ⟨given _ (asking { state := .opening }), ready rfl (by decide +kernel), by decide +kernel⟩,
    ⟨given _ { asking { state := .opening } with sc := { site.sc with shedPin := ⟨.high, 0, .high⟩ } },
      ready rfl (by decide +kernel), by decide +kernel⟩⟩

/-- Table 6-5 at 6.0 s: the answer of the host attaches the credit and authorises the session in OPENING. -/
theorem test_issue_authorises_opening :
    let t := after (.issueCredit (issueOf 7 700 0 2 1 3)) (given (.issueCredit (issueOf 7 700 0 2 1 3)) (asking { state := .opening }))
    (t.slot 2).state = .waiting ∧ (t.slot 2).source = some (.credit 7) ∧ (t.slot 2).blockLeft = 700000
      ∧ (t.bay 3).message = some ⟨.creditOk, 3, false⟩ ∧ t.al.queue.map (·.slot) = [2] ∧ t.al.passState = .running := by
  decide +kernel

theorem witness_QueryDeclined :
    (∃ s, Ready (.decline []) s) ∧ (∃ s, Ready (.decline [48, 0, 0, 0, 7]) s)
      ∧ (∃ s, Ready (.decline [3, 0, 0, 0, 7]) s ∧ ∃ n d, (s.bay 3).scan = .pending (arg [3, 0, 0, 0, 7] 1 4) n d)
      ∧ ∃ s, Ready (.decline [47, 0, 0, 0, 7]) s ∧ (s.bay 47).scan = .empty :=
  ⟨⟨given _ site, ready rfl (by decide +kernel)⟩, ⟨given _ site, ready rfl (by decide +kernel)⟩,
    ⟨given _ ((withSession { state := .waiting }).modBay 3 fun y => { y with scan := .pending 7 0 900 }),
      ready rfl (by decide +kernel), 0, 900, by decide +kernel⟩,
    ⟨given _ site, ready rfl (by decide +kernel), by decide +kernel⟩⟩

theorem witness_CreditVoided :
    (∃ s, Ready (.voidCredit []) s ∧ CreditInv s) ∧ (∃ s, Ready (.voidCredit [0, 0, 0, 0]) s ∧ CreditInv s)
      ∧ (∃ s, Ready (.voidCredit [0, 0, 0, 8]) s ∧ CreditInv s ∧ ∀ c ∈ s.cs.credits, c.key ≠ 8)
      ∧ (∃ s, Ready (.voidCredit [0, 0, 0, 7]) s ∧ CreditInv s ∧ { heldCredit 7 1 with state := .issued } ∈ s.cs.credits)
      ∧ (∃ s, Ready (.voidCredit [0, 0, 0, 7]) s ∧ CreditInv s ∧ heldCredit 7 1 ∈ s.cs.credits)
      ∧ ∃ s, Ready (.voidCredit [0, 0, 0, 7]) s ∧ CreditInv s ∧ { heldCredit 7 0 with voided := true } ∈ s.cs.credits := by
  refine ⟨⟨given _ (site.setCredits [heldCredit 7 1]), ready rfl (by decide +kernel), creditInv_one _ _ (by decide)⟩,
    ⟨given _ (site.setCredits [heldCredit 7 1]), ready rfl (by decide +kernel), creditInv_one _ _ (by decide)⟩,
    ⟨given _ (site.setCredits [heldCredit 7 1]), ready rfl (by decide +kernel), creditInv_one _ _ (by decide), by decide⟩,
    ⟨given _ (site.setCredits [{ heldCredit 7 1 with state := .issued }]), ready rfl (by decide +kernel),
      creditInv_one _ _ (by decide), by decide⟩,
    ⟨given _ (site.setCredits [heldCredit 7 1]), ready rfl (by decide +kernel), creditInv_one _ _ (by decide), by decide⟩,
    ⟨given _ (site.setCredits [{ heldCredit 7 0 with voided := true }]), ready rfl (by decide +kernel),
      creditInv_one _ _ (by decide), by decide⟩⟩

theorem witness_ReadsChangeNothing :
    (∃ s : State, Ready (.readSite []) s)
      ∧ (∃ s : State, Ready (.readNotices []) s)
      ∧ (∃ s : State, Ready (.listSessions []) s)
      ∧ (∃ s : State, Ready (.readSession [63]) s)
      ∧ (∃ s : State, Ready (.readBay [47]) s)
      ∧ (∃ s : State, Ready (.readAccount [15]) s)
      ∧ (∃ s : State, Ready (.queryCredit [0, 0, 0, 8]) s ∧ lookupCredit 8 s = none)
      ∧ (∃ s : State, Ready (.queryPendingList [0, 0, 0, 0]) s)
      ∧ (∃ s : State, Ready (.queryCredit [0, 0, 0, 7]) s ∧ lookupCredit 7 s = some (heldCredit 7 1))
      ∧ (∃ s : State, Ready (.readSite [0]) s)
      ∧ (∃ s : State, Ready (.readNotices [0]) s)
      ∧ (∃ s : State, Ready (.listSessions [0]) s)
      ∧ (∃ s : State, Ready (.readSession []) s)
      ∧ (∃ s : State, Ready (.readSession [64]) s)
      ∧ (∃ s : State, Ready (.readBay []) s)
      ∧ (∃ s : State, Ready (.readBay [48]) s)
      ∧ (∃ s : State, Ready (.readAccount []) s)
      ∧ (∃ s : State, Ready (.readAccount [16]) s)
      ∧ (∃ s : State, Ready (.queryCredit [7]) s)
      ∧ (∃ s : State, (s.slot 2).state = .settled ∧ (s.slot 63).state = .free ∧ (3 : BayId) ∈ s.baysPending 7) := by
  refine ⟨⟨given _ site, ready rfl (by decide +kernel)⟩,
    ⟨given _ site, ready rfl (by decide +kernel)⟩,
    ⟨given _ site, ready rfl (by decide +kernel)⟩,
    ⟨given _ site, ready rfl (by decide +kernel)⟩,
    ⟨given _ site, ready rfl (by decide +kernel)⟩,
    ⟨given _ site, ready rfl (by decide +kernel)⟩,
    ⟨given _ site, ready rfl (by decide +kernel), by decide +kernel⟩,
    ⟨given _ site, ready rfl (by decide +kernel)⟩,
    ⟨given _ (site.setCredits [heldCredit 7 1]), ready rfl (by decide +kernel), by decide +kernel⟩,
    ⟨given _ site, ready rfl (by decide +kernel)⟩,
    ⟨given _ site, ready rfl (by decide +kernel)⟩,
    ⟨given _ site, ready rfl (by decide +kernel)⟩,
    ⟨given _ site, ready rfl (by decide +kernel)⟩,
    ⟨given _ site, ready rfl (by decide +kernel)⟩,
    ⟨given _ site, ready rfl (by decide +kernel)⟩,
    ⟨given _ site, ready rfl (by decide +kernel)⟩,
    ⟨given _ site, ready rfl (by decide +kernel)⟩,
    ⟨given _ site, ready rfl (by decide +kernel)⟩,
    ⟨given _ site, ready rfl (by decide +kernel)⟩,
    ⟨(withSession { state := .settled }).modBay 3 fun y => { y with scan := .pending 7 0 900 }, by decide +kernel⟩⟩

/-- An ACCOUNT, enabled, of class FIRM. -/
def accountOf (index token firm allowance holders : Nat) : List Byte :=
  be 1 index ++ be 4 token ++ be 1 1 ++ be 1 0 ++ be 2 firm ++ be 2 allowance ++ be 1 0 ++ be 1 holders

/-- An enabled account with a token, held twice. -/
def heldAccount : Account := { token := 9, enabled := true, allowanceWh := 10, remainingWh := 10, maxHolders := 8, holders := 2 }

theorem witness_AccountWritten :
    (∃ s, Ready (.account []) s) ∧ (∃ s, Ready (.account (accountOf 16 1 0 0 1)) s)
      ∧ (∃ s, Ready (.account (accountOf 15 0 0 0 1)) s) ∧ (∃ s, Ready (.account (accountOf 15 1 0 65001 1)) s)
      ∧ (∃ s, Ready (.account (accountOf 15 1 0 0 9)) s)
      ∧ (∃ s, Ready (.account (accountOf 15 9 1500 65000 8)) s ∧ (s.account 4).enabled = true ∧ (s.account 4).token = 9)
      ∧ (∃ s, Ready (.account (accountOf 4 9 1500 65000 1)) s ∧ 1 < (s.account 4).holders)
      ∧ ∃ s, Ready (.account (accountOf 4 9 1501 65000 8)) s ∧ (s.account 4).token = 9
        ∧ ∀ j, j ≠ 4 → (s.account j).enabled = false := by
  refine ⟨?_, ?_, ?_, ?_, ?_, ?_, ?_, ?_⟩
  iterate 5 exact ⟨given _ site, ready rfl (by decide +kernel)⟩
  iterate 3 exact ⟨given _ (site.setAccount 4 heldAccount), ready rfl (by decide +kernel), by decide +kernel⟩

theorem witness_ReceiptTaken :
    (∃ s, Ready (.takeReceipt []) s) ∧ (∃ s, Ready (.takeReceipt [64]) s)
      ∧ (∃ s, Ready (.takeReceipt [63]) s ∧ (s.slot 63).state ≠ .settled)
      ∧ ∃ s, Ready (.takeReceipt [2]) s ∧ (s.slot 2).state = .settled ∧ (s.slot 2).receipt = some (receiptOf 2 { bay := 3 })
        ∧ (s.bay 3).state = .stopped ∧ (s.bay 3).session = some 2 :=
  ⟨⟨given _ site, ready rfl (by decide +kernel)⟩, ⟨given _ site, ready rfl (by decide +kernel)⟩,
    ⟨given _ site, ready rfl (by decide +kernel), by decide +kernel⟩,
    ⟨given _ ((withSession { state := .settled, receipt := some (receiptOf 2 { bay := 3 }) }).modBay 3 fun y =>
      { y with state := .stopped }), ready rfl (by decide +kernel), by decide +kernel⟩⟩

theorem witness_SessionStopped :
    (∃ s : State, Ready (.stop [2]) s ∧ s.sc.gate = .closed)
      ∧ (∃ s : State, Ready (.stop []) s ∧ s.sc.gate = .opened)
      ∧ (∃ s : State, Ready (.stop [64]) s ∧ s.sc.gate = .opened)
      ∧ (∃ s : State, Ready (.stop [63]) s ∧ s.sc.gate = .opened ∧ (s.slot 63).state = .free)
      ∧ (∃ s : State, Ready (.stop [2]) s ∧ s.sc.gate = .opened ∧ (s.slot 2).state = .settled)
      ∧ (∃ s : State, Ready (.stop [2]) s ∧ s.sc.gate = .opened ∧ (s.slot 2).state = .ending)
      ∧ (∃ s : State, Ready (.stop [2]) s ∧ s.sc.gate = .opened ∧ (s.slot 2).state = .opening ∧ (s.slot 2).energyWh = 0)
      ∧ (∃ s : State, Ready (.stop [2]) s ∧ s.sc.gate = .opened ∧ (s.slot 2).state = .opening ∧ 0 < (s.slot 2).energyWh)
      ∧ (∃ s : State, Ready (.stop [2]) s ∧ s.sc.gate = .opened ∧ (s.slot 2).state.queued = true ∧ s.bayOnline 3 = true)
      ∧ (∃ s : State, Ready (.stop [2]) s ∧ s.sc.gate = .opened ∧ (s.slot 2).state.queued = true
        ∧ s.bayOnline (s.slot 2).bay = false) := by
  refine ⟨⟨given _ State.reset, ready rfl (by decide +kernel), by decide +kernel⟩,
    ⟨given _ site, ready rfl (by decide +kernel), by decide +kernel⟩,
    ⟨given _ site, ready rfl (by decide +kernel), by decide +kernel⟩,
    ⟨given _ site, ready rfl (by decide +kernel), by decide +kernel⟩,
    ⟨given _ (withSession { state := .settled }), ready rfl (by decide +kernel), by decide +kernel⟩,
    ⟨given _ (withSession { state := .ending }), ready rfl (by decide +kernel), by decide +kernel⟩,
    ⟨given _ (withSession { state := .opening }), ready rfl (by decide +kernel), by decide +kernel⟩,
    ⟨given _ (withSession { state := .opening, energyWh := 1 }), ready rfl (by decide +kernel), by decide +kernel⟩,
    ⟨given _ (withSession { state := .charging }), ready rfl (by decide +kernel), by decide +kernel⟩,
    ⟨given _ ((withSession { state := .waiting }).setDevice 3 { declared := true }), ready rfl (by decide +kernel),
      by decide +kernel⟩⟩

theorem witness_SessionSuspended :
    (∃ s, Ready (.suspend [2]) s ∧ s.sc.gate = .closed) ∧ (∃ s, Ready (.suspend []) s ∧ s.sc.gate = .opened)
      ∧ (∃ s, Ready (.suspend [64]) s ∧ s.sc.gate = .opened)
      ∧ (∃ s, Ready (.suspend [63]) s ∧ s.sc.gate = .opened ∧ (s.slot 63).state.queued = false)
      ∧ (∃ s, Ready (.suspend [2]) s ∧ s.sc.gate = .opened ∧ (s.slot 2).state = .suspended)
      ∧ ∃ s, Ready (.suspend [2]) s ∧ s.sc.gate = .opened ∧ (s.slot 2).state = .charging ∧ (s.slot 2).runPermit = true :=
  ⟨⟨given _ State.reset, ready rfl (by decide +kernel), rfl⟩, ⟨given _ site, ready rfl (by decide +kernel), rfl⟩,
    ⟨given _ site, ready rfl (by decide +kernel), rfl⟩,
    ⟨given _ site, ready rfl (by decide +kernel), by decide +kernel⟩,
    ⟨given _ (withSession { state := .suspended }), ready rfl (by decide +kernel), by decide +kernel⟩,
    ⟨given _ (withSession { state := .charging, runPermit := true }), ready rfl (by decide +kernel), by decide +kernel⟩⟩

theorem witness_SessionsResumed :
    (∃ s : State, Ready (.resume [2]) s ∧ s.sc.gate = .closed)
      ∧ (∃ s : State, Ready (.resume []) s ∧ s.sc.gate = .opened)
      ∧ (∃ s : State, Ready (.resume [64]) s ∧ s.sc.gate = .opened)
      ∧ (∃ s : State, Ready (.resumeAll [255]) s ∧ s.sc.gate = .closed)
      ∧ (∃ s : State, Ready (.resume [63]) s ∧ s.sc.gate = .opened ∧ (s.slot 63).state ≠ .suspended)
      ∧ (∃ s : State, Ready (.resume [2]) s ∧ s.sc.gate = .opened ∧ (s.slot 2).state = .suspended ∧ s.shedActive = true
        ∧ s.sc.lines.scope.has (s.slot 2).cls = true)
      ∧ (∃ s : State, Ready (.resume [2]) s ∧ s.sc.gate = .opened ∧ (s.slot 2).state = .suspended ∧ s.shedActive = false)
      ∧ (∃ s : State, Ready (.resumeAll [255]) s ∧ s.sc.gate = .opened ∧ (s.slot 2).state = .suspended
        ∧ s.shedActive = false) := by
  refine ⟨⟨given _ State.reset, ready rfl (by decide +kernel), by decide +kernel⟩,
    ⟨given _ site, ready rfl (by decide +kernel), by decide +kernel⟩,
    ⟨given _ site, ready rfl (by decide +kernel), by decide +kernel⟩,
    ⟨given _ State.reset, ready rfl (by decide +kernel), by decide +kernel⟩,
    ⟨given _ site, ready rfl (by decide +kernel), by decide +kernel⟩,
    ⟨given _ ({ withSession { state := .suspended } with sc := { gate := .opened, shedPin := moved .high .high } }),
      ready rfl (by decide +kernel), by decide +kernel⟩,
    ⟨given _ (withSession { state := .suspended }), ready rfl (by decide +kernel), by decide +kernel⟩,
    ⟨given _ (withSession { state := .suspended }), ready rfl (by decide +kernel), by decide +kernel⟩⟩

/-- A session in CHARGING that holds a credit, metered and covered in part. -/
def holding : State :=
  { (withSession { state := .charging, energyWh := 1, grid := 1000, covered := 400, source := some (.credit 7), blockLeft := 600 }).setCredits
      [heldCredit 7 1] with
    al := { queue := [⟨2, .ordinary, 0, 0⟩] }, pending := [.dayRollover], tc := { second := 86399, millis := 1000 } }

theorem ledgerInv_holding : LedgerInv holding := by
  have only : ∀ k, (holding.slot k).source ≠ none → k = 2 := by decide +kernel
  have noScan : ∀ b, (holding.bay b).scan = .empty := by decide +kernel
  exact {
    named := by decide +kernel
    receipts := fun k h => absurd h ((by decide +kernel : ∀ k, (holding.slot k).state ≠ .settled) k)
    scans := fun b _ _ _ h => by rw [noScan b] at h; cases h
    sources := by decide +kernel
    holders := fun c hc _ => by cases List.mem_singleton.mp hc; exact ⟨2, rfl, by decide +kernel⟩
    sourceless := by decide +kernel
    issued := fun c hc h => by cases List.mem_singleton.mp hc; cases h
    held := fun k key h => by
      cases only k (by rw [h]; simp)
      have h2 : (holding.slot 2).source = some (.credit 7) := by decide +kernel
      rw [h2] at h
      cases h
      exact ⟨heldCredit 7 1, List.mem_singleton.mpr rfl, rfl, rfl, rfl⟩
    energy := fun c hc => by
      cases List.mem_singleton.mp hc
      refine ⟨by decide, fun k h => ?_⟩
      cases h
      decide +kernel }

theorem witness_SiteCleared :
    (∃ s : State, Ready (.clearSite []) s ∧ s.sc.gate = .closed)
      ∧ (∃ s : State, Ready (.clearSite [0]) s ∧ s.sc.gate = .opened)
      ∧ (∃ s : State, Ready (.clearSite []) s ∧ s.sc.gate = .opened ∧ ∀ k, (s.slot k).state.live = false)
      ∧ (∃ s : State, Ready (.clearSite []) s ∧ s.sc.gate = .opened ∧ (s.slot 2).source = some (.account 4)
        ∧ (s.slot 2).accountHold = true ∧ (s.slot 2).accountIndex = some 4 ∧ (s.slot 2).state.live = true)
      ∧ ∃ s : State, Ready (.clearSite []) s ∧ s.sc.gate = .opened ∧ (s.slot 2).state.queued = true
        ∧ (s.slot 2).state.live = true ∧ (s.slot 63).state.live = false ∧ (s.slot 2).source = some (.credit 7)
        ∧ SessionInv s ∧ QueueInv s ∧ CreditInv s ∧ LedgerInv s :=
  have h := ledgerInv_holding
  ⟨⟨given _ State.reset, ready rfl (by decide +kernel), by decide +kernel⟩,
    ⟨given _ site, ready rfl (by decide +kernel), by decide +kernel⟩,
    ⟨given _ site, ready rfl (by decide +kernel), by decide +kernel, by decide +kernel⟩,
    ⟨given _ (withSession { state := .charging, source := some (.account 4), accountHold := true, accountIndex := some 4 }),
      ready rfl (by decide +kernel), by decide +kernel⟩,
    ⟨given _ holding, ready rfl (by decide +kernel), by decide +kernel, by decide +kernel, by decide +kernel, by decide +kernel,
      by decide +kernel, ⟨by decide +kernel, by decide +kernel⟩,
      ⟨by decide +kernel, by decide +kernel, by decide +kernel, List.pairwise_singleton _ _⟩, creditInv_one site _ (by decide),
      ⟨h.named, h.receipts, h.scans, h.sources, h.holders, h.sourceless, h.issued, h.held, h.energy⟩⟩⟩

/-- CLEAR SITE at a session that holds a credit: its 600 mWh left are no whole Wh, and the credit is ISSUED again. -/
theorem test_clear_site_releases :
    let t := after (.clearSite []) (given (.clearSite []) holding)
    t.cs.credits = [{ heldCredit 7 1 with state := .issued, holder := none }] ∧ t.al.queue = [] ∧ t.al.passState = .running
      ∧ (t.bay 3).state = .stopped ∧ (t.bay 3).session = some 2 := by decide +kernel

theorem witness_BayFaultCleared :
    (∃ s, Ready (.clearBayFault []) s) ∧ (∃ s, Ready (.clearBayFault [48]) s)
      ∧ (∃ s, Ready (.clearBayFault [47]) s ∧ (s.bay 47).state ≠ .fault)
      ∧ (∃ s, Ready (.clearBayFault [3]) s ∧ (s.bay 3).state = .fault ∧ (s.bay 3).output = true)
      ∧ ∃ s, Ready (.clearBayFault [3]) s ∧ (s.bay 3).state = .fault ∧ s.bayOnline 3 = true ∧ (s.bay 3).output = false
        ∧ 0 < (s.bay 3).committed :=
  ⟨⟨given _ site, ready rfl (by decide +kernel)⟩, ⟨given _ site, ready rfl (by decide +kernel)⟩,
    ⟨given _ site, ready rfl (by decide +kernel), by decide +kernel⟩,
    ⟨given _ (withBay { state := .fault, output := true }), ready rfl (by decide +kernel), by decide +kernel⟩,
    ⟨given _ (withBay { state := .fault, grantAck := 5 }), ready rfl (by decide +kernel), by decide +kernel⟩⟩

theorem witness_NoticesAcknowledgedAndMasked :
    (∃ s : State, Ready (.ackNotice []) s)
      ∧ (∃ s : State, Ready (.ackNotice [10]) s)
      ∧ (∃ s : State, Ready (.ackNotice [9]) s ∧ arg [9] 0 1 = (NoticeKind.index .tableFullCredit).val)
      ∧ (∃ s : State, Ready (.noticeMask []) s)
      ∧ (∃ s : State, Ready (.noticeMask [1]) s)
      ∧ (∃ s : State, Ready (.noticeMask [3, 255]) s)
      ∧ (∃ s : State, Ready (.noticeMask [255, 255]) s ∧ arg [255, 255] 0 2 % 1024 = 1023) := by
  refine ⟨⟨given _ site, ready rfl (by decide +kernel)⟩,
    ⟨given _ site, ready rfl (by decide +kernel)⟩,
    ⟨given _ site, ready rfl (by decide +kernel), by decide +kernel⟩,
    ⟨given _ site, ready rfl (by decide +kernel)⟩,
    ⟨given _ site, ready rfl (by decide +kernel)⟩,
    ⟨given _ site, ready rfl (by decide +kernel)⟩,
    ⟨given _ site, ready rfl (by decide +kernel), by decide +kernel⟩⟩

theorem witness_DisplayCodeChosen :
    (∃ s : State, (s.bay 3).declared = true ∧ (s.bay 3).state = .occupied ∧ (s.bay 3).session = some 2
        ∧ (s.slot 2).state = .charging ∧ (s.bay 3).message = none ∧ (s.bay 3).scan = .empty ∧ s.stateCode 3 = .charging)
      ∧ (∃ s : State, (s.bay 3).message = some ⟨.plugFirst, 3, false⟩)
      ∧ (∃ s : State, (s.bay 3).message = none ∧ (s.bay 3).scan = .pending 7 0 900)
      ∧ site.stateCode 47 = .noService ∧ (withBay {}).stateCode 3 = .ready :=
  ⟨⟨withSession { state := .charging }, by decide +kernel⟩,
    ⟨withBay { message := some ⟨.plugFirst, 3, false⟩ }, by decide +kernel⟩,
    ⟨withBay { scan := .pending 7 0 900 }, by decide +kernel⟩, by decide +kernel, by decide +kernel⟩

/-- A source device that is declared and ONLINE. -/
def withSource (e : Entry) (kind : DeviceKind) : State := site.setDevice e { declared := true, kind := kind, link := .online }

theorem witness_PollsBuilt :
    (∃ s : State, PassSampled s ∧ s.flc.exchange = .quiet ∧ s.flc.start = none ∧ s.nextPoll = some 3
        ∧ s.flc.gapFrom + s.sc.timing.pollGap * 1000 / s.sc.timing.loopRate.baud ≤ s.runTimer)
      ∧ (∃ s : State, PassSampled s ∧ s.flc.exchange = .quiet ∧ s.nextPoll = some 48
        ∧ s.flc.gapFrom + s.sc.timing.pollGap * 1000 / s.sc.timing.loopRate.baud ≤ s.runTimer)
      ∧ (withSource 54 .battery).nextPoll = some 54 ∧ (withSource 55 .meter).nextPoll = some 55 ∧ site.nextPoll = none
      ∧ (∃ s : State, s.flc.start = some 55 ∧ (s.device 55).declared = true)
      ∧ ∃ s : State, s.flc.start = some 55 ∧ (s.device 55).declared = false ∧ s.nextPoll = some 3 :=
  ⟨⟨withBay {}, sampled rfl, by decide +kernel⟩, ⟨withSource 48 .canopy, sampled rfl, by decide +kernel⟩,
    by decide +kernel, by decide +kernel, by decide +kernel,
    ⟨{ withSource 55 .meter with flc := { (withSource 55 .meter).flc with start := some 55 } }, rfl, by decide +kernel⟩,
    ⟨{ withBay {} with flc := { (withBay {}).flc with start := some 55 } }, rfl, by decide +kernel⟩⟩

/-- A poll of a device that carries a value. -/
def pollOf (e : Entry) (value : Int) : Poll := ⟨e, value, [], 20, .b57600, false⟩

/-- A state in which a poll is being sent, or its response awaited. -/
def exchanging (x : Exchange) (s : State) : State := s.setExchange x

theorem witness_PollsSent :
    (∃ s : State, PassSampled s ∧ s.flc.exchange = .sending (pollOf 3 100) ∧ s.bayOnline 3 = true ∧ (s.bay 3).state = .idle
        ∧ (s.bay 3).grantAck = 101 ∧ (s.bay 3).ackWait = none ∧ (s.bay 3).message = some ⟨.creditOk, 1, true⟩)
      ∧ (∃ s : State, PassSampled s ∧ s.flc.exchange = .sending (pollOf 3 100) ∧ s.bayOnline 3 = true
        ∧ (s.bay 3).grantAck = 101 ∧ (s.bay 3).ackWait = some ⟨50, 101⟩ ∧ (s.bay 3).message = some ⟨.creditOk, 2, true⟩)
      ∧ (∃ s : State, PassSampled s ∧ s.flc.exchange = .sending (pollOf 3 100) ∧ s.bayOnline 3 = true
        ∧ (s.bay 3).grantAck = 101 ∧ (s.bay 3).ackWait = some ⟨50, 100⟩ ∧ (s.bay 3).message = some ⟨.creditOk, 3, false⟩)
      ∧ (∃ s : State, PassSampled s ∧ s.flc.exchange = .sending (pollOf 3 100) ∧ (s.bay 3).state = .fault)
      ∧ (∃ s : State, PassSampled s ∧ s.flc.exchange = .sending { pollOf 3 100 with removed := true })
      ∧ (∃ s : State, PassSampled s ∧ s.flc.exchange = .sending (pollOf 3 100) ∧ (s.bay 3).message = none)
      ∧ ∃ s : State, PassSampled s ∧ s.flc.exchange = .sending (pollOf 54 (-5)) :=
  ⟨⟨exchanging (.sending (pollOf 3 100)) (withBay { grantAck := 101, message := some ⟨.creditOk, 1, true⟩ }), sampled rfl,
      by decide +kernel⟩,
    ⟨exchanging (.sending (pollOf 3 100)) (withBay
        { grantAck := 101, ackWait := some ⟨50, 101⟩, message := some ⟨.creditOk, 2, true⟩ }), sampled rfl, by decide +kernel⟩,
    ⟨exchanging (.sending (pollOf 3 100)) (withBay
        { grantAck := 101, ackWait := some ⟨50, 100⟩, message := some ⟨.creditOk, 3, false⟩ }), sampled rfl, by decide +kernel⟩,
    ⟨exchanging (.sending (pollOf 3 100)) (withBay { state := .fault }), sampled rfl, by decide +kernel⟩,
    ⟨exchanging (.sending { pollOf 3 100 with removed := true }) site, sampled rfl, rfl⟩,
    ⟨exchanging (.sending (pollOf 3 100)) (withBay {}), sampled rfl, by decide +kernel⟩,
    ⟨exchanging (.sending (pollOf 54 (-5))) (withSource 54 .battery), sampled rfl, rfl⟩⟩

theorem witness_MissTaken :
    (∃ s : State, PassSampled s ∧ s.flc.exchange = .awaiting { pollOf 3 0 with removed := true } 20 ∧ s.runTimer = 20)
      ∧ (∃ s : State, PassSampled s ∧ s.flc.exchange = .awaiting (pollOf 3 0) 20 ∧ s.runTimer = 20 ∧ (s.device 3).link = .online
        ∧ min 15 ((s.device 3).missCount + 1) < s.sc.timing.missThreshold)
      ∧ (∃ s : State, PassSampled s ∧ s.flc.exchange = .awaiting (pollOf 3 0) 20 ∧ (s.device 3).link = .offline)
      ∧ (∃ s : State, PassSampled s ∧ s.flc.exchange = .awaiting (pollOf 54 0) 20 ∧ (s.device 54).link = .online
        ∧ s.sc.timing.missThreshold = min 15 ((s.device 54).missCount + 1))
      ∧ (∃ s : State, PassSampled s ∧ s.flc.exchange = .awaiting (pollOf 3 0) 20
        ∧ (s.device 3).link = .online ∧ s.sc.timing.missThreshold ≤ min 15 ((s.device 3).missCount + 1) ∧ s.liveSlot 3 = none)
      ∧ (∃ s : State, PassSampled s ∧ s.flc.exchange = .awaiting (pollOf 3 0) 20
        ∧ (s.device 3).link = .online ∧ s.sc.timing.missThreshold ≤ min 15 ((s.device 3).missCount + 1)
        ∧ s.liveSlot 3 = some 2 ∧ (s.slot 2).bay = 3 ∧ (s.slot 2).state = .charging)
      ∧ (∃ s : State, PassSampled s ∧ s.flc.exchange = .awaiting (pollOf 3 0) 20
        ∧ (s.device 3).link = .online ∧ s.sc.timing.missThreshold ≤ min 15 ((s.device 3).missCount + 1)
        ∧ s.liveSlot 3 = some 2 ∧ (s.slot 2).bay = 3 ∧ (s.slot 2).state = .ending) := by
  refine ⟨⟨at_ 20 (exchanging (.awaiting { pollOf 3 0 with removed := true } 20) site), sampled rfl, by decide +kernel⟩,
    ⟨at_ 20 (exchanging (.awaiting (pollOf 3 0) 20) (withBay {})), sampled rfl, by decide +kernel⟩,
    ⟨exchanging (.awaiting (pollOf 3 0) 20) ((withBay {}).setDevice 3 { declared := true }), sampled rfl, by decide +kernel⟩,
    ⟨exchanging (.awaiting (pollOf 54 0) 20)
      (site.setDevice 54 { declared := true, kind := .battery, link := .online, missCount := 2 }), sampled rfl,
        by decide +kernel⟩,
    ⟨exchanging (.awaiting (pollOf 3 0) 20) ((withBay {}).setDevice 3
      { declared := true, kind := .dc, declaredMax := 500, link := .online, missCount := 2 }), sampled rfl, by decide +kernel⟩,
    ⟨exchanging (.awaiting (pollOf 3 0) 20) ((withSession { state := .charging }).setDevice 3
      { declared := true, kind := .dc, declaredMax := 500, link := .online, missCount := 2 }), sampled rfl, by decide +kernel⟩,
    ⟨exchanging (.awaiting (pollOf 3 0) 20) ((withSession { state := .ending }).setDevice 3
      { declared := true, kind := .dc, declaredMax := 500, link := .online, missCount := 2 }), sampled rfl, by decide +kernel⟩⟩

theorem witness_MissTaken_kinds :
    judge 3 [⟨1, false, true⟩] = .error .parity ∧ judge 54 [⟨1, true, true⟩] = .error .frame := ⟨by rfl, by rfl⟩

/-- A good report of a device. -/
def reportOf (e : Entry) (kind : Nat) (payload : List Byte) : List RxChar := charsOf (loopFrame (loopAddress e) kind payload)

/-- A bay report of a plug, of identity DC with 400 steps, and nothing else. -/
def plugPayload : List Byte :=
  be 1 1 ++ be 2 0 ++ be 2 300 ++ be 4 2000000 ++ be 1 0 ++ be 2 0 ++ be 1 0 ++ be 1 0 ++ be 4 0 ++ be 1 3 ++ be 2 400

def plugReport : BayReport :=
  { plug := true, output := false, stopButton := false, cardCap := none, applied := 0, demand := 300, register := 2000000
    faultCode := 0, scanTag := 0, scan := none, idKind := .dc, idMax := 400 }

theorem test_plug_report_judged : judge 3 (reportOf 3 2 plugPayload) = .ok (.bay plugReport) := by decide +kernel
theorem test_meter_report_judged : judge 55 (reportOf 55 4 [1, 44]) = .ok (.meter 300) := by decide +kernel
theorem test_canopy_report_judged : judge 48 (reportOf 48 4 [1, 44]) = .ok (.canopy 300) := by decide +kernel
theorem test_battery_report_judged : judge 54 (reportOf 54 4 [0, 0, 1, 44, 255, 251]) = .ok (.battery 300 (-5)) := by decide +kernel

theorem witness_ResponsesJudged :
    (255 < 256 ∧ (List.replicate 255 (0 : Byte)).length < 256)
      ∧ ∃ c ∈ framePart [⟨1, false, true⟩], c.parity ≠ evenParity c.data := by decide +kernel

/-- The five checks of R27, each failing first: the frames of a meter report of 300 steps, spoiled. -/
theorem test_checks_in_order :
    let spoil := fun n (f : RxChar → RxChar) => (reportOf 55 4 [1, 44]).modify n f
    judge 55 (spoil 6 fun c => ⟨c.data, !c.parity, false⟩) = .error .parity
      ∧ judge 55 (spoil 6 fun c => { c with stop := false }) = .error .frame
      ∧ judge 55 (reportOf 55 4 [1, 44]).dropLast = .error .frame ∧ judge 55 [] = .error .frame
      ∧ judge 54 (spoil 3 fun _ => ⟨2, evenParity 2, true⟩) = .error .check
      ∧ judge 54 (reportOf 55 4 [1, 44]) = .error .address
      ∧ judge 55 (reportOf 55 2 [1, 44]) = .error .frame := by decide +kernel

/-- A state that awaits the response of bay 3. -/
def awaiting3 (s : State) : State := exchanging (.awaiting (pollOf 3 0) 20) s

/-- A session table with no slot FREE. -/
def fullTable : SessionTable := { slots := Vector.replicate 64 { state := .settled } }

theorem witness_PlugInOpensSession :
    (∃ s : State, PassSampled s ∧ s.flc.exchange = .awaiting (pollOf 3 0) 20 ∧ (s.bayDevice 3).link = .online
        ∧ plugReport.idKind = (s.bay 3).kind ∧ (s.bay 3).kind.minSteps ≤ plugReport.idMax ∧ (s.bay 3).state = .idle
        ∧ (s.bay 3).session = none ∧ (s.bay 3).grantAck = 0 ∧ s.sc.gate = .opened ∧ (s.slot 0).state = .free)
      ∧ (∃ s : State, s.sc.gate = .closed ∧ (s.bay 3).state = .idle ∧ s.flc.exchange = .awaiting (pollOf 3 0) 20)
      ∧ (∃ s : State, s.sc.gate = .opened ∧ (s.bay 3).state = .idle ∧ s.flc.exchange = .awaiting (pollOf 3 0) 20
        ∧ ∀ k, (s.slot k).state ≠ .free)
      ∧ (∃ s : State, PassSampled s ∧ s.sc.gate = .opened ∧ (s.bay 3).state = .waitingSlot ∧ (s.bay 3).session = none
        ∧ s.flc.exchange = .awaiting (pollOf 3 0) 20 ∧ (s.slot 0).state = .free)
      ∧ (∃ s : State, PassSampled s ∧ s.sc.gate = .closed ∧ (s.bay 3).state = .waitingSlot
        ∧ s.flc.exchange = .awaiting (pollOf 3 0) 20)
      ∧ ∃ s : State, PassSampled s ∧ s.sc.gate = .opened ∧ (s.bay 3).state = .waitingSlot
        ∧ s.flc.exchange = .awaiting (pollOf 3 0) 20 ∧ ∀ k, (s.slot k).state ≠ .free :=
  ⟨⟨awaiting3 (withBay {}), sampled rfl, by decide +kernel⟩, ⟨awaiting3 { withBay {} with sc := {} }, by decide +kernel⟩,
    ⟨awaiting3 { withBay {} with st := fullTable }, by decide +kernel⟩,
    ⟨awaiting3 (withBay { state := .waitingSlot }), sampled rfl, by decide +kernel⟩,
    ⟨awaiting3 { withBay { state := .waitingSlot } with sc := {} }, sampled rfl, by decide +kernel⟩,
    ⟨awaiting3 { withBay { state := .waitingSlot } with st := fullTable }, sampled rfl, by decide +kernel⟩⟩

/-- Step 2 of a report at every other bay state, and without the plug. -/
theorem witness_PlugInOpensSession_step :
    (∃ s : State, (s.bay 3).state = .stopped ∧ plugReport.plug = true ∧ s.sc.gate = .opened ∧ (s.slot 0).state = .free)
      ∧ (∃ s : State, (s.bay 3).state = .fault ∧ s.sc.gate = .opened) ∧ (∃ s : State, (s.bay 3).state = .idle ∧
        { plugReport with plug := false }.plug = false) :=
  ⟨⟨withBay { state := .stopped }, by decide +kernel⟩, ⟨withBay { state := .fault }, by decide +kernel⟩,
    ⟨withBay {}, by decide +kernel⟩⟩

/-- A report of another identity than the bay's, with a card, a scan, a fault and the stop button. -/
def strangeReport : BayReport :=
  { plugReport with idKind := .ac1, cardCap := some 1, scanTag := 7, scan := some ⟨.receipt, 7⟩, faultCode := 1, stopButton := true }

theorem witness_BayReportsHandedOn :
    (∃ s : State, s.flc.exchange = .awaiting { pollOf 3 0 with removed := true } 20)
      ∧ (∃ s : State, s.flc.exchange = .awaiting (pollOf 3 0) 20
        ∧ judge (pollOf 3 0).entry (reportOf 3 2 plugPayload) = .ok (.bay plugReport))
      ∧ (∃ s : State, (s.device 3).link = .online ∧ (s.device 47).link = .offline ∧ (s.device 55).link = .offline)
      ∧ (∃ s : State, (s.bay 3).state = .blocked ∧ (s.bay 3).identity = .mismatch)
      ∧ (∃ s : State, (s.bay 3).state = .blocked ∧ (s.bay 3).identity ≠ .mismatch ∧ plugReport.idKind = (s.bay 3).kind
        ∧ strangeReport.idKind ≠ (s.bay 3).kind)
      ∧ (∃ s : State, (s.bay 3).state ≠ .blocked ∧ plugReport.idKind = (s.bay 3).kind
        ∧ (s.bay 3).kind.minSteps ≤ plugReport.idMax
        ∧ strangeReport.idKind ≠ (s.bay 3).kind ∧ s.liveSlot 3 = none)
      ∧ (∃ s : State, (s.bay 3).state ≠ .blocked ∧ strangeReport.idKind ≠ (s.bay 3).kind ∧ s.liveSlot 3 = some 2
        ∧ (s.slot 2).bay = 3)
      ∧ (∃ s : State, (s.bayDevice 3).lastScanTag ≠ strangeReport.scanTag ∧ strangeReport.scan = some ⟨.receipt, 7⟩)
      ∧ (∃ s : State, (s.bayDevice 3).lastScanTag = strangeReport.scanTag ∧ plugReport.scan = none) := by
  refine ⟨⟨exchanging (.awaiting { pollOf 3 0 with removed := true } 20) (withBay {}), rfl⟩,
    ⟨awaiting3 (withBay {}), rfl, by decide +kernel⟩,
    ⟨withBay {}, by decide +kernel⟩,
    ⟨withBay { state := .blocked, identity := .mismatch }, by decide +kernel⟩,
    ⟨withBay { state := .blocked }, by decide +kernel⟩,
    ⟨withBay {}, by decide +kernel⟩,
    ⟨withSession { state := .charging }, by decide +kernel⟩,
    ⟨withBay {}, by decide +kernel⟩,
    ⟨(withBay {}).modDevice 3 fun d => { d with lastScanTag := 7 }, by decide +kernel⟩⟩

/-- A report of an output that is on with an applied value of 100. -/
def onReport : BayReport := { plugReport with output := true, applied := 100 }

theorem witness_AcknowledgementTaken :
    (∃ s : State, plugReport.output = false ∧ (s.bay 3).declared = true)
      ∧ (∃ s : State, onReport.output = true ∧ (s.bay 3).state = .fault)
      ∧ (∃ s : State, (s.bay 3).state = .idle ∧ onReport.applied = (s.bayDevice 3).lastSent.toNat)
      ∧ (∃ s : State, (s.bay 3).state = .idle ∧ (s.bayDevice 3).lastSent.toNat < onReport.applied ∧ s.liveSlot 3 = none)
      ∧ (∃ s : State, (s.bay 3).state = .occupied ∧ (s.bayDevice 3).lastSent.toNat < onReport.applied ∧ s.liveSlot 3 = some 2
        ∧ (s.slot 2).bay = 3) := by
  refine ⟨⟨withBay {}, by decide +kernel⟩,
    ⟨withBay { state := .fault }, by decide +kernel⟩,
    ⟨(withBay {}).modDevice 3 fun d => { d with lastSent := 100 }, by decide +kernel⟩,
    ⟨(withBay {}).modDevice 3 fun d => { d with lastSent := 99 }, by decide +kernel⟩,
    ⟨(withSession { state := .charging }).modDevice 3 fun d => { d with lastSent := 99 }, by decide +kernel⟩⟩

/-- A session that waits for power in the queue, with its claim. -/
def claiming : State :=
  { withSession { state := .waiting, runPermit := true, demand := 300, cls := .rapid } with
    sc := { site.sc with importCap := 1000, fallback := .fixed 0, feederLimits := Vector.replicate 4 1000 }
    al := { queue := [⟨2, .rapid, 0, 300⟩] } }

/-- A report of the plug taken out. -/
def pulledReport : BayReport := { plugReport with plug := false }

theorem witness_ReportStepsTaken :
    (∃ s : State, s.liveSlot 3 = some 2 ∧ (s.slot 2).bay = 3 ∧ (s.slot 2).state = .ending ∧ plugReport.output = false)
      ∧ (∃ s : State, s.liveSlot 3 = some 2 ∧ (s.slot 2).state ≠ .ending ∧ strangeReport.faultCode ≠ 0
        ∧ (s.bay 3).state ≠ .fault
        ∧ (s.bay 3).state ≠ .blocked)
      ∧ (∃ s : State, s.liveSlot 3 = some 2 ∧ (s.slot 2).state = .opening ∧ (s.slot 2).energyWh = 0 ∧ pulledReport.plug = false
        ∧ strangeReport.stopButton = true)
      ∧ (∃ s : State, s.liveSlot 3 = some 2 ∧ (s.slot 2).state = .opening ∧ 0 < (s.slot 2).energyWh ∧ (s.bay 3).plug = false)
      ∧ (∃ s : State, s.liveSlot 3 = some 2 ∧ (s.slot 2).state = .opening ∧ 0 < (s.slot 2).energyWh ∧ (s.bay 3).plug = true)
      ∧ (∃ s : State, s.liveSlot 3 = some 2 ∧ (s.slot 2).state.queued = true ∧ s.bayOnline 3 = true)
      ∧ (∃ s : State, s.liveSlot 3 = some 2 ∧ (s.slot 2).state.queued = true ∧ s.bayOnline 3 = false)
      ∧ (∃ s : State, s.liveSlot 3 = some 2 ∧ (s.al.queue.map (·.slot)).Nodup ∧ (⟨2, .rapid, 0, 300⟩ : Member) ∈ s.al.queue
        ∧ (s.slot 2).state = .waiting ∧ (s.slot 2).runPermit = true ∧ 300 + 2 ≤ 302)
      ∧ (∃ s : State, s.liveSlot 3 = some 2 ∧ s.al.queue = [])
      ∧ (∃ s : State, s.liveSlot 3 = none ∧ (s.bay 3).state = .waitingSlot)
      ∧ (∃ s : State, s.liveSlot 3 = none ∧ (s.bay 3).state = .idle)
      ∧ (∃ s : State, s.liveSlot 3 = none ∧ (s.bay 3).state = .fault) := by
  refine ⟨⟨withSession { state := .ending }, by decide +kernel⟩,
    ⟨withSession { state := .charging }, by decide +kernel⟩,
    ⟨withSession { state := .opening }, by decide +kernel⟩,
    ⟨(withSession { state := .opening, energyWh := 1 }).modBay 3 fun y => { y with plug := false }, by decide +kernel⟩,
    ⟨withSession { state := .opening, energyWh := 1 }, by decide +kernel⟩,
    ⟨withSession { state := .charging }, by decide +kernel⟩,
    ⟨(withSession { state := .waiting }).setDevice 3 { declared := true }, by decide +kernel⟩,
    ⟨claiming, by decide +kernel⟩,
    ⟨withSession { state := .opening }, by decide +kernel⟩,
    ⟨withBay { state := .waitingSlot }, by decide +kernel⟩,
    ⟨withBay {}, by decide +kernel⟩,
    ⟨withBay { state := .fault }, by decide +kernel⟩⟩

/-- A session in OPENING at bay 3, with account 4. -/
def opening (a : Account) : State := (withSession { state := .opening }).setAccount 4 a

theorem accountInv_opening (a : Account) (h : a.remainingWh ≤ a.allowanceWh ∧ a.holders ≤ a.maxHolders ∧ a.token ≠ 0)
    (hd : ∀ i, i ≠ 4 → (opening a).account i = {}) (h4 : (opening a).account 4 = a) : AccountInv (opening a) := by
  have other : ∀ i, ((opening a).account i).enabled = true → i = 4 := fun i hi => by
    by_contra hn
    rw [hd i hn] at hi
    cases hi
  refine ⟨fun i => ?_, fun i j hij hi hj => absurd ((other i hi).trans (other j hj).symm) hij⟩
  by_cases hi : i = 4
  · rw [hi, h4]
    exact ⟨h.1, h.2.1, fun _ => h.2.2⟩
  · rw [hd i hi]
    exact ⟨le_refl _, le_refl _, fun h => by cases h⟩

theorem witness_CardsAndScansTaken :
    (∃ s : State, (s.slot 2).state = .opening ∧ ¬(s.shedActive = true ∧ s.sc.lines.scope.has (s.slot 2).cls = true))
      ∧ (∃ s : State, (s.slot 2).state = .opening ∧ s.shedActive = true ∧ s.sc.lines.scope.has (s.slot 2).cls = true)
      ∧ (∃ s : State, (s.slot 2).payment = .card ∧ (s.slot 2).state.queued = true ∧ (s.slot 2).spendCap = some 1
        ∧ 1 * 10000000 = (s.slot 2).cost ∧ s.bayOnline 3 = true)
      ∧ (∃ s : State, (s.slot 2).payment = .card ∧ (s.slot 2).state.queued = true ∧ (s.slot 2).spendCap = some 1
        ∧ 1 * 10000000 = (s.slot 2).cost ∧ s.bayOnline 3 = false)
      ∧ (∃ s : State, strangeReport.cardCap = some 1 ∧ s.liveSlot 3 = some 2 ∧ (s.slot 2).payment ≠ .account
        ∧ plugReport.cardCap = none)
      ∧ (∃ s : State, s.liveSlot 3 = some 2 ∧ (s.slot 2).payment = .account)
      ∧ (∃ s : State, s.liveSlot 47 = none)
      ∧ (∃ s : State, s.liveSlot 3 = some 2 ∧ (s.slot 2).state = .opening
        ∧ ∀ i, (s.account i).enabled = true → (s.account i).token ≠ 9)
      ∧ (∃ s : State, AccountInv s ∧ s.liveSlot 3 = some 2 ∧ (s.slot 2).state = .opening ∧ (s.account 4).enabled = true
        ∧ (s.account 4).token = 9 ∧ (s.account 4).maxHolders = (s.account 4).holders)
      ∧ (∃ s : State, AccountInv s ∧ s.liveSlot 3 = some 2 ∧ (s.slot 2).state = .opening ∧ (s.account 4).enabled = true
        ∧ (s.account 4).token = 9 ∧ (s.account 4).holders < (s.account 4).maxHolders ∧ (s.account 4).allowanceWh = 0)
      ∧ (∃ s : State, AccountInv s ∧ s.liveSlot 3 = some 2 ∧ (s.slot 2).state = .opening ∧ (s.account 4).enabled = true
        ∧ (s.account 4).token = 9 ∧ (s.account 4).holders < (s.account 4).maxHolders ∧ 0 < (s.account 4).remainingWh)
      ∧ (∃ s : State, AccountInv s ∧ s.liveSlot 3 = some 2 ∧ (s.slot 2).state = .opening ∧ (s.account 4).enabled = true
        ∧ (s.account 4).token = 9 ∧ (s.account 4).holders < (s.account 4).maxHolders ∧ 0 < (s.account 4).allowanceWh
        ∧ (s.account 4).remainingWh = 0
        ∧ (s.slot 2).blockLeft = 0)
      ∧ (∃ s : State, s.liveSlot 3 = some 2 ∧ (s.slot 2).state = .ending)
      ∧ (∃ s : State, s.liveSlot 3 = some 2 ∧ (s.slot 2).state ≠ .ending ∧ (s.slot 2).source ≠ none)
      ∧ (∃ s : State, s.liveSlot 3 = some 2 ∧ (s.slot 2).state ≠ .ending ∧ (s.slot 2).source = none
        ∧ (s.slot 2).payment = .account)
      ∧ (∃ s : State, s.liveSlot 3 = some 2 ∧ (s.slot 2).state ≠ .ending ∧ (s.slot 2).source = none
        ∧ (s.slot 2).payment ≠ .account
        ∧ lookupCredit 7 s = some (heldCredit 7 1))
      ∧ (∃ s : State, s.liveSlot 3 = some 2 ∧ (s.slot 2).state ≠ .ending ∧ (s.slot 2).source = none
        ∧ (s.slot 2).payment ≠ .account
        ∧ lookupCredit 7 s = some { heldCredit 7 1 with state := .issued })
      ∧ (∃ s : State, s.liveSlot 3 = some 2 ∧ (s.slot 2).state ≠ .ending ∧ (s.slot 2).source = none
        ∧ (s.slot 2).payment ≠ .account ∧ lookupCredit 8 s = none
        ∧ lookupCredit 0 s = none) := by
  refine ⟨⟨withSession { state := .opening }, by decide +kernel⟩,
    ⟨{ withSession { state := .opening } with sc := { gate := .opened, shedPin := moved .high .high } }, by decide +kernel⟩,
    ⟨withSession { state := .charging, payment := .card, spendCap := some 1, cost := 10000000 }, by decide +kernel⟩,
    ⟨(withSession { state := .charging, payment := .card, spendCap := some 1, cost := 10000000 }).setDevice 3
      { declared := true }, by decide +kernel⟩,
    ⟨withSession { state := .opening }, by decide +kernel⟩,
    ⟨withSession { state := .waiting, payment := .account }, by decide +kernel⟩,
    ⟨site, by decide +kernel⟩,
    ⟨withSession { state := .opening }, by decide +kernel⟩,
    ⟨opening { token := 9, enabled := true, maxHolders := 1, holders := 1 },
      accountInv_opening _ (by decide) (by decide +kernel) (by decide +kernel), by decide +kernel⟩,
    ⟨opening { token := 9, enabled := true, maxHolders := 1 },
      accountInv_opening _ (by decide) (by decide +kernel) (by decide +kernel), by decide +kernel⟩,
    ⟨opening { token := 9, enabled := true, maxHolders := 8, holders := 7, allowanceWh := 1, remainingWh := 1 },
      accountInv_opening _ (by decide) (by decide +kernel) (by decide +kernel), by decide +kernel⟩,
    ⟨opening { token := 9, enabled := true, maxHolders := 1, allowanceWh := 1 },
      accountInv_opening _ (by decide) (by decide +kernel) (by decide +kernel), by decide +kernel⟩,
    ⟨withSession { state := .ending }, by decide +kernel⟩,
    ⟨withSession { state := .charging, source := some (.credit 7) }, by decide +kernel⟩,
    ⟨withSession { state := .waiting, payment := .account }, by decide +kernel⟩,
    ⟨(withSession { state := .opening }).setCredits [heldCredit 7 1], by decide +kernel⟩,
    ⟨(withSession { state := .opening }).setCredits [{ heldCredit 7 1 with state := .issued }], by decide +kernel⟩,
    ⟨withSession { state := .opening }, by decide +kernel⟩⟩

theorem witness_SourceReportsTaken :
    (∃ s : State, PassSampled s ∧ s.flc.exchange = .awaiting (pollOf 55 0) 20 ∧ (s.device 55).link = .online
        ∧ 10 ≤ 300 - s.al.usedLoad)
      ∧ (∃ s : State, PassSampled s ∧ s.flc.exchange = .awaiting (pollOf 55 0) 20 ∧ (s.device 55).link = .online
        ∧ 300 < s.al.usedLoad + 10 ∧ s.al.usedLoad < 300 + 10)
      ∧ (∃ s : State, PassSampled s ∧ s.flc.exchange = .awaiting (pollOf 48 0) 20 ∧ (s.device 48).link = .online)
      ∧ (∃ s : State, PassSampled s ∧ s.flc.exchange = .awaiting (pollOf 48 0) 20 ∧ (s.device 48).link = .offline)
      ∧ ∃ s : State, PassSampled s ∧ s.flc.exchange = .awaiting (pollOf 54 0) 20 ∧ (s.device 54).link = .online
        ∧ min 300 s.sc.eCap ≤ s.sc.eFloor :=
  ⟨⟨exchanging (.awaiting (pollOf 55 0) 20) (withSource 55 .meter), sampled rfl, by decide +kernel⟩,
    ⟨exchanging (.awaiting (pollOf 55 0) 20) { withSource 55 .meter with al := { usedLoad := 291 } }, sampled rfl,
      by decide +kernel⟩,
    ⟨exchanging (.awaiting (pollOf 48 0) 20) (withSource 48 .canopy), sampled rfl, by decide +kernel⟩,
    ⟨exchanging (.awaiting (pollOf 48 0) 20) (site.setDevice 48 { declared := true, kind := .canopy }), sampled rfl,
      by decide +kernel⟩,
    ⟨exchanging (.awaiting (pollOf 54 0) 20) (withSource 54 .battery), sampled rfl, by decide +kernel⟩⟩

/-- A pass that runs on the records of a state. -/
def running (s : State) : State := { s with al := { s.al with passState := .running, snapshot := some s.takeSnapshot } }

theorem passInv_running {s : State} (hg : s.sc.gate = .opened) (hr : s.al.refresh = none) (hp : s.al.pendingRequest = false) :
    PassInv (running s) :=
  ⟨⟨fun _ => rfl, fun _ => rfl⟩, fun _ => hr, fun h => (nomatch h), fun h => (nomatch hg.symm.trans h), fun _ => hp⟩

theorem witness_PassesBeginAndEnd :
    (∃ s : State, PassSampled s ∧ s.al.refresh = some 5000 ∧ 5000 ≤ s.runTimer ∧ s.sc.gate = .opened
        ∧ s.al.passState = .idle)
      ∧ (∃ s : State, PassInv s ∧ s.al.passState = .running ∧ s.al.snapshot = some claiming.takeSnapshot
        ∧ (s.bay 3).declared = true ∧ (s.bay 47).declared = false ∧ s.sc.reserve = .free ∧ s.al.battery.fresh = false)
      ∧ claiming.takeSnapshot.compute.claims.map (fun x => (x.slot, x.bay, x.g)) = [(2, 3, 300)]
      ∧ (∀ x ∈ claiming.takeSnapshot.compute.claims, (running claiming).stillEligible x = true)
      ∧ (∀ x ∈ claiming.takeSnapshot.compute.claims,
          ((running claiming).setSlot 2 { claiming.slot 2 with sequence := 9 }).stillEligible x = false)
      ∧ (∃ s : State, PassInv s ∧ s.al.snapshot = some claiming.takeSnapshot ∧ (s.bay 3).declared = true
        ∧ s.bayOnline 3 = true ∧ (s.bay 3).ackWait = some ⟨9000, 200⟩ ∧ (s.bay 3).grantAck = 300)
      ∧ (∃ s : State, PassInv s ∧ s.al.snapshot = some claiming.takeSnapshot ∧ s.bayOnline 3 = false
        ∧ s.liveSlot 3 = some 2)
      ∧ ∃ k : InverterId, (brightNoon.takeSnapshot.inverters[k.val]).declared = true
        ∧ (brightNoon.device (Role.canopy k).entry).declared = true ∧ (brightNoon.inverter k).fresh = false :=
  ⟨⟨at_ 5000 { site with al := { refresh := some 5000 } }, sampled rfl, by decide⟩,
    ⟨running claiming, passInv_running rfl rfl rfl, rfl, rfl, by decide +kernel⟩, by decide +kernel, by decide +kernel,
    by decide +kernel,
    ⟨(running claiming).modBay 3 fun y => { y with ackWait := some ⟨9000, 200⟩, grantAck := 300 }, passInv_running rfl rfl rfl,
      rfl, by decide +kernel⟩,
    ⟨(running claiming).setDevice 3 { declared := true }, passInv_running rfl rfl rfl, rfl, by decide +kernel⟩,
    0, by decide +kernel⟩

/-- R95: a pass that raises the grant to the acknowledgement of 300 ends the ack wait. -/
theorem test_overtaken_wait_ends :
    let t := after .passEnd ((running claiming).modBay 3 fun y => { y with ackWait := some ⟨9000, 200⟩, grantAck := 300 })
    (t.bay 3).grantSet = 300 ∧ (t.bay 3).ackWait = none := by decide +kernel

/-- In the five sessions, one is FIRM and four are not; the battery may discharge, and at the bright noon it charges. -/
theorem witness_BudgetComputed :
    let n := (fiveSessions 1400 0 0 0 0 0).takeSnapshot
    let m := brightNoon.takeSnapshot
    n.compute.b0 < n.compute.dm ∧ n.batteryDeclared = true ∧ n.batteryOnline = true ∧ n.reserve = .free ∧ n.permit = true
      ∧ (m.compute.dm : Int) < m.compute.b0 ∧ m.batteryDeclared = true ∧ m.soe < m.eCap
      ∧ (∃ x ∈ n.compute.claims, x.cls = .firm) ∧ (∃ x ∈ n.compute.claims, x.cls ≠ .firm)
      ∧ (∀ x ∈ n.compute.claims, (n.bays[x.bay.val]).minSteps ≤ (n.bays[x.bay.val]).maxSteps)
      ∧ (∃ s : State, (s.bay 3).declared = true ∧ (s.bay 47).declared = false ∧ s.flc.exchange = .sending (pollOf 3 100))
      ∧ ∃ s : State, (s.bay 3).declared = true ∧ s.flc.exchange = .sending (pollOf 54 5) := by
  refine ⟨?_, ?_, ?_, ?_, ?_, ?_, ?_, ?_, ?_, ?_, ?_, ⟨exchanging (.sending (pollOf 3 100)) (withBay {}), by decide +kernel⟩,
    ⟨exchanging (.sending (pollOf 54 5)) (withBay {}), by decide +kernel⟩⟩ <;> decide +kernel

/-- The admission at 1050 steps gives five wants, and the rounds the rest (Tables 4-8, 4-9). -/
theorem witness_AdmissionAndSharing :
    let n := (fiveSessions 1400 0 0 0 0 0).takeSnapshot
    n.claims.length = 5 ∧ ((admitWalk n.claims (n.startRooms n.claims 1050)).1.map (·.g)) = [110, 50, 14, 42, 14]
      ∧ ((n.share 1050).map (·.g)) = [110, 710, 73, 117, 40] := by decide +kernel

theorem witness_SessionDeadlinesReached :
    (∃ s : State, PassSampled s ∧ 100 ≤ s.runTimer ∧ (s.slot 2).state = .opening ∧ (s.slot 2).authDeadline = some 100
        ∧ (s.slot 2).energyWh = 0)
      ∧ (∃ s : State, PassSampled s ∧ 100 ≤ s.runTimer ∧ (s.slot 2).state = .opening ∧ (s.slot 2).authDeadline = some 100
        ∧ 0 < (s.slot 2).energyWh)
      ∧ ∃ s : State, PassSampled s ∧ 100 ≤ s.runTimer ∧ (s.slot 2).state = .ending ∧ (s.slot 2).endDeadline = some 100 :=
  ⟨⟨at_ 100 (withSession { state := .opening, authDeadline := some 100 }), sampled rfl, by decide +kernel⟩,
    ⟨at_ 100 (withSession { state := .opening, authDeadline := some 100, energyWh := 1 }), sampled rfl, by decide +kernel⟩,
    ⟨at_ 100 (withSession { state := .ending, endDeadline := some 100 }), sampled rfl, by decide +kernel⟩⟩

theorem witness_BayDeadlinesReached :
    (∃ s : State, PassSampled s ∧ (s.bay 3).ackWait = some ⟨100, 5⟩ ∧ s.runTimer = 100 ∧ s.liveSlot 3 = none)
      ∧ (∃ s : State, PassSampled s ∧ (s.bay 3).ackWait = some ⟨100, 5⟩ ∧ s.runTimer = 100 ∧ s.liveSlot 3 = some 2
        ∧ (s.slot 2).bay = 3)
      ∧ (∃ s : State, PassSampled s ∧ (s.bay 3).lostDeadline = some 100 ∧ s.runTimer = 100 ∧ s.liveSlot 3 = some 2
        ∧ (s.slot 2).bay = 3)
      ∧ (∃ s : State, PassSampled s ∧ (s.bay 3).lostDeadline = some 100 ∧ s.runTimer = 100 ∧ s.liveSlot 3 = none)
      ∧ (∃ s : State, PassSampled s ∧ (s.bay 3).scan = .pending 7 0 100 ∧ s.runTimer = 100) := by
  refine ⟨⟨at_ 100 (withBay { ackWait := some ⟨100, 5⟩ }), sampled rfl, by decide +kernel⟩,
    ⟨at_ 100 ((withSession { state := .waiting }).modBay 3 fun y => { y with ackWait := some ⟨100, 5⟩ }), sampled rfl,
      by decide +kernel⟩,
    ⟨at_ 100 ((withSession { state := .waiting }).modBay 3 fun y => { y with lostDeadline := some 100 }), sampled rfl,
      by decide +kernel⟩,
    ⟨at_ 100 (withBay { lostDeadline := some 100 }), sampled rfl, by decide +kernel⟩,
    ⟨at_ 100 (withBay { scan := .pending 7 0 100 }), sampled rfl, by decide +kernel⟩⟩

/-- Boundaries of RegisterAbsorbed: with 400 steps and 1 s the bound is ceil(400 / 36) + 50 = 62. -/
theorem witness_RegisterAbsorbed :
    (∃ s : State, (s.slot 2).source = none ∧ (s.slot 2).spendCap = none ∧ (s.slot 2).baselineSet = false)
      ∧ (∃ s : State, (s.slot 2).source = none ∧ (s.slot 2).spendCap = none ∧ (s.slot 2).baselineSet = true
        ∧ (s.bay 3).lastRegister = 100
        ∧ ((s.bay 3).maxSteps * max 1 ((s.runTimer - (s.bay 3).lastReportTime) / 1000) + 35) / 36 + 50 = 62
        ∧ (162 + 2 ^ (s.bay 3).meterWidth - (s.bay 3).lastRegister % 2 ^ (s.bay 3).meterWidth) % 2 ^ (s.bay 3).meterWidth = 62
        ∧ (163 + 2 ^ (s.bay 3).meterWidth - (s.bay 3).lastRegister % 2 ^ (s.bay 3).meterWidth) % 2 ^ (s.bay 3).meterWidth = 63)
      ∧ (∃ s : State, CreditInv s ∧ heldCredit 7 1 ∈ s.cs.credits ∧ (s.slot 2).source = some (.credit 7)
        ∧ (s.slot 2).baselineSet = true ∧ s.sourceSolarOnly (.credit 7) = false ∧ (s.slot 2).blockLeft = 5
        ∧ 0 < s.cs.blockSize)
      ∧ (∃ s : State, s.liveSlot 3 = some 2 ∧ s.liveSlot 47 = none)
      ∧ ∃ s : State, (s.slot 2).source = some (.account 15) ∧ s.sourceSolarOnly (.account 15) = true :=
  ⟨⟨withSession { state := .charging }, by decide +kernel⟩,
    ⟨(withSession { state := .charging, baselineSet := true }).modBay 3 fun y => { y with lastRegister := 100 },
      by decide +kernel⟩,
    ⟨(withSession { state := .charging, baselineSet := true, source := some (.credit 7), blockLeft := 5 }).setCredits
        [heldCredit 7 1], creditInv_one _ _ (by decide), by decide +kernel⟩,
    ⟨withSession { state := .charging }, by decide +kernel⟩,
    ⟨(withSession { source := some (.account 15) }).setAccount 15 { solarOnly := true }, by decide +kernel⟩⟩

theorem witness_ReceiptFigures :
    (999 + 1999 + 2 = 1000 * 3) ∧ (receiptOf 0 { solar := 999, battery := 1999, grid := 2, energyWh := 3 }).gridWh = 2 := by
  decide

/-! ## Witnesses of the invariants: states that keep them and step -/

theorem witness_AllocatorInvariantKept :
    (∃ s t : State, GateInv s ∧ PassInv s ∧ ShareInv s ∧ s.al.passState = .running ∧ step s = .next t)
      ∧ ∃ s t : State, ReserveInv s ∧ s.sc.reserve = .claimed ∧ step s = .next t :=
  ⟨⟨{ running claiming with pending := [.passEnd] }, _, ⟨fun _ => ⟨rfl, rfl⟩, fun _ => rfl⟩,
      ⟨⟨fun _ => rfl, fun _ => rfl⟩, fun _ => rfl, fun h => (nomatch h), fun h => (nomatch h), fun _ => rfl⟩, rfl, rfl, rfl⟩,
    ⟨{ site with pending := [.passEnd], sc := { rsvReqPin := moved .high .high, reserve := .claimed } }, _,
      ⟨by decide, by decide⟩, rfl, rfl⟩⟩

theorem witness_AttnInvariantKept : ∃ s t : State, AttnInv s ∧ step s = .next t :=
  ⟨{ site with pending := [.passEnd] }, _,
    ⟨fun h => (nomatch h), fun ⟨_, k, hk, _⟩ => by cases k <;> cases hk⟩, rfl⟩

theorem witness_RecordInvariantKept : ∃ s t : State, DeclarationInv s ∧ RangeInv s ∧ step s = .next t :=
  ⟨{ State.reset with pending := [.bayPoll] }, _,
    fun b => by constructor <;> revert b <;> decide +kernel,
    { fallback := fun _ h => nomatch h
      feederLimits := by decide
      missCounts := by decide +kernel
      overwrites := fun b _ _ _ h => absurd (h.symm.trans
        ((by decide +kernel : ∀ b, (State.reset.bay b).scan = .empty) b)) (by intro h; cases h)
      accounts := by decide +kernel
      bands := fun n => ⟨fun _ h => absurd (h.symm.trans
        ((by decide : ∀ n : BandId, (State.reset.tc.bands[n.val]).start = none) n)) (by intro h; cases h), by revert n; decide⟩
      counts := by intro k; cases k <;> decide
      importCap := by decide
      margin := by decide
      exportCap := by decide
      capacity := by decide
      floor := by decide
      batteryPower := by decide
      layoutMode := by decide
      waits := by decide
      pollGap := by decide
      allowances := by decide
      missThreshold := by decide
      sequence := by decide
      arrival := by decide
      passNumber := by decide
      blockSize := by decide
      clock := by decide
      canopyPrice := by decide
      dropped := by decide }, rfl⟩

theorem witness_CreditStoreInvariantKept : ∃ s t : State, CreditInv s ∧ AccountInv s ∧ step s = .next t :=
  ⟨{ site.setCredits [heldCredit 7 1] with pending := [.dayRollover] }, _, creditInv_one site _ (by decide),
    ⟨by decide +kernel, by decide +kernel⟩, rfl⟩

theorem witness_SessionInvariantKept : ∃ s t : State, SessionInv s ∧ QueueInv s ∧ (s.slot 2).state.live = true ∧ step s = .next t :=
  ⟨{ claiming with pending := [.refreshTimerExpiry] }, _, ⟨by decide +kernel, by decide +kernel⟩,
    ⟨by decide +kernel, by decide +kernel, by decide +kernel, List.pairwise_singleton _ _⟩, by decide +kernel, rfl⟩

theorem witness_LedgerInvariantKept :
    (∃ s t : State, ShareInv s ∧ MeterInv s ∧ (s.slot 2).energyWh = 1 ∧ step s = .next t)
      ∧ ∃ s t : State, SessionInv s ∧ CreditInv s ∧ LedgerInv s ∧ (s.slot 2).source = some (.credit 7) ∧ step s = .next t :=
  ⟨⟨holding, _, rfl, by unfold MeterInv; decide +kernel, by decide +kernel, rfl⟩,
    ⟨holding, _, ⟨by decide +kernel, by decide +kernel⟩, creditInv_one _ _ (by decide), ledgerInv_holding, by decide +kernel, rfl⟩⟩

end Sys2Proof.Tests
end

section
/-! # ISSUE CREDIT refused (R111) and DECLINE (R117) -/

namespace Sys2Proof.Machine

/-! ## Shared reads -/

/-- A lookup by a key other than 0 finds a record exactly when one is live (R110). -/
theorem lookupCredit_isSome_iff {key : Nat} (s : State) (hkey : key ≠ 0) :
    (lookupCredit key s).isSome = true ↔ ∃ c ∈ s.cs.credits, c.key = key := by
  simp [lookupCredit, hkey]

/-- The key of a scan slot is the one it is PENDING with. -/
theorem ScanSlot.key?_eq_some_iff {x : ScanSlot} {key : Nat} :
    x.key? = some key ↔ ∃ n d, x = .pending key n d := by
  cases x <;> simp [ScanSlot.key?]

/-- The later of two writes of one bay stands. -/
theorem setBay_setBay (s : State) (b : BayId) (x y : Bay) : (s.setBay b x).setBay b y = s.setBay b y := by
  simp [State.setBay]

/-- A bay's scan slot emptied and a message set is one write of its record. -/
theorem setMessage_emptyScan (b : BayId) (c : MessageCode) (s : State) :
    setMessage b c (emptyScan b s) = s.setBay b { s.bay b with scan := .empty, message := some ⟨c, 3, false⟩ } := by
  simp [setMessage, emptyScan, State.modBay, setBay_setBay]

/-- A request row whose block refuses without an effect: the status alone, and nothing else changed (R181). -/
theorem serve_refused {i : Instr} {f : List Byte} {s : State} {act : State → Reply × State} {st : Status}
    (hp : PassSampled s) (h : Holds i f s) (ha : act s = refuse st s) :
    serve i act s = .next (s.answered f st [] s) :=
  serve_unchanged hp h ha

/-- One occurrence of a notice kind is what `countNotice` counts (R175). -/
theorem counted_countNotice (k : NoticeKind) (argument key : Nat) (s : State) :
    Counted k argument key s (countNotice k argument key s) :=
  ⟨countNotice_same k argument key s, fun _ hj => countNotice_ne argument key s hj⟩

/-! ## The checks of ISSUE CREDIT in their order (R111) -/

theorem exec_issueCredit (p : List Byte) (s : State) :
    exec (.issueCredit p) s = serve (.issueCredit p) (issueCreditAct p) s := rfl

/-- The payload fails check 2 of R111, in the fields of Table 11-2. -/
def IssueOutOfRange (p : List Byte) : Prop :=
  arg p 0 4 = 0 ∨ arg p 4 2 = 0 ∨ 60000 < arg p 4 2 ∨ 30 < arg p 6 1 ∨ arg p 8 1 = 0 ∨ 63 < arg p 8 1
    ∨ ((arg p 7 1).testBit 1 = true ∧ 47 < arg p 9 1)

/-- Check 2 of R111 holds the bay to its range only where flag bit 1 gives one. -/
theorem issueArgs_valid_iff (p : List Byte) : (issueArgs p).valid = true ↔ ¬IssueOutOfRange p := by
  cases hgiven : (arg p 7 1).testBit 1 with
  | false => simp [IssueArgs.valid, issueArgs, IssueOutOfRange, hgiven, and_assoc, Nat.one_le_iff_ne_zero]
  | true => simp [IssueArgs.valid, issueArgs, IssueOutOfRange, hgiven, and_assoc, Nat.one_le_iff_ne_zero]

@[simp] theorem issueArgs_key (p : List Byte) : (issueArgs p).key = arg p 0 4 := rfl

@[simp] theorem issueArgs_till (p : List Byte) : (issueArgs p).till = arg p 8 1 := rfl

/-- The key that check 3 looks up is not 0 once check 2 has passed. -/
theorem key_ne_zero_of_inRange {p : List Byte} (h : ¬IssueOutOfRange p) : arg p 0 4 ≠ 0 :=
  fun hzero => h (.inl hzero)

theorem issueCreditAct_badLength {p : List Byte} (s : State) (hlen : p.length ≠ 10) :
    issueCreditAct p s = refuse .badRequest s := if_pos hlen

theorem issueCreditAct_outOfRange {p : List Byte} (s : State) (hlen : p.length = 10) (hbad : IssueOutOfRange p) :
    issueCreditAct p s = refuse .outOfRange s := by
  have hinvalid : ¬(issueArgs p).valid = true := fun hvalid => (issueArgs_valid_iff p).mp hvalid hbad
  simp [issueCreditAct, hlen, hinvalid]

theorem issueCreditAct_duplicate {p : List Byte} {s : State} (hlen : p.length = 10) (hgood : ¬IssueOutOfRange p)
    (hlive : ∃ c ∈ s.cs.credits, c.key = arg p 0 4) : issueCreditAct p s = refuse .duplicate s := by
  have hvalid : (issueArgs p).valid = true := (issueArgs_valid_iff p).mpr hgood
  have hfound : (lookupCredit (arg p 0 4) s).isSome = true :=
    (lookupCredit_isSome_iff s (key_ne_zero_of_inRange hgood)).mpr hlive
  simp [issueCreditAct, hlen, hvalid, hfound]

theorem issueCreditAct_tableFull {p : List Byte} {s : State} (hlen : p.length = 10) (hgood : ¬IssueOutOfRange p)
    (hnew : ∀ c ∈ s.cs.credits, c.key ≠ arg p 0 4) (hfull : 256 ≤ s.cs.credits.length) :
    issueCreditAct p s = refuse .tableFull (countNotice .tableFullCredit (arg p 8 1) 0 s) := by
  have hvalid : (issueArgs p).valid = true := (issueArgs_valid_iff p).mpr hgood
  have habsent : ¬(lookupCredit (arg p 0 4) s).isSome = true := by
    rw [lookupCredit_isSome_iff s (key_ne_zero_of_inRange hgood)]
    rintro ⟨c, hc, hkey⟩
    exact hnew c hc hkey
  have hcapacity : creditCapacity ≤ s.cs.credits.length := hfull
  simp [issueCreditAct, hlen, hvalid, habsent, hcapacity]

/-- Settles O22: each check of R111 fixes the block's reply, and a refused reply leaves the state but for the port; the full
table's one notice is counted before the answer and is all that it leaves. -/
theorem issueCreditRefused : Obligations.IssueCreditRefused := by
  intro p f s hp h bad
  simp only [exec_issueCredit]
  refine ⟨fun hlen => serve_refused hp h (issueCreditAct_badLength s hlen),
    fun hlen hbad => serve_refused hp h (issueCreditAct_outOfRange s hlen hbad),
    fun hlen hgood hlive => serve_refused hp h (issueCreditAct_duplicate hlen hgood hlive),
    fun hlen hgood hnew hfull => ?_⟩
  have hanswer := serve_answered _ h (issueCreditAct_tableFull hlen hgood hnew hfull) rfl hp
  exact ⟨_, hanswer, rfl, counted_countNotice _ _ _ s, countNotice_attn _ _ _ s, rfl, rfl, rfl, rfl, rfl, rfl, rfl, rfl,
    rfl, rfl⟩

/-! ## DECLINE (R117) -/

theorem exec_decline (p : List Byte) (s : State) :
    exec (.decline p) s = serve (.decline p) (declineAct p) s := rfl

theorem declineAct_badLength {p : List Byte} (s : State) (hlen : p.length ≠ 5) :
    declineAct p s = refuse .badRequest s := if_pos hlen

theorem declineAct_outOfRange {p : List Byte} (s : State) (hlen : p.length = 5) (hbay : 47 < arg p 0 1) :
    declineAct p s = refuse .outOfRange s := by
  have hindex : index? 48 (arg p 0 1) = none := index?_none.mpr hbay
  simp [declineAct, hlen, hindex]

/-- What DECLINE does to the bay it names: the scan slot's key decides. -/
theorem declineAct_bay {p : List Byte} {b : BayId} (s : State) (hlen : p.length = 5) (hbay : arg p 0 1 = b.val) :
    declineAct p s =
      if (s.bay b).scan.key? = some (arg p 1 4) then (⟨.ok, []⟩, setMessage b .creditNotValid (emptyScan b s))
      else refuse .notFound s := by
  have hindex : index? 48 (arg p 0 1) = some b := index?_some.mpr hbay
  simp [declineAct, hlen, hindex]

theorem declineAct_pending {p : List Byte} {b : BayId} {s : State} (hlen : p.length = 5) (hbay : arg p 0 1 = b.val)
    (hscan : ∃ n d, (s.bay b).scan = .pending (arg p 1 4) n d) :
    declineAct p s =
      (⟨.ok, []⟩, s.setBay b { s.bay b with scan := .empty, message := some ⟨.creditNotValid, 3, false⟩ }) := by
  rw [declineAct_bay s hlen hbay, if_pos (ScanSlot.key?_eq_some_iff.mpr hscan), setMessage_emptyScan]

theorem declineAct_notPending {p : List Byte} {b : BayId} {s : State} (hlen : p.length = 5) (hbay : arg p 0 1 = b.val)
    (hscan : ∀ n d, (s.bay b).scan ≠ .pending (arg p 1 4) n d) : declineAct p s = refuse .notFound s := by
  have hkey : (s.bay b).scan.key? ≠ some (arg p 1 4) := by
    rw [ne_eq, ScanSlot.key?_eq_some_iff]
    rintro ⟨n, d, hpending⟩
    exact hscan n d hpending
  rw [declineAct_bay s hlen hbay, if_neg hkey]

/-- Settles O24: the length, the bay and the key of its scan slot decide the reply, and only the OK row writes the bay. -/
theorem queryDeclined : Obligations.QueryDeclined := by
  intro p f s hp h
  simp only [exec_decline]
  refine ⟨fun hlen => serve_refused hp h (declineAct_badLength s hlen),
    fun hlen hbay => serve_refused hp h (declineAct_outOfRange s hlen hbay),
    fun b hlen hbay => ⟨fun hscan => ?_, fun hscan => ?_⟩⟩
  · exact serve_answered _ h (declineAct_pending hlen hbay hscan) rfl hp
  · exact serve_refused hp h (declineAct_notPending hlen hbay hscan)

end Sys2Proof.Machine
end

section
/-! # ACCOUNT (R129, R130) -/

namespace Sys2Proof.Machine

theorem exec_account (p : List Byte) (s : State) : exec (.account p) s = serve (.account p) (accountAct p) s := rfl

/-! ## The values of an ACCOUNT (R129, check 2) -/

/-- The payload fails check 2 of R129, in the fields of Table 11-8. -/
def AccountOutOfRange (p : List Byte) : Prop :=
  15 < arg p 0 1 ∨ 1 < arg p 5 1 ∨ 1 < arg p 6 1 ∨ 65000 < arg p 9 2 ∨ arg p 12 1 = 0 ∨ 8 < arg p 12 1
    ∨ (arg p 5 1 = 1 ∧ arg p 1 4 = 0)

/-- The settings of a payload whose values pass check 2 of R129, for the entry it names. -/
def requestedAccount (p : List Byte) (i : AccountId) : AccountArgs where
  index := i
  token := arg p 1 4
  enabled := decide (arg p 5 1 = 1)
  cls := if arg p 6 1 = 0 then .firm else .ordinary
  firmSteps := arg p 7 2
  allowanceWh := arg p 9 2
  solarOnly := (arg p 11 1).testBit 0
  maxHolders := arg p 12 1

theorem enabledOf_none {n : Nat} (h : 1 < n) : enabledOf n = none := by
  match n, h with
  | _ + 2, _ => rfl

theorem enabledOf_some {n : Nat} (h : n ≤ 1) : enabledOf n = some (decide (n = 1)) := by
  match n, h with
  | 0, _ => rfl
  | 1, _ => rfl

theorem accountClassOf_none {n : Nat} (h : 1 < n) : accountClassOf n = none := by
  match n, h with
  | _ + 2, _ => rfl

theorem accountClassOf_some {n : Nat} (h : n ≤ 1) :
    accountClassOf n = some (if n = 0 then .firm else .ordinary) := by
  match n, h with
  | 0, _ => rfl
  | 1, _ => rfl

/-- Once the three coded fields have been read, the ranges of the others decide check 2. -/
theorem accountArgs_of_codes {p : List Byte} {i : AccountId} (hindex : arg p 0 1 = i.val) (henabled : arg p 5 1 ≤ 1)
    (hclass : arg p 6 1 ≤ 1) :
    accountArgs p =
      if arg p 9 2 ≤ 65000 ∧ 1 ≤ arg p 12 1 ∧ arg p 12 1 ≤ 8 ∧ ¬(arg p 5 1 = 1 ∧ arg p 1 4 = 0) then
        some (requestedAccount p i)
      else none := by
  simp [accountArgs, index?_some.mpr hindex, enabledOf_some henabled, accountClassOf_some hclass, requestedAccount]

theorem accountArgs_none {p : List Byte} (hbad : AccountOutOfRange p) : accountArgs p = none := by
  by_cases hindex : 15 < arg p 0 1
  · simp [accountArgs, index?_none.mpr hindex]
  by_cases henabled : 1 < arg p 5 1
  · simp [accountArgs, enabledOf_none henabled]
  by_cases hclass : 1 < arg p 6 1
  · simp [accountArgs, accountClassOf_none hclass]
  have hi : arg p 0 1 = (⟨arg p 0 1, by omega⟩ : AccountId).val := rfl
  rw [accountArgs_of_codes hi (by omega) (by omega), if_neg]
  unfold AccountOutOfRange at hbad
  omega

theorem accountArgs_some {p : List Byte} {i : AccountId} (hindex : arg p 0 1 = i.val) (hgood : ¬AccountOutOfRange p) :
    accountArgs p = some (requestedAccount p i) := by
  unfold AccountOutOfRange at hgood
  rw [accountArgs_of_codes hindex (by omega) (by omega), if_pos (by omega)]

/-! ## The checks against the table (R129, checks 3 and 4) -/

/-- Another enabled entry has the token that an ACCOUNT would give to the enabled entry i (check 3). -/
def TokenTaken (p : List Byte) (i : AccountId) (s : State) : Prop :=
  arg p 5 1 = 1 ∧ ∃ j, j ≠ i ∧ (s.account j).enabled = true ∧ (s.account j).token = arg p 1 4

/-- An ACCOUNT would change the token of a held entry, or take max_holders below its holders (check 4). -/
def EntryInUse (p : List Byte) (old : Account) : Prop :=
  (0 < old.holders ∧ arg p 1 4 ≠ old.token) ∨ arg p 12 1 < old.holders

theorem tokenTaken_iff (p : List Byte) (i : AccountId) (s : State) :
    s.tokenTaken (requestedAccount p i) = true ↔ TokenTaken p i s := by
  simp [State.tokenTaken, requestedAccount, TokenTaken, indices, and_assoc]

theorem accountInUse_iff (p : List Byte) (i : AccountId) (old : Account) :
    accountInUse (requestedAccount p i) old = true ↔ EntryInUse p old := by
  simp [accountInUse, requestedAccount, EntryInUse]

/-! ## The reply and the entry -/

theorem accountAct_badLength {p : List Byte} (s : State) (hlen : p.length ≠ 13) :
    accountAct p s = refuse .badRequest s := if_pos hlen

theorem accountAct_outOfRange {p : List Byte} (s : State) (hlen : p.length = 13) (hbad : AccountOutOfRange p) :
    accountAct p s = refuse .outOfRange s := by
  simp [accountAct, hlen, accountArgs_none hbad]

theorem accountAct_duplicate {p : List Byte} {i : AccountId} {s : State} (hlen : p.length = 13)
    (hindex : arg p 0 1 = i.val) (hgood : ¬AccountOutOfRange p) (htaken : TokenTaken p i s) :
    accountAct p s = refuse .duplicate s := by
  simp [accountAct, hlen, accountArgs_some hindex hgood, (tokenTaken_iff p i s).mpr htaken]

theorem accountAct_inUse {p : List Byte} {i : AccountId} {s : State} (hlen : p.length = 13)
    (hindex : arg p 0 1 = i.val) (hgood : ¬AccountOutOfRange p) (hfree : ¬TokenTaken p i s)
    (hused : EntryInUse p (s.account i)) : accountAct p s = refuse .inUse s := by
  have hnew : ¬s.tokenTaken (requestedAccount p i) = true := by rwa [tokenTaken_iff]
  have hheld : accountInUse (requestedAccount p i) (s.account i) = true := (accountInUse_iff p i _).mpr hused
  have hentry : (requestedAccount p i).index = i := rfl
  simp [accountAct, hlen, accountArgs_some hindex hgood, hnew, hentry, hheld]

theorem accountAct_written {p : List Byte} {i : AccountId} {s : State} (hlen : p.length = 13)
    (hindex : arg p 0 1 = i.val) (hgood : ¬AccountOutOfRange p) (hfree : ¬TokenTaken p i s)
    (hunused : ¬EntryInUse p (s.account i)) :
    accountAct p s =
      (⟨okOr (1500 < arg p 7 2), u1 i.val :: accountFields (writtenAccount (requestedAccount p i) (s.account i))⟩,
        s.setAccount i (writtenAccount (requestedAccount p i) (s.account i))) := by
  have hnew : ¬s.tokenTaken (requestedAccount p i) = true := by rwa [tokenTaken_iff]
  have hheld : ¬accountInUse (requestedAccount p i) (s.account i) = true := by rwa [accountInUse_iff]
  have hentry : (requestedAccount p i).index = i := rfl
  have hfirm : (requestedAccount p i).firmSteps = arg p 7 2 := rfl
  simp [accountAct, hlen, accountArgs_some hindex hgood, hnew, hentry, hheld, hfirm, indexedAccountFields,
    State.modAccount]

/-- The status of check 5: OK_CLAMPED exactly above the bound. -/
theorem okOr_above (bound n : Nat) : okOr (bound < n) = if n ≤ bound then .ok else .okClamped := by
  by_cases h : n ≤ bound
  · simp [okOr, h, Nat.not_lt.mpr h]
  · simp [okOr, h, Nat.lt_of_not_le h]

/-- The enabled field of a response is the one of a request in range. -/
theorem flag_decide_eq_one {n : Nat} (h : n ≤ 1) : flag (decide (n = 1)) = u1 n := by
  match n, h with
  | 0, _ => rfl
  | 1, _ => rfl

/-- The class field of a response is the one of a request in range. -/
theorem code_ite_firm {n : Nat} (h : n ≤ 1) : (if n = 0 then AccountClass.firm else .ordinary).code = n := by
  match n, h with
  | 0, _ => rfl
  | 1, _ => rfl

/-- The remaining energy of R130 in the fields of the request. -/
theorem remainingAfter_requested (p : List Byte) (i : AccountId) (old : Account) :
    remainingAfter (requestedAccount p i) old =
      if (arg p 5 1 = 1 ∧ old.enabled = false) ∨ arg p 1 4 ≠ old.token then arg p 9 2
      else min old.remainingWh (arg p 9 2) := by
  simp [remainingAfter, requestedAccount]

/-- Settles O27: each check of R129 fixes the block's reply, a refused one leaves the state but for the port, and an accepted
write puts the entry of R129 and R130 into the table and answers with it. -/
theorem accountWritten : Obligations.AccountWritten := by
  intro p f s hp h token firm allowance holders bad
  simp only [exec_account]
  refine ⟨fun hlen => serve_refused hp h (accountAct_badLength s hlen),
    fun hlen hbad => serve_refused hp h (accountAct_outOfRange s hlen hbad),
    fun i hlen hindex hgood => ⟨fun htaken => serve_refused hp h (accountAct_duplicate hlen hindex hgood htaken),
      fun hfree hused => serve_refused hp h (accountAct_inUse hlen hindex hgood hfree hused),
      fun hfree hunused => ?_⟩⟩
  have hanswer := serve_answered _ h (accountAct_written hlen hindex hgood hfree hunused) rfl hp
  have henabled : arg p 5 1 ≤ 1 := by omega
  have hclass : arg p 6 1 ≤ 1 := by omega
  rw [hanswer]
  simp only [okOr_above, accountFields, writtenAccount, remainingAfter_requested]
  simp only [requestedAccount, flag_decide_eq_one henabled, code_ite_firm hclass]
  rfl

end Sys2Proof.Machine
end

section
/-! # The band in force and the band price (R153) -/

namespace Sys2Proof.Machine

/-! ## The used bands -/

/-- The list pairs each used band with its start. -/
theorem mem_usedBands {t : TariffClock} {p : BandId × Nat} :
    p ∈ t.usedBands ↔ (t.bands[p.1.val]).start = some p.2 := by
  obtain ⟨n, m⟩ := p
  simp [TariffClock.usedBands, indices]

theorem usedBands_pairwise_index (t : TariffClock) : t.usedBands.Pairwise fun p q => p.1 < q.1 := by
  refine (List.pairwise_lt_finRange 4).filterMap _ fun i j hij p hp q hq => ?_
  obtain ⟨_, _, rfl⟩ := Option.map_eq_some_iff.mp hp
  obtain ⟨_, _, rfl⟩ := Option.map_eq_some_iff.mp hq
  exact hij

/-! ## The order of R153 and its first element -/

/-- R153 takes p before q, or they are one: p starts later, or at the same minute with an index no higher. -/
def BandPrecedes (p q : BandId × Nat) : Prop := q.2 < p.2 ∨ (q.2 = p.2 ∧ p.1 ≤ q.1)

theorem BandPrecedes.refl (p : BandId × Nat) : BandPrecedes p p := .inr ⟨rfl, le_refl _⟩

theorem BandPrecedes.trans {p q r : BandId × Nat} (hpq : BandPrecedes p q) (hqr : BandPrecedes q r) : BandPrecedes p r := by
  rcases hpq with hlater | ⟨hsame, hindex⟩ <;> rcases hqr with hlater' | ⟨hsame', hindex'⟩
  · exact .inl (hlater'.trans hlater)
  · exact .inl (hsame'.trans_lt hlater)
  · exact .inl (hlater'.trans_eq hsame)
  · exact .inr ⟨hsame'.trans hsame, hindex.trans hindex'⟩

/-- Of two candidates in index order `laterBand` keeps the one that R153 takes. -/
theorem bandPrecedes_laterBand {x y : BandId × Nat} (h : x.1 < y.1) :
    BandPrecedes (laterBand x y) x ∧ BandPrecedes (laterBand x y) y := by
  unfold laterBand
  split
  case isTrue hlater => exact ⟨.inl hlater, .refl y⟩
  case isFalse hnot => exact ⟨.refl x, (Nat.not_lt.mp hnot).lt_or_eq.imp_right fun hsame => ⟨hsame, h.le⟩⟩

theorem laterBand_eq_or (x y : BandId × Nat) : laterBand x y = x ∨ laterBand x y = y := by
  unfold laterBand
  split
  case isTrue => exact .inr rfl
  case isFalse => exact .inl rfl

/-- The candidate p is the one that R153 takes among ps. -/
def FirstBand (ps : List (BandId × Nat)) (p : BandId × Nat) : Prop := p ∈ ps ∧ ∀ q ∈ ps, BandPrecedes p q

theorem firstBand_foldl_laterBand {x : BandId × Nat} {xs : List (BandId × Nat)}
    (hsorted : (x :: xs).Pairwise fun p q => p.1 < q.1) : FirstBand (x :: xs) (xs.foldl laterBand x) := by
  induction xs generalizing x with
  | nil => simp [FirstBand, BandPrecedes.refl]
  | cons y ys ih =>
    obtain ⟨hx, hys⟩ := List.pairwise_cons.mp hsorted
    obtain ⟨hy, hrest⟩ := List.pairwise_cons.mp hys
    have hbelow : ∀ q ∈ ys, (laterBand x y).1 < q.1 := by
      intro q hq
      rcases laterBand_eq_or x y with h | h <;> rw [h]
      · exact hx q (List.mem_cons_of_mem y hq)
      · exact hy q hq
    obtain ⟨hmem, hfirst⟩ := ih (List.pairwise_cons.mpr ⟨hbelow, hrest⟩)
    obtain ⟨hoverX, hoverY⟩ := bandPrecedes_laterBand (hx y List.mem_cons_self)
    have hlater := hfirst _ List.mem_cons_self
    refine ⟨?_, fun q hq => ?_⟩
    · rcases List.mem_cons.mp hmem with hhead | htail
      · rw [List.foldl_cons, hhead]
        rcases laterBand_eq_or x y with h | h <;> simp [h]
      · exact List.mem_cons_of_mem x (List.mem_cons_of_mem y htail)
    · rcases List.mem_cons.mp hq with rfl | hq
      · exact hlater.trans hoverX
      rcases List.mem_cons.mp hq with rfl | hq
      · exact hlater.trans hoverY
      · exact hfirst q (List.mem_cons_of_mem _ hq)

theorem latestBand_eq_none_iff {ps : List (BandId × Nat)} : latestBand ps = none ↔ ps = [] := by
  cases ps <;> simp [latestBand]

theorem firstBand_latestBand {ps : List (BandId × Nat)} {p : BandId × Nat}
    (hsorted : ps.Pairwise fun p q => p.1 < q.1) (h : latestBand ps = some p) : FirstBand ps p := by
  cases ps with
  | nil => cases h
  | cons x xs => cases h; exact firstBand_foldl_laterBand hsorted

/-! ## The band in force -/

/-- The used bands that start at or below a minute. -/
def TariffClock.startedBands (t : TariffClock) (minute : Nat) : List (BandId × Nat) :=
  t.usedBands.filter fun p => p.2 ≤ minute

theorem mem_startedBands {t : TariffClock} {minute : Nat} {p : BandId × Nat} :
    p ∈ t.startedBands minute ↔ (t.bands[p.1.val]).start = some p.2 ∧ p.2 ≤ minute := by
  simp [TariffClock.startedBands, mem_usedBands]

theorem bandAt_of_started {t : TariffClock} {minute : Nat} {p : BandId × Nat}
    (h : latestBand (t.startedBands minute) = some p) : t.bandAt minute = some p.1 := by
  unfold TariffClock.startedBands at h
  simp only [TariffClock.bandAt, h]

/-- Before the first start of the day the choice is among all used bands. -/
theorem bandAt_of_not_started {t : TariffClock} {minute : Nat} (h : t.startedBands minute = []) :
    t.bandAt minute = (latestBand t.usedBands).map (·.1) := by
  unfold TariffClock.startedBands at h
  simp only [TariffClock.bandAt, h, latestBand]

/-- The band in force is the first of the started bands, or of all used bands when none has started. -/
theorem bandAt_eq_some {t : TariffClock} {minute : Nat} {n : BandId} (h : t.bandAt minute = some n) :
    ∃ m, FirstBand (t.startedBands minute) (n, m) ∨ (t.startedBands minute = [] ∧ FirstBand t.usedBands (n, m)) := by
  cases hstarted : latestBand (t.startedBands minute) with
  | some p =>
    rw [bandAt_of_started hstarted] at h
    cases h
    exact ⟨p.2, .inl (firstBand_latestBand ((usedBands_pairwise_index t).filter _) hstarted)⟩
  | none =>
    have hnone := latestBand_eq_none_iff.mp hstarted
    rw [bandAt_of_not_started hnone] at h
    obtain ⟨p, hp, rfl⟩ := Option.map_eq_some_iff.mp h
    exact ⟨p.2, .inr ⟨hnone, firstBand_latestBand (usedBands_pairwise_index t) hp⟩⟩

theorem usedBands_eq_nil_iff {t : TariffClock} :
    t.usedBands = [] ↔ ∀ n : BandId, (t.bands[n.val]).start = none := by
  simp only [List.eq_nil_iff_forall_not_mem, mem_usedBands, Prod.forall, Option.eq_none_iff_forall_ne_some, ne_eq]

theorem bandAt_eq_none_iff {t : TariffClock} {minute : Nat} : t.bandAt minute = none ↔ t.usedBands = [] := by
  cases hstarted : latestBand (t.startedBands minute) with
  | some p =>
    have hused : p ∈ t.usedBands :=
      List.mem_of_mem_filter (firstBand_latestBand ((usedBands_pairwise_index t).filter _) hstarted).1
    simp [bandAt_of_started hstarted, List.ne_nil_of_mem hused]
  | none =>
    rw [bandAt_of_not_started (latestBand_eq_none_iff.mp hstarted), Option.map_eq_none_iff, latestBand_eq_none_iff]

/-! ## The band price -/

theorem bandPrice_of_none {t : TariffClock} (h : t.bandNow = none) : t.bandPrice = 0 := by
  simp [TariffClock.bandPrice, h]

theorem bandPrice_of_some {t : TariffClock} {n : BandId} (h : t.bandNow = some n) :
    t.bandPrice = (t.bands[n.val]).price := by
  simp [TariffClock.bandPrice, h]

/-- Settles O20: `bandAt` folds the candidates in index order, so that its choice is the first of them by R153, among the
started bands when there are any and among all used bands otherwise. -/
theorem bandInForce : Obligations.BandInForce := by
  intro t minute
  refine ⟨bandAt_eq_none_iff.trans usedBands_eq_nil_iff, fun n hn => ?_,
    bandPrice_of_none, fun _ => bandPrice_of_some, rfl⟩
  obtain ⟨m, ⟨hmem, hfirst⟩ | ⟨hnone, hmem, hfirst⟩⟩ := bandAt_eq_some hn
  · obtain ⟨hstart, hle⟩ := mem_startedBands.mp hmem
    refine ⟨m, hstart, fun _ => ⟨hle, fun j i hj hi => hfirst (j, i) (mem_startedBands.mpr ⟨hj, hi⟩)⟩, fun hlate => ?_⟩
    exact absurd (hlate n m hstart) (Nat.not_lt.mpr hle)
  · refine ⟨m, mem_usedBands.mp hmem, fun ⟨j, i, hj, hi⟩ => ?_, fun _ j i hj => hfirst (j, i) (mem_usedBands.mpr hj)⟩
    have hstarted : (j, i) ∈ t.startedBands minute := mem_startedBands.mpr ⟨hj, hi⟩
    exact absurd hnone (List.ne_nil_of_mem hstarted)

end Sys2Proof.Machine
end

section
/-! # The figures of a receipt (R156, R157) -/

namespace Sys2Proof.Machine

@[simp] theorem receiptOf_solarWh (k : SlotId) (x : Slot) : (receiptOf k x).solarWh = x.solar / 1000 := rfl

@[simp] theorem receiptOf_batteryWh (k : SlotId) (x : Slot) : (receiptOf k x).batteryWh = x.battery / 1000 := rfl

@[simp] theorem receiptOf_gridWh (k : SlotId) (x : Slot) :
    (receiptOf k x).gridWh = x.energyWh - x.solar / 1000 - x.battery / 1000 := rfl

@[simp] theorem receiptOf_coveredWh (k : SlotId) (x : Slot) : (receiptOf k x).coveredWh = x.covered / 1000 := rfl

@[simp] theorem receiptOf_amountDue (k : SlotId) (x : Slot) :
    (receiptOf k x).amountDue = (x.cost + 5000000) / 10000000 := rfl

/-- The floors of the solar and the battery energy fit into the session's energy, so the grid's remainder is never cut off at 0. -/
theorem receiptOf_floors_le {x : Slot} (k : SlotId) (hparts : x.solar + x.battery + x.grid = 1000 * x.energyWh) :
    (receiptOf k x).solarWh + (receiptOf k x).batteryWh ≤ x.energyWh := by
  simp only [receiptOf_solarWh, receiptOf_batteryWh]
  omega

theorem receiptOf_sources_sum {x : Slot} (k : SlotId) (hparts : x.solar + x.battery + x.grid = 1000 * x.energyWh) :
    (receiptOf k x).solarWh + (receiptOf k x).batteryWh + (receiptOf k x).gridWh = x.energyWh := by
  rw [receiptOf_gridWh, ← receiptOf_solarWh k, ← receiptOf_batteryWh k, Nat.sub_sub]
  exact Nat.add_sub_of_le (receiptOf_floors_le k hparts)

/-- R156: the parts below one Wh that the two floors drop are counted as grid energy. -/
theorem receiptOf_gridWh_mWh {x : Slot} (k : SlotId) (hparts : x.solar + x.battery + x.grid = 1000 * x.energyWh) :
    1000 * (receiptOf k x).gridWh = x.grid + x.solar % 1000 + x.battery % 1000 := by
  have hsum := receiptOf_sources_sum k hparts
  rw [receiptOf_solarWh, receiptOf_batteryWh] at hsum
  have hsolar := Nat.div_add_mod x.solar 1000
  have hbattery := Nat.div_add_mod x.battery 1000
  omega

/-- What the two floors drop is below 2 Wh, so the grid figure stays within 2 of its own floor. -/
theorem receiptOf_gridWh_bounds {x : Slot} (k : SlotId) (hparts : x.solar + x.battery + x.grid = 1000 * x.energyWh) :
    x.grid / 1000 ≤ (receiptOf k x).gridWh ∧ (receiptOf k x).gridWh ≤ x.grid / 1000 + 2 := by
  have hgrid := receiptOf_gridWh_mWh k hparts
  have hsolar : x.solar % 1000 < 1000 := Nat.mod_lt _ (by decide)
  have hbattery : x.battery % 1000 < 1000 := Nat.mod_lt _ (by decide)
  constructor <;> omega

theorem receiptOf_coveredWh_le {x : Slot} (k : SlotId) (hcovered : x.covered ≤ 1000 * x.energyWh) :
    (receiptOf k x).coveredWh ≤ x.energyWh :=
  Nat.div_le_of_le_mul hcovered

/-- Settles O53: the figures are those of `receiptOf`, whose grid figure takes the remainder that the two floors leave. -/
theorem receiptFigures : Obligations.ReceiptFigures := by
  intro k x
  exact ⟨receiptOf_solarWh k x, receiptOf_batteryWh k x, receiptOf_coveredWh k x,
    fun hparts => ⟨receiptOf_sources_sum k hparts, receiptOf_gridWh_bounds k hparts⟩,
    receiptOf_coveredWh_le k, receiptOf_amountDue k x⟩

end Sys2Proof.Machine
end

section
/-! # A write transaction by port state (R168) -/

namespace Sys2Proof.Machine

theorem exec_hostWriteTransaction (bytes : List Byte) (s : State) :
    exec (.hostWriteTransaction bytes) s = execHostWriteTransaction bytes s := rfl

/-- In IDLE the frame is stored and the port goes to PROCESSING. -/
theorem execHostWriteTransaction_idle {bytes : List Byte} {s : State} (hbytes : bytes ≠ []) (hport : s.hp.port = .idle) :
    execHostWriteTransaction bytes s = done (s.setPort (.processing bytes)) := by
  simp only [execHostWriteTransaction, hbytes, hport, if_false]

/-- In the two other port states the request is dropped and counted. -/
theorem execHostWriteTransaction_dropped {bytes : List Byte} {s : State} (hbytes : bytes ≠ []) (hport : s.hp.port ≠ .idle) :
    execHostWriteTransaction bytes s = done { s with hp.dropped := min 255 (s.hp.dropped + 1) } := by
  cases hstate : s.hp.port with
  | idle => exact absurd hstate hport
  | processing _ => simp only [execHostWriteTransaction, hbytes, hstate, if_false]
  | responseWaiting _ => simp only [execHostWriteTransaction, hbytes, hstate, if_false]

theorem rdy_iff (s : State) : s.rdy = true ↔ ∃ r, s.hp.port = .responseWaiting r := by
  cases hstate : s.hp.port <;> simp [State.rdy, hstate]

/-- Settles O5: the port state decides between the store and the drop, neither of which begins a pass, and RESET gives the port
its reset value from every port state. -/
theorem writeTransactionByPortState : Obligations.WriteTransactionByPortState := by
  refine ⟨fun bytes s hbytes hp hport => ?_, fun bytes s hbytes hp hport => ?_, rdy_iff, rfl, rfl, rfl,
    fun s => ⟨_, rfl, rfl, rfl⟩⟩
  · rw [exec_hostWriteTransaction, execHostWriteTransaction_idle hbytes hport]
    exact done_of_sampled (s := s.setPort _) hp
  · rw [exec_hostWriteTransaction, execHostWriteTransaction_dropped hbytes hport]
    exact done_of_sampled (s := { s with hp.dropped := _ }) hp

end Sys2Proof.Machine
end

section
/-! # ATTN under every step (R178)

`AttnInv` rests on ATTN, the notices and the gate alone. An operation either leaves these three, or it ends in an evaluation of
ATTN; and the small edits of `Edit` are of these two sorts. So each operation keeps `AttnInv`, and each command does. -/

namespace Sys2Proof.Machine

/-! ## The two ways in which ATTN agrees with its condition -/

theorem attnInv_iff (s : State) : AttnInv s ↔ s.hp.attn = s.attnDue := by
  rw [Bool.eq_iff_iff, attnDue_iff, AttnInv]

/-- What leaves ATTN, the notices and the gate keeps the invariant. -/
theorem AttnInv.frame {s t : State} (h : AttnInv s) (hattn : t.hp.attn = s.hp.attn)
    (hnotices : t.hp.notices = s.hp.notices) (hgate : t.sc.gate = s.sc.gate) : AttnInv t := by
  simp only [AttnInv, State.notice, hattn, hnotices, hgate]
  exact h

/-- An evaluation of ATTN gives the invariant, whatever stood before. -/
theorem attnInv_evalAttn (s : State) : AttnInv (evalAttn s) := (attnInv_iff _).mpr rfl

theorem attnInv_countNotice (k : NoticeKind) (a key : Nat) (s : State) : AttnInv (countNotice k a key s) :=
  attnInv_evalAttn _

/-- While the gate is CLOSED the invariant is that ATTN is deasserted. -/
theorem attnInv_of_closed {s : State} (hattn : s.hp.attn = false) (hgate : s.sc.gate = .closed) : AttnInv s := by
  simp [AttnInv, hattn, hgate]

theorem AttnInv.requestPass {s : State} (h : AttnInv s) : AttnInv (requestPass s) :=
  h.frame (by rw [requestPass_hp]) (by rw [requestPass_hp]) (by rw [requestPass_sc])

theorem AttnInv.requestPassIf {s : State} (h : AttnInv s) (c : Bool) : AttnInv (requestPassIf c s) :=
  h.frame (by rw [requestPassIf_hp]) (by rw [requestPassIf_hp]) (by rw [requestPassIf_sc])

theorem Edit.attnInv {s t : State} (e : Edit s t) (h : AttnInv s) : AttnInv t := by
  cases e with
  | notice k a key => exact attnInv_countNotice k a key s
  | pass => exact h.requestPass
  | bay | slot | counters | queue | credits | account => exact h.frame rfl rfl rfl

/-- A chain of small edits keeps the invariant. -/
theorem Edits.attnInv {s t : State} (e : Edits s t) (h : AttnInv s) : AttnInv t := by
  induction e with
  | refl => exact h
  | tail _ e ih => exact e.attnInv ih

theorem attnInv_foldl {α : Type} {f : State → α → State} (hf : ∀ t a, AttnInv t → AttnInv (f t a)) (l : List α) {s : State}
    (h : AttnInv s) : AttnInv (l.foldl f s) := by
  induction l generalizing s with
  | nil => exact h
  | cons a l ih => exact ih (hf s a h)

/-! ## The lines (R12 to R17) -/

theorem AttnInv.grantReserve {s : State} (h : AttnInv s) : AttnInv (grantReserve s) := by
  unfold Machine.grantReserve
  split
  · exact h.frame rfl rfl rfl
  · exact h

theorem attnInv_shedChanged (s : State) : AttnInv (shedChanged s) := attnInv_countNotice _ _ _ _

theorem attnInv_rsvReqChanged (s : State) : AttnInv (rsvReqChanged s) := by
  unfold rsvReqChanged
  split
  · exact attnInv_countNotice _ _ _ _
  · exact attnInv_countNotice _ _ _ _

theorem AttnInv.takeShedLevel {s : State} (h : AttnInv s) : AttnInv (takeShedLevel s) := by
  unfold Machine.takeShedLevel
  dsimp only
  split
  · exact h.frame rfl rfl rfl
  · exact attnInv_shedChanged _

theorem AttnInv.takeRsvReqLevel {s : State} (h : AttnInv s) : AttnInv (takeRsvReqLevel s) := by
  unfold Machine.takeRsvReqLevel
  dsimp only
  split
  · exact h.frame rfl rfl rfl
  · exact attnInv_rsvReqChanged _

theorem AttnInv.reevaluateRsvReq {s : State} (h : AttnInv s) (was : Bool) : AttnInv (reevaluateRsvReq was s) := by
  unfold Machine.reevaluateRsvReq
  split
  · exact attnInv_rsvReqChanged s
  · exact h

theorem AttnInv.applyLines {s : State} (h : AttnInv s) (new : LineSettings) : AttnInv (applyLines new s) := by
  have hset : AttnInv { s with sc.lines := new } := h.frame rfl rfl rfl
  have hshed : ∀ {t}, AttnInv t → AttnInv (reevaluateShed s.shedActive s.sc.lines.scope t) :=
    (reevaluateShed_edits _ _ _).attnInv
  unfold Machine.applyLines
  dsimp only
  split
  · refine attnInv_foldl (fun t l ht => ?_) _ hset
    cases l with
    | shed => exact hshed ht
    | rsvReq => exact ht.reevaluateRsvReq _
  · exact (hshed hset).reevaluateRsvReq _

/-! ## Bay reports and the exchange (R23 to R38) -/

theorem attnInv_countLink (e : Entry) (s : State) : AttnInv (countLink e s) := (attnInv_countNotice _ _ _ s).requestPass

theorem AttnInv.handLoss {s : State} (h : AttnInv s) (e : Entry) : AttnInv (handLoss e s) := by
  unfold Machine.handLoss
  cases roleOf e with
  | bay b => exact (linkLossBay_edits b s).attnInv h
  | battery => exact h.grantReserve
  | canopy _ => exact h
  | meter => exact h

theorem AttnInv.handReturn {s : State} (h : AttnInv s) (e : Entry) : AttnInv (handReturn e s) := by
  unfold Machine.handReturn
  cases roleOf e with
  | bay b => exact (linkReturnBay_edits b s).attnInv h
  | battery => exact h
  | canopy _ => exact h
  | meter => exact h

theorem AttnInv.takeMiss {s : State} (h : AttnInv s) (e : Entry) (kind : MissKind) : AttnInv (takeMiss e kind s) := by
  unfold Machine.takeMiss
  dsimp only
  split
  · exact (attnInv_countLink e _).handLoss e
  · exact h.frame rfl rfl rfl

theorem AttnInv.takeGood {s : State} (h : AttnInv s) (e : Entry) : AttnInv (takeGood e s) := by
  unfold Machine.takeGood
  dsimp only
  split
  · exact (attnInv_countLink e _).handReturn e
  · exact h.frame rfl rfl rfl

theorem AttnInv.takeBlockedOutput {s : State} (h : AttnInv s) (b : BayId) (r : BayReport) :
    AttnInv (takeBlockedOutput b r s) := by
  have houtput : AttnInv (s.modBay b fun y => { y with output := r.output }) := h.frame rfl rfl rfl
  unfold Machine.takeBlockedOutput
  dsimp only
  split
  · exact houtput
  · exact (writeGrantAck_edits b 0 _).attnInv houtput

theorem AttnInv.takeMismatch {s : State} (h : AttnInv s) (b : BayId) : AttnInv (takeMismatch b s) := by
  unfold Machine.takeMismatch
  dsimp only
  split
  · exact h.frame rfl rfl rfl
  · exact attnInv_countNotice _ _ _ _

theorem AttnInv.handToBay {s : State} (h : AttnInv s) (b : BayId) (r : BayReport) : AttnInv (handToBay b r s) :=
  (takeBayReport_edits b r _ _).attnInv (h.frame rfl rfl rfl)

theorem AttnInv.takeGoodBay {s : State} (h : AttnInv s) (b : BayId) (r : BayReport) : AttnInv (takeGoodBay b r s) := by
  unfold Machine.takeGoodBay
  dsimp only
  split
  · exact h.takeBlockedOutput b r
  · split
    · refine AttnInv.handToBay ?_ b r
      split <;> exact h.frame rfl rfl rfl
    · exact (h.takeMismatch b).takeBlockedOutput b r

theorem AttnInv.takeCanopy {s : State} (h : AttnInv s) (k : InverterId) (power : Nat) : AttnInv (takeCanopy k power s) := by
  refine AttnInv.requestPassIf ?_ _
  exact h.frame rfl rfl rfl

theorem AttnInv.takeBattery {s : State} (h : AttnInv s) (soe : Nat) (applied : Int) :
    AttnInv (takeBattery soe applied s) := by
  have hkept : AttnInv { s with
      al.battery := { s.al.battery with soe := min soe s.sc.eCap, applied := applied }
      al.permit := nextPermit (min soe s.sc.eCap) s.sc.eFloor s.sc.eCap s.al.permit } := h.frame rfl rfl rfl
  unfold Machine.takeBattery
  dsimp only
  split
  · exact (hkept.requestPassIf _).grantReserve
  · exact hkept.requestPassIf _

theorem AttnInv.takeStoreLoad {s : State} (h : AttnInv s) (load : Nat) : AttnInv (takeStoreLoad load s) := by
  refine AttnInv.requestPassIf ?_ _
  exact h.frame rfl rfl rfl

theorem AttnInv.takeReport {s : State} (h : AttnInv s) (e : Entry) (r : Report) : AttnInv (takeReport e r s) := by
  have hgood := h.takeGood e
  unfold Machine.takeReport
  dsimp only
  split
  · exact hgood.takeGoodBay _ _
  · exact hgood.takeCanopy _ _
  · exact hgood.takeBattery _ _
  · exact hgood.takeStoreLoad _
  · exact hgood

theorem AttnInv.concludeExchange {s : State} (h : AttnInv s) (p : Poll) (chars : List RxChar) :
    AttnInv (concludeExchange p chars s) := by
  have hend : AttnInv (endExchange s) := h.frame rfl rfl rfl
  unfold Machine.concludeExchange
  dsimp only
  split
  · exact hend
  · split
    · exact hend.takeReport _ _
    · exact hend.takeMiss _ _

theorem AttnInv.recordSent {s : State} (h : AttnInv s) (p : Poll) : AttnInv (recordSent p s) := by
  unfold Machine.recordSent
  split
  · exact h
  · exact h.frame rfl rfl rfl

/-- After a poll's transmission: the response is awaited and the value recorded (R23, R26). -/
theorem AttnInv.pollSent {s : State} (h : AttnInv s) (p : Poll) : AttnInv (Machine.recordSent p (awaitResponse p s)) := by
  refine AttnInv.recordSent ?_ p
  exact h.frame rfl rfl rfl

/-! ## The end of a pass (R84 to R90) -/

theorem AttnInv.finishPass {s : State} (h : AttnInv s) : AttnInv (finishPass s) := by
  unfold Machine.finishPass
  split
  · exact h.frame rfl rfl rfl
  · exact h.frame rfl rfl rfl

theorem AttnInv.endPass {s : State} (h : AttnInv s) (n : Snapshot) : AttnInv (endPass n s) := by
  have hwritten := (((writeAllGrants_edits n.compute.claims s).trans (writeSessionStates_edits n.compute.claims _)).trans
    (countHeld_edits n.compute.held _)).attnInv h
  exact AttnInv.finishPass (hwritten.frame (by rw [writeResults_hp]) (by rw [writeResults_hp]) (by rw [writeResults_sc]))

/-! ## The configuration requests (R2 to R13) -/

/-- The opening of the gate evaluates ATTN (R9, R11). -/
theorem AttnInv.openGateIfMarked {s : State} (h : AttnInv s) : AttnInv (openGateIfMarked s) := by
  unfold Machine.openGateIfMarked
  split
  · exact attnInv_evalAttn _
  · exact h

theorem AttnInv.siteLimitsAct {s : State} (h : AttnInv s) (p : List Byte) : AttnInv (siteLimitsAct p s).2 := by
  unfold Machine.siteLimitsAct
  split
  · exact h
  · split
    · exact h
    · exact AttnInv.requestPass (AttnInv.openGateIfMarked (h.frame rfl rfl rfl))

theorem AttnInv.fallbackLoadAct {s : State} (h : AttnInv s) (p : List Byte) : AttnInv (fallbackLoadAct p s).2 := by
  unfold Machine.fallbackLoadAct
  split
  · exact h
  · split
    · exact h
    · dsimp only
      split <;> exact h.frame rfl rfl rfl

theorem AttnInv.batteryAct {s : State} (h : AttnInv s) (p : List Byte) : AttnInv (batteryAct p s).2 := by
  unfold Machine.batteryAct
  split
  · exact h
  · split
    · exact h
    · exact AttnInv.requestPass (h.frame rfl rfl rfl)

theorem AttnInv.layoutAct {s : State} (h : AttnInv s) (p : List Byte) : AttnInv (layoutAct p s).2 := by
  unfold Machine.layoutAct
  split
  · exact h
  · split
    · exact h
    · dsimp only
      split
      · exact h
      · split
        · exact h
        · exact AttnInv.openGateIfMarked (h.frame rfl rfl rfl)

theorem AttnInv.timingAct {s : State} (h : AttnInv s) (p : List Byte) : AttnInv (timingAct p s).2 := by
  unfold Machine.timingAct
  split
  · exact h
  · split
    · exact h
    · split
      · exact h
      · exact h.frame rfl rfl rfl

theorem AttnInv.linesAct {s : State} (h : AttnInv s) (p : List Byte) : AttnInv (linesAct p s).2 := by
  unfold Machine.linesAct
  split
  · exact h
  · split
    · exact h
    · split
      · exact h
      · exact h.applyLines _

/-! ## The declarations (R19 to R22, R38) and CLEAR BAY FAULT (R99) -/

theorem AttnInv.joinPollList {s : State} (h : AttnInv s) (e : Entry) : AttnInv (joinPollList e s) := by
  unfold Machine.joinPollList
  split
  · exact h.frame rfl rfl rfl
  · exact h

theorem AttnInv.clearDevice {s : State} (h : AttnInv s) (e : Entry) : AttnInv (clearDevice e s) := by
  unfold Machine.clearDevice
  dsimp only
  split <;> exact h.frame rfl rfl rfl

theorem AttnInv.declareBayAt {s : State} (h : AttnInv s) (b : BayId) (kind : BayKind) (maximum width : Nat) :
    AttnInv (declareBayAt b kind maximum width s) := by
  have hlisted : AttnInv (if (s.device (Role.bay b).entry).declared then s else
      Machine.joinPollList (Role.bay b).entry s) := by
    split
    · exact h
    · exact h.joinPollList _
  exact hlisted.frame rfl rfl rfl

theorem AttnInv.removeBayAt {s : State} (h : AttnInv s) (b : BayId) : AttnInv (removeBayAt b s) := by
  unfold Machine.removeBayAt
  split
  · exact (h.clearDevice (Role.bay b).entry).frame rfl rfl rfl
  · exact h

theorem AttnInv.declareBayAct {s : State} (h : AttnInv s) (p : List Byte) : AttnInv (declareBayAct p s).2 := by
  unfold Machine.declareBayAct
  split
  · exact h
  · split
    · exact h
    · split
      · exact h
      · split
        · exact h
        · exact h.removeBayAt _
      · split
        · exact h
        · split
          · exact h
          · exact h.declareBayAt _ _ _ _

theorem AttnInv.clearSource {s : State} (h : AttnInv s) (r : Role) : AttnInv (clearSource r s) := by
  cases r with
  | bay _ => exact h
  | canopy _ => exact h.frame rfl rfl rfl
  | battery => exact h.frame rfl rfl rfl
  | meter => exact h.frame rfl rfl rfl

theorem AttnInv.startSource {s : State} (h : AttnInv s) (r : Role) : AttnInv (startSource r s) := by
  refine AttnInv.joinPollList (AttnInv.clearSource ?_ r) _
  exact h.frame rfl rfl rfl

theorem AttnInv.declareBattery {s : State} (h : AttnInv s) (was : Bool) : AttnInv (declareBattery was s) := by
  unfold Machine.declareBattery
  split
  · exact h
  · exact h.frame rfl rfl rfl

theorem AttnInv.declareSourceAt {s : State} (h : AttnInv s) (r : Role) (rating : Nat) :
    AttnInv (declareSourceAt r rating s) := by
  have hstarted : AttnInv (if (s.device r.entry).declared then s else Machine.startSource r s) := by
    split
    · exact h
    · exact h.startSource r
  have hdeclared := hstarted.frame (t := State.modDevice _ r.entry fun d => { d with declared := true }) rfl rfl rfl
  unfold Machine.declareSourceAt
  refine AttnInv.requestPass ?_
  cases r with
  | bay _ => exact hdeclared
  | canopy _ => exact hdeclared.frame rfl rfl rfl
  | battery => exact hdeclared.declareBattery _
  | meter => exact hdeclared

theorem AttnInv.removeSourceAt {s : State} (h : AttnInv s) (r : Role) : AttnInv (removeSourceAt r s) := by
  have hcleared := (h.clearDevice r.entry).clearSource r
  unfold Machine.removeSourceAt
  split
  · refine AttnInv.requestPass ?_
    split
    · exact hcleared.grantReserve
    · exact hcleared
  · exact h

theorem AttnInv.declareSourceAct {s : State} (h : AttnInv s) (p : List Byte) : AttnInv (declareSourceAct p s).2 := by
  unfold Machine.declareSourceAct
  split
  · exact h
  · split
    · exact h
    · split
      · exact h
      · split
        · exact h.declareSourceAt _ _
        · split
          · exact h.removeSourceAt _
          · exact h

theorem AttnInv.clearFaultAt {s : State} (h : AttnInv s) (b : BayId) : AttnInv (clearFaultAt b s) :=
  ((writeGrants_edits b 0 0 s).attnInv h).frame rfl rfl rfl

theorem AttnInv.clearBayFaultAct {s : State} (h : AttnInv s) (p : List Byte) : AttnInv (clearBayFaultAct p s).2 := by
  unfold Machine.clearBayFaultAct
  split
  · exact h
  · split
    · exact h
    · split
      · exact h
      · split
        · exact h
        · exact h.clearFaultAt _

theorem AttnInv.readBayAct {s : State} (h : AttnInv s) (p : List Byte) : AttnInv (readBayAct p s).2 := by
  unfold Machine.readBayAct
  split
  · exact h
  · split <;> exact h

theorem AttnInv.readAct {s : State} (h : AttnInv s) (length : Nat) (p : List Byte) (fields : State → List Field) :
    AttnInv (readAct length p fields s).2 := by
  unfold Machine.readAct
  split <;> exact h

/-! ## The tariff clock (R149 to R154) and the block size (R132) -/

theorem AttnInv.setClock {s : State} (h : AttnInv s) (day second : Nat) : AttnInv (setClock day second s) := by
  unfold Machine.setClock
  dsimp only
  split <;> exact h.frame rfl rfl rfl

theorem AttnInv.clockAct {s : State} (h : AttnInv s) (p : List Byte) : AttnInv (clockAct p s).2 := by
  unfold Machine.clockAct
  split
  · exact h
  · split
    · exact h
    · split
      · exact h
      · exact h.setClock _ _

theorem AttnInv.tariffAct {s : State} (h : AttnInv s) (p : List Byte) : AttnInv (tariffAct p s).2 := by
  unfold Machine.tariffAct
  split
  · exact h
  · split
    · exact h
    · split
      · exact h
      · exact h.frame rfl rfl rfl

theorem AttnInv.blockSizeAct {s : State} (h : AttnInv s) (p : List Byte) : AttnInv (blockSizeAct p s).2 := by
  unfold Machine.blockSizeAct
  split
  · exact h
  · split
    · exact h
    · split
      · exact h
      · exact h.frame rfl rfl rfl

/-! ## Credits and accounts (chapters 6 and 7) -/

theorem AttnInv.attachIssued {s : State} (h : AttnInv s) (key : Nat) (bay : Option Nat) :
    AttnInv (attachIssued key bay s) := by
  unfold Machine.attachIssued
  split
  · exact h
  · split
    · split
      · exact (attach_edits key _ _ s).attnInv h
      · exact h
    · exact h

theorem AttnInv.issueCredit {s : State} (h : AttnInv s) (a : IssueArgs) : AttnInv (issueCredit a s) := by
  refine AttnInv.attachIssued ?_ _ _
  exact h.frame rfl rfl rfl

theorem AttnInv.issueCreditAct {s : State} (h : AttnInv s) (p : List Byte) : AttnInv (issueCreditAct p s).2 := by
  unfold Machine.issueCreditAct
  dsimp only
  split
  · exact h
  · split
    · exact h
    · split
      · exact h
      · split
        · exact attnInv_countNotice _ _ _ s
        · exact h.issueCredit _

theorem AttnInv.declineAct {s : State} (h : AttnInv s) (p : List Byte) : AttnInv (declineAct p s).2 := by
  unfold Machine.declineAct
  split
  · exact h
  · split
    · exact h
    · split
      · exact h.frame rfl rfl rfl
      · exact h

theorem AttnInv.voidCreditAct {s : State} (h : AttnInv s) (p : List Byte) : AttnInv (voidCreditAct p s).2 := by
  unfold Machine.voidCreditAct
  dsimp only
  split
  · exact h
  · split
    · exact h
    · split
      · exact h
      · split <;> exact h.frame rfl rfl rfl

theorem AttnInv.queryCreditAct {s : State} (h : AttnInv s) (p : List Byte) : AttnInv (queryCreditAct p s).2 := by
  unfold Machine.queryCreditAct
  split
  · exact h
  · split <;> exact h

theorem AttnInv.accountAct {s : State} (h : AttnInv s) (p : List Byte) : AttnInv (accountAct p s).2 := by
  unfold Machine.accountAct
  split
  · exact h
  · split
    · exact h
    · split
      · exact h
      · split
        · exact h
        · exact h.frame rfl rfl rfl

theorem AttnInv.readAccountAct {s : State} (h : AttnInv s) (p : List Byte) : AttnInv (readAccountAct p s).2 := by
  unfold Machine.readAccountAct
  split
  · exact h
  · split <;> exact h

/-! ## The notices (R176, R177) -/

theorem AttnInv.ackNoticeAct {s : State} (h : AttnInv s) (p : List Byte) : AttnInv (ackNoticeAct p s).2 := by
  unfold Machine.ackNoticeAct
  split
  · exact h
  · split
    · exact h
    · exact attnInv_evalAttn _

theorem AttnInv.noticeMaskAct {s : State} (h : AttnInv s) (p : List Byte) : AttnInv (noticeMaskAct p s).2 := by
  unfold Machine.noticeMaskAct
  split
  · exact h
  · split
    · exact h
    · exact attnInv_evalAttn _

/-! ## The outcome of a command -/

/-- The state that an outcome answers has ATTN under its condition. -/
def AttnAfter (o : Outcome) : Prop := ∀ t, o = .next t → AttnInv t

theorem AttnInv.next {s : State} (h : AttnInv s) : AttnAfter (.next s) := by
  rintro t ⟨⟩
  exact h

theorem AttnInv.done {s : State} (h : AttnInv s) : AttnAfter (done s) := by
  rw [done_eq]
  exact AttnInv.next (h.frame (by rw [completed_hp]) (by rw [completed_hp]) (by rw [completed_sc]))

theorem AttnAfter.ite {c : Prop} [Decidable c] {o o' : Outcome} (h : AttnAfter o) (h' : AttnAfter o') :
    AttnAfter (if c then o else o') := by
  split <;> assumption

/-- A request row keeps the invariant when its block does: the answer writes the port alone. -/
theorem AttnInv.serve {s : State} (h : AttnInv s) (i : Instr) {act : State → Reply × State} (hact : AttnInv (act s).2) :
    AttnAfter (serve i act s) := by
  unfold Machine.serve
  split
  · exact .ite (AttnInv.done (hact.frame rfl rfl rfl)) h.next
  · exact h.next
  · exact h.next

/-- A request that names one slot keeps the invariant when its act is a chain of small edits. -/
theorem AttnInv.withSlot {s : State} (h : AttnInv s) (p : List Byte) {act : SlotId → State → Reply × State}
    (hact : ∀ k t, Edits t (act k t).2) : AttnInv (withSlot p act s).2 :=
  (withSlot_edits p act hact s).attnInv h

/-- So does a session command, which is refused while the gate is CLOSED. -/
theorem AttnInv.whenOpen {s : State} (h : AttnInv s) {act : State → Reply × State} (hact : ∀ t, Edits t (act t).2) :
    AttnInv (whenOpen act s).2 :=
  (whenOpen_edits act hact s).attnInv h

theorem AttnInv.execHostWriteTransaction {s : State} (h : AttnInv s) (bytes : List Byte) :
    AttnAfter (execHostWriteTransaction bytes s) := by
  unfold Machine.execHostWriteTransaction
  split
  · exact h.next
  · split <;> exact AttnInv.done (h.frame rfl rfl rfl)

theorem AttnInv.execLinePinChange {s : State} (h : AttnInv s) (line : Line) (level : Level) :
    AttnAfter (execLinePinChange line level s) := by
  cases line with
  | shed => exact AttnInv.done (h.frame rfl rfl rfl)
  | rsvReq => exact AttnInv.done (h.frame rfl rfl rfl)

theorem AttnInv.execLineQualified {s : State} (h : AttnInv s) (line : Line) : AttnAfter (execLineQualified line s) := by
  cases line with
  | shed => exact .ite h.takeShedLevel.done h.next
  | rsvReq => exact .ite h.takeRsvReqLevel.done h.next

theorem AttnInv.execBayPoll {s : State} (h : AttnInv s) : AttnAfter (execBayPoll s) := by
  unfold Machine.execBayPoll
  split
  · exact AttnInv.done (h.frame rfl rfl rfl)
  · exact h.next

theorem AttnInv.execSourcePoll {s : State} (h : AttnInv s) : AttnAfter (execSourcePoll s) := by
  have hsent : ∀ e, AttnAfter (Machine.done (sendSourcePoll e s)) := fun _ => AttnInv.done (h.frame rfl rfl rfl)
  unfold Machine.execSourcePoll
  split
  · split
    · exact h.next
    · exact hsent _
    · exact hsent _
    · exact hsent _
  · exact h.next

theorem AttnInv.execBayPollSent {s : State} (h : AttnInv s) : AttnAfter (execBayPollSent s) := by
  unfold Machine.execBayPollSent
  split
  next p _ =>
    have hsent := h.pollSent p
    split
    · refine AttnInv.done ?_
      split
      · exact hsent
      · exact hsent.frame rfl rfl rfl
    · exact h.next
    · exact h.next
    · exact h.next
  · exact h.next
  · exact h.next

theorem AttnInv.execSourcePollSent {s : State} (h : AttnInv s) : AttnAfter (execSourcePollSent s) := by
  unfold Machine.execSourcePollSent
  split
  next p _ =>
    split
    · exact h.next
    · exact (h.pollSent p).done
    · exact (h.pollSent p).done
    · exact (h.pollSent p).done
  · exact h.next
  · exact h.next

theorem AttnInv.execResponseTimeout {s : State} (h : AttnInv s) : AttnAfter (execResponseTimeout s) := by
  have hend : AttnInv (endExchange s) := h.frame rfl rfl rfl
  unfold Machine.execResponseTimeout
  split
  · refine .ite (AttnInv.done ?_) h.next
    split
    · exact hend
    · exact hend.takeMiss _ _
  · exact h.next
  · exact h.next

theorem AttnInv.execResponseReceived {s : State} (h : AttnInv s) (chars : List RxChar) :
    AttnAfter (execResponseReceived chars s) := by
  unfold Machine.execResponseReceived
  split
  · exact (h.concludeExchange _ chars).done
  · exact h.next
  · exact h.next

theorem AttnInv.execPassEnd {s : State} (h : AttnInv s) : AttnAfter (execPassEnd s) := by
  unfold Machine.execPassEnd
  split
  · exact (h.endPass _).done
  · exact h.next

/-! ## Every command and every step -/

theorem attnAfter_reset (s : State) : AttnAfter (execReset s) := AttnInv.next (attnInv_of_closed rfl rfl)

/-- Every command keeps ATTN under its condition. -/
theorem AttnInv.exec {s : State} (h : AttnInv s) (i : Instr) : AttnAfter (exec i s) := by
  cases i with
  | reset => exact attnAfter_reset s
  | hostWriteTransaction bytes => exact h.execHostWriteTransaction bytes
  | hostReadTransaction count => exact .ite h.next (AttnInv.done (h.frame rfl rfl rfl))
  | siteLimits p => exact h.serve _ (h.siteLimitsAct p)
  | fallbackLoad p => exact h.serve _ (h.fallbackLoadAct p)
  | battery p => exact h.serve _ (h.batteryAct p)
  | layout p => exact h.serve _ (h.layoutAct p)
  | timing p => exact h.serve _ (h.timingAct p)
  | lines p => exact h.serve _ (h.linesAct p)
  | declareBay p => exact h.serve _ (h.declareBayAct p)
  | removeBay p => exact h.serve _ (h.declareBayAct p)
  | declareSource p => exact h.serve _ (h.declareSourceAct p)
  | removeSource p => exact h.serve _ (h.declareSourceAct p)
  | clock p => exact h.serve _ (h.clockAct p)
  | tariff p => exact h.serve _ (h.tariffAct p)
  | blockSize p => exact h.serve _ (h.blockSizeAct p)
  | issueCredit p => exact h.serve _ (h.issueCreditAct p)
  | decline p => exact h.serve _ (h.declineAct p)
  | voidCredit p => exact h.serve _ (h.voidCreditAct p)
  | queryCredit p => exact h.serve _ (h.queryCreditAct p)
  | queryPendingList p => exact h.serve _ (h.readAct 4 p _)
  | account p => exact h.serve _ (h.accountAct p)
  | readAccount p => exact h.serve _ (h.readAccountAct p)
  | listSessions p => exact h.serve _ (h.readAct 0 p _)
  | readSession p => exact h.serve _ (h.withSlot p fun _ t => Edits.refl t)
  | takeReceipt p => exact h.serve _ (h.withSlot p takeReceiptAt_edits)
  | stop p => exact h.serve _ (h.whenOpen (withSlot_edits p _ stopAt_edits))
  | suspend p => exact h.serve _ (h.whenOpen (withSlot_edits p _ suspendAt_edits))
  | resume p => exact h.serve _ (h.whenOpen (withSlot_edits p _ resumeAt_edits))
  | resumeAll p => exact h.serve _ (h.whenOpen resumeAllAct_edits)
  | clearSite p => exact h.serve _ (h.whenOpen (clearSiteAct_edits p))
  | readBay p => exact h.serve _ (h.readBayAct p)
  | clearBayFault p => exact h.serve _ (h.clearBayFaultAct p)
  | readSite p => exact h.serve _ (h.readAct 0 p _)
  | readNotices p => exact h.serve _ (h.readAct 0 p _)
  | ackNotice p => exact h.serve _ (h.ackNoticeAct p)
  | noticeMask p => exact h.serve _ (h.noticeMaskAct p)
  | linePinChange line level => exact h.execLinePinChange line level
  | lineQualified line => exact h.execLineQualified line
  | bayPoll => exact h.execBayPoll
  | sourcePoll => exact h.execSourcePoll
  | bayPollSent => exact h.execBayPollSent
  | sourcePollSent => exact h.execSourcePollSent
  | responseTimeout => exact h.execResponseTimeout
  | responseReceived chars => exact h.execResponseReceived chars
  | passEnd => exact h.execPassEnd
  | refreshTimerExpiry => exact .ite (AttnInv.done (AttnInv.requestPass (h.frame rfl rfl rfl))) h.next
  | authDeadline k => exact .ite ((endOpening_edits k _ s).attnInv h).done h.next
  | endDeadline k => exact .ite ((endUnconfirmed_edits k s).attnInv h).done h.next
  | ackDeadline b => exact .ite ((failBay_edits b s).attnInv h).done h.next
  | lostDeadline b => exact .ite ((endLinkWait_edits b s).attnInv h).done h.next
  | queryDeadline b => exact .ite (((emptyScan_edits b s).trans (setMessage_edits b _ _)).attnInv h).done h.next
  | dayRollover => exact .ite (AttnInv.done (h.frame rfl rfl rfl)) h.next
  | badRequestFrame bytes => exact h.serve _ h

/-- Taking a command from the queue leaves the invariant, and so does a millisecond of the run timer. -/
theorem AttnInv.step {s : State} (h : AttnInv s) : AttnAfter (step s) := by
  unfold Machine.step
  split
  · exact AttnInv.next (h.frame rfl rfl rfl)
  · refine AttnInv.exec ?_ _
    exact h.frame rfl rfl rfl

/-- Settles O56: at reset the gate is CLOSED and ATTN deasserted, and every step keeps the invariant. -/
theorem attnInvariantKept : Obligations.AttnInvariantKept :=
  ⟨rfl, fun _ t h hstep => h.step t hstep⟩

end Sys2Proof.Machine
end

section
/-! # The machine: the front command, the idle step, RESET, and the totality of exec -/

namespace Sys2Proof.Machine

/-- Settles O1: `step` takes the front of the queue apart and hands the rest on. -/
theorem stepRunsFrontCommand : Obligations.StepRunsFrontCommand := by
  intro c rest s hqueue
  simp only [step, hqueue]

/-! ## The idle step (logs 1, 2, 39) -/

theorem step_idle {s : State} (hqueue : s.pending = []) : step s = .next (tick s) := by
  simp only [step, hqueue]

theorem tick_pending (s : State) : (tick s).pending = freeOrder s.freeDraws (advance s).expiries := rfl

theorem mem_tick_pending {i : Instr} (s : State) : i ∈ (tick s).pending ↔ i ∈ (advance s).expiries := mem_freeOrder

theorem reached_iff {o : Option Nat} {now : Nat} : reached o now = true ↔ ∃ d, o = some d ∧ d ≤ now := by
  cases o <;> simp [reached]

theorem pin_qualified_iff {p : Pin} {now : Nat} : p.qualified now = true ↔ p.level ≠ p.taken ∧ p.since + 20 ≤ now := by
  rw [Pin.qualified, Bool.and_eq_true, bne_iff_ne, decide_eq_true_eq, qualifyMillis]

theorem scan_deadline_iff {x : ScanSlot} {d : Nat} : x.deadline? = some d ↔ ∃ key n, x = .pending key n d := by
  cases x <;> simp [ScanSlot.deadline?]

/-- A list of one row or of none. -/
theorem mem_ite_singleton {α : Type} {c : Prop} [Decidable c] {a i : α} : i ∈ (if c then [a] else []) ↔ i = a ∧ c := by
  split <;> simp_all

theorem nodup_ite_singleton {α : Type} (c : Prop) [Decidable c] (a : α) : (if c then [a] else []).Nodup := by
  split <;> simp

theorem mem_slotExpiries {i : Instr} {s : State} {k : SlotId} :
    i ∈ slotExpiries s k ↔
      (i = .authDeadline k ∧ (s.slot k).state = .opening ∧ reached (s.slot k).authDeadline s.runTimer = true)
        ∨ (i = .endDeadline k ∧ (s.slot k).state = .ending ∧ reached (s.slot k).endDeadline s.runTimer = true) := by
  simp only [slotExpiries, List.mem_append, mem_ite_singleton]

theorem mem_bayExpiries {i : Instr} {s : State} {b : BayId} :
    i ∈ bayExpiries s b ↔
      (i = .ackDeadline b ∧ reached ((s.bay b).ackWait.map (·.deadline)) s.runTimer = true)
        ∨ (i = .lostDeadline b ∧ reached (s.bay b).lostDeadline s.runTimer = true)
        ∨ (i = .queryDeadline b ∧ reached (s.bay b).scan.deadline? s.runTimer = true) := by
  simp only [bayExpiries, List.mem_append, mem_ite_singleton, or_assoc]

theorem mem_siteExpiries {i : Instr} {s : State} :
    i ∈ siteExpiries s ↔
      (i = .lineQualified .shed ∧ s.sc.shedPin.qualified s.runTimer = true)
        ∨ (i = .lineQualified .rsvReq ∧ s.sc.rsvReqPin.qualified s.runTimer = true)
        ∨ (i = .refreshTimerExpiry ∧ reached s.al.refresh s.runTimer = true)
        ∨ (i = .dayRollover ∧ s.tc.dayOver = true) := by
  simp only [siteExpiries, List.mem_append, mem_ite_singleton, or_assoc]

/-- The rows posted are those of the site, of the slots and of the bays. -/
theorem mem_expiries {i : Instr} {s : State} :
    i ∈ s.expiries ↔ i ∈ siteExpiries s ∨ (∃ k, i ∈ slotExpiries s k) ∨ ∃ b, i ∈ bayExpiries s b := by
  simp [State.expiries, indices]

theorem slotExpiries_nodup (s : State) (k : SlotId) : (slotExpiries s k).Nodup := by
  refine List.nodup_append.mpr ⟨nodup_ite_singleton _ _, nodup_ite_singleton _ _, fun i hi j hj => ?_⟩
  rw [mem_ite_singleton] at hi hj
  rw [hi.1, hj.1]
  simp

theorem bayExpiries_nodup (s : State) (b : BayId) : (bayExpiries s b).Nodup := by
  refine List.nodup_append.mpr ⟨List.nodup_append.mpr ⟨nodup_ite_singleton _ _, nodup_ite_singleton _ _, ?_⟩,
    nodup_ite_singleton _ _, ?_⟩
  · intro i hi j hj
    rw [mem_ite_singleton] at hi hj
    rw [hi.1, hj.1]
    simp
  · intro i hi j hj
    rw [List.mem_append, mem_ite_singleton, mem_ite_singleton] at hi
    rw [mem_ite_singleton] at hj
    rw [hj.1]
    rcases hi with hi | hi <;> simp [hi.1]

theorem siteExpiries_nodup (s : State) : (siteExpiries s).Nodup := by
  unfold siteExpiries
  cases s.sc.shedPin.qualified s.runTimer <;> cases s.sc.rsvReqPin.qualified s.runTimer <;>
    cases reached s.al.refresh s.runTimer <;> cases s.tc.dayOver <;> decide

/-- Lists that share no row for different indices stay free of repetition when they are joined. -/
theorem nodup_flatMap_indices {n : Nat} {f : Fin n → List Instr} (hf : ∀ a, (f a).Nodup)
    (hne : ∀ a b i, i ∈ f a → i ∈ f b → a = b) : ((indices n).flatMap f).Nodup := by
  refine List.nodup_flatMap.mpr ⟨fun a _ => hf a, (List.nodup_finRange n).imp fun hab => ?_⟩
  exact fun i hi hj => hab (hne _ _ i hi hj)

/-- Every expiry row is posted once. -/
theorem expiries_nodup (s : State) : s.expiries.Nodup := by
  have hslots : ((indices 64).flatMap (slotExpiries s)).Nodup := by
    refine nodup_flatMap_indices (slotExpiries_nodup s) fun a b i hi hj => ?_
    rw [mem_slotExpiries] at hi hj
    rcases hi with ⟨rfl, -⟩ | ⟨rfl, -⟩ <;> simpa using hj.imp And.left And.left
  have hbays : ((indices 48).flatMap (bayExpiries s)).Nodup := by
    refine nodup_flatMap_indices (bayExpiries_nodup s) fun a b i hi hj => ?_
    rw [mem_bayExpiries] at hi hj
    rcases hi with ⟨rfl, -⟩ | ⟨rfl, -⟩ | ⟨rfl, -⟩ <;> simpa using hj.imp And.left (Or.imp And.left And.left)
  unfold State.expiries
  refine List.nodup_append.mpr ⟨List.nodup_append.mpr ⟨siteExpiries_nodup s, hslots, ?_⟩, hbays, ?_⟩
  · rintro i hi j hj rfl
    obtain ⟨k, -, hk⟩ := List.mem_flatMap.mp hj
    rw [mem_siteExpiries] at hi
    rw [mem_slotExpiries] at hk
    rcases hk with ⟨rfl, -⟩ | ⟨rfl, -⟩ <;> simp at hi
  · rintro i hi j hj rfl
    obtain ⟨b, -, hb⟩ := List.mem_flatMap.mp hj
    rw [mem_bayExpiries] at hb
    rcases List.mem_append.mp hi with hi | hi
    · rw [mem_siteExpiries] at hi
      rcases hb with ⟨rfl, -⟩ | ⟨rfl, -⟩ | ⟨rfl, -⟩ <;> simp at hi
    · obtain ⟨k, -, hk⟩ := List.mem_flatMap.mp hi
      rw [mem_slotExpiries] at hk
      rcases hb with ⟨rfl, -⟩ | ⟨rfl, -⟩ | ⟨rfl, -⟩ <;> simp at hk

theorem tick_clock_counts {t : TariffClock} (h : t.millis < 999 ∨ t.second = 86399) :
    t.tick = { t with millis := t.millis + 1 } :=
  if_neg fun hc => by simp only [lastSecond] at hc; omega

theorem tick_clock_advances {t : TariffClock} (hm : 999 ≤ t.millis) (hs : t.second ≠ 86399) :
    t.tick = { t with second := t.second + 1, millis := t.millis + 1 - 1000 } :=
  if_pos ⟨by omega, hs⟩

theorem dayOver_iff {t : TariffClock} : t.dayOver = true ↔ t.second = 86399 ∧ 1000 ≤ t.millis := by
  simp [TariffClock.dayOver, lastSecond]

/-- Settles O2: an idle step is `tick`, whose queue is a free order of the expiries due after the ms, each kind of row being
posted under its own deadline. -/
theorem idleStepIsOneMillisecond : Obligations.IdleStepIsOneMillisecond := by
  intro s hqueue
  refine ⟨tick s, step_idle hqueue, rfl, tick_clock_counts, tick_clock_advances, ?_, ?_, ?_, ?_, ?_, ?_, ?_, ?_, ?_, ?_,
    (freeOrder_perm _ _).nodup_iff.mpr (expiries_nodup _), rfl, rfl, rfl, rfl, rfl, rfl, rfl⟩
  case refine_10 =>
    intro i hi
    rw [mem_tick_pending, mem_expiries, mem_siteExpiries] at hi
    simp only [mem_slotExpiries, mem_bayExpiries] at hi
    rcases hi with (⟨rfl, -⟩ | ⟨rfl, -⟩ | ⟨rfl, -⟩ | ⟨rfl, -⟩) | ⟨k, (⟨rfl, -⟩ | ⟨rfl, -⟩)⟩ |
      ⟨b, (⟨rfl, -⟩ | ⟨rfl, -⟩ | ⟨rfl, -⟩)⟩ <;> simp
  all_goals
    simp only [mem_tick_pending, mem_expiries, mem_siteExpiries, mem_slotExpiries, mem_bayExpiries, reached_iff,
      pin_qualified_iff, scan_deadline_iff, dayOver_iff]
    simp [advance, State.slot, State.bay, tick]
  · intro b
    constructor <;> grind

/-! ## RESET (log 20) -/

theorem exec_reset (s : State) :
    exec .reset s = .next { State.reset with
      pending := s.pending
      freeDraws := s.freeDraws
      sc.shedPin := s.sc.shedPin.afterReset
      sc.rsvReqPin := s.sc.rsvReqPin.afterReset } := rfl

theorem reset_device (e : Entry) : State.reset.device e = { kind := resetKind e } := by
  simp [State.device, State.reset]

theorem reset_bay (b : BayId) : State.reset.bay b = {} := by simp [State.bay, State.reset]

theorem reset_slot (k : SlotId) : State.reset.slot k = {} := by simp [State.slot, State.reset]

theorem reset_account (i : AccountId) : State.reset.account i = {} := by simp [State.account, State.reset]

theorem reset_notice (k : NoticeKind) : State.reset.notice k = {} := by simp [State.notice, State.reset]

/-- Settles O3: RESET writes the reset record but for what log 20 keeps, and each figure is read off that record. -/
theorem resetLeavesResetValues : Obligations.ResetLeavesResetValues := by
  intro s
  refine ⟨_, exec_reset s, rfl, rfl, rfl, rfl, rfl, rfl, rfl, rfl, rfl, rfl, rfl, fun e => ?_, fun b => ?_, reset_slot,
    rfl, rfl, rfl, rfl, rfl, rfl, rfl, fun i => ?_, rfl, rfl, rfl, rfl, rfl, rfl, fun k => ?_⟩
  · exact ⟨congrArg Device.declared (reset_device e), congrArg Device.link (reset_device e),
      congrArg Device.lastSent (reset_device e)⟩
  · exact ⟨congrArg Bay.state (reset_bay b), congrArg Bay.committed (reset_bay b), congrArg Bay.scan (reset_bay b),
      congrArg Bay.stopFlag (reset_bay b)⟩
  · exact congrArg Account.enabled (reset_account i)
  · exact ⟨congrArg Notice.count (reset_notice k), congrArg Notice.masked (reset_notice k)⟩

/-- Settles O54: at reset every table holds its reset record, no pass runs, the gate is CLOSED and both lines are INACTIVE. -/
theorem invariantsHoldAtReset : Obligations.InvariantsHoldAtReset := by
  have hgate : GateInv State.reset := by unfold GateInv; decide
  have hpass : PassInv State.reset := by unfold PassInv; decide
  have hcredit : CreditInv State.reset := ⟨.nil, fun c hc => (by cases hc), Nat.zero_le _⟩
  have hreserve : ReserveInv State.reset := by unfold ReserveInv; decide
  refine ⟨hgate, hpass, rfl, attnInv_of_closed rfl rfl, fun b => ?_, hcredit, ⟨fun i => ?_, fun i _ _ hi => ?_⟩,
    hreserve, ?_, ⟨fun k hk => ?_, fun b hb => ?_⟩, ⟨.nil, fun k => ?_, ?_, .nil⟩, fun h => ?_, fun k => ?_, ?_⟩
  · have hd : State.reset.bayDevice b = { kind := resetKind b.val } := reset_device _
    constructor <;> simp [hd, reset_bay, feederOf] <;> rfl
  · simp [reset_account]
  · simp [reset_account] at hi
  · constructor
    case feederLimits => decide
    case missCounts => intro e; simp [reset_device]
    case overwrites => intro b; simp [reset_bay]
    case accounts => intro i; simp [reset_account]
    case bands => decide
    case counts => intro k; simp [reset_notice]
    case fallback => intro n h; cases h
    all_goals decide
  · simp [reset_slot, SessionState.live] at hk
  · simp [reset_bay] at hb
  · have hempty : State.reset.al.queue = [] := rfl
    simp [reset_slot, SessionState.queued, hempty]
  · intro m hm
    cases hm
  · cases h
  · simp [reset_slot]
  · have hempty : State.reset.cs.credits = [] := rfl
    constructor <;> simp [reset_slot, reset_bay, hempty]

/-! ## Totality (log 4) -/

theorem ite_next {c : Prop} [Decidable c] {o : Outcome} {s : State} (h : ∃ t, o = .next t) :
    ∃ t, (if c then o else .next s) = .next t := by
  split
  · exact h
  · exact ⟨s, rfl⟩

/-- Every command answers a next state: a request row by `serve`, another row by completing or by leaving the state. -/
theorem exec_next (i : Instr) (s : State) : ∃ t, exec i s = .next t := by
  cases i with
  | reset => exact ⟨_, rfl⟩
  | hostWriteTransaction bytes =>
    show ∃ t, execHostWriteTransaction bytes s = .next t
    unfold execHostWriteTransaction
    split
    · exact ⟨s, rfl⟩
    · split <;> exact done_next _
  | hostReadTransaction count =>
    show ∃ t, execHostReadTransaction count s = .next t
    unfold execHostReadTransaction
    split
    · exact ⟨s, rfl⟩
    · exact done_next _
  | linePinChange line level => cases line <;> exact done_next _
  | lineQualified line => cases line <;> exact ite_next (done_next _)
  | bayPoll =>
    show ∃ t, execBayPoll s = .next t
    unfold execBayPoll
    split
    · exact done_next _
    · exact ⟨s, rfl⟩
  | sourcePoll =>
    show ∃ t, execSourcePoll s = .next t
    unfold execSourcePoll
    split
    · split
      · exact ⟨s, rfl⟩
      all_goals exact done_next _
    · exact ⟨s, rfl⟩
  | bayPollSent =>
    show ∃ t, execBayPollSent s = .next t
    unfold execBayPollSent
    split
    · split
      · exact done_next _
      all_goals exact ⟨s, rfl⟩
    all_goals exact ⟨s, rfl⟩
  | sourcePollSent =>
    show ∃ t, execSourcePollSent s = .next t
    unfold execSourcePollSent
    split
    · split
      · exact ⟨s, rfl⟩
      all_goals exact done_next _
    all_goals exact ⟨s, rfl⟩
  | responseTimeout =>
    show ∃ t, execResponseTimeout s = .next t
    unfold execResponseTimeout
    split
    · exact ite_next (done_next _)
    all_goals exact ⟨s, rfl⟩
  | responseReceived chars =>
    show ∃ t, execResponseReceived chars s = .next t
    unfold execResponseReceived
    split
    · exact done_next _
    all_goals exact ⟨s, rfl⟩
  | passEnd =>
    show ∃ t, execPassEnd s = .next t
    unfold execPassEnd
    split
    · exact done_next _
    · exact ⟨s, rfl⟩
  | refreshTimerExpiry | authDeadline | endDeadline | ackDeadline | lostDeadline | queryDeadline | dayRollover =>
    exact ite_next (done_next _)
  | _ => exact serve_next _ _ _

/-- A row with a request kind is one call of `serve`. -/
theorem exec_eq_serve {i : Instr} {kp : Nat × List Byte} (h : i.requestKind = some kp) :
    ∃ act, ∀ s, exec i s = serve i act s := by
  cases i <;> first | exact ⟨_, fun _ => rfl⟩ | cases h

/-- Settles O4: `exec_next`, and a request row is one call of `serve`, which leaves the state where the request is absent. -/
theorem everyCommandAnswersNextState : Obligations.EveryCommandAnswersNextState := by
  refine ⟨exec_next, fun i kp s hkind habsent => ?_⟩
  obtain ⟨act, hact⟩ := exec_eq_serve hkind
  rw [hact, serve_absent act habsent]

end Sys2Proof.Machine
end

section
/-! # The host port: read transactions, bad frames, and the reading of request frames (R169, R170, R179) -/

namespace Sys2Proof.Machine

/-! ## A read transaction (R170) -/

theorem be_one (n : Nat) : be 1 n = [BitVec.ofNat 8 n] := by simp [be]

theorem be_two (n : Nat) : be 2 n = [BitVec.ofNat 8 (n / 256), BitVec.ofNat 8 n] := by simp [be]

theorem readFrame_response {s : State} {r : Response} (h : s.hp.port = .responseWaiting r) :
    s.readFrame = BitVec.ofNat 8 r.status.code :: r.kindEcho :: BitVec.ofNat 8 s.hp.dropped
      :: BitVec.ofNat 8 (r.payload.length / 256) :: BitVec.ofNat 8 r.payload.length :: r.payload := by
  simp only [State.readFrame, h, be_one, be_two, List.cons_append, List.nil_append]

/-- Outside RESPONSE_WAITING the frame is the idle frame. -/
theorem readFrame_idle {s : State} (h : ∀ r, s.hp.port ≠ .responseWaiting r) :
    s.readFrame = [0, 0, BitVec.ofNat 8 s.hp.dropped, 0, 0] := by
  cases hp : s.hp.port with
  | responseWaiting r => exact absurd hp (h r)
  | idle | processing f => simp [State.readFrame, hp, be_one, be_two]

theorem afterRead_of_not_waiting {p : Port} (h : ∀ r, p ≠ .responseWaiting r) : p.afterRead = p := by
  cases p with
  | responseWaiting r => exact absurd rfl (h r)
  | idle | processing f => rfl

theorem exec_hostReadTransaction {count : Nat} {s : State} (hcount : 0 < count) (hp : PassSampled s) :
    exec (.hostReadTransaction count) s = .next { s with
      hp := { s.hp with miso := clockOut count s.readFrame, dropped := 0, port := s.hp.port.afterRead }
      freeDraws := s.freeDraws + 1 } := by
  show execHostReadTransaction count s = _
  unfold execHostReadTransaction
  rw [if_neg hcount.ne']
  exact done_of_sampled hp

theorem clockOut_length (count : Nat) (frame : List Byte) : (clockOut count frame).length = count := by
  simp only [clockOut, List.length_append, List.length_take, List.length_replicate]
  omega

/-- Within the frame its bytes are clocked out, past its end bytes of 0 (R179). -/
theorem clockOut_get {count n : Nat} (frame : List Byte) (h : n < count) :
    (clockOut count frame)[n]? = some (frame.getD n 0) := by
  by_cases hn : n < frame.length
  · rw [clockOut, List.getElem?_append_left (by rw [List.length_take]; omega), List.getElem?_take_of_lt h]
    simp [hn]
  · rw [clockOut, List.getElem?_append_right (by rw [List.length_take]; omega)]
    have hzero : frame[n]? = none := List.getElem?_eq_none (by omega)
    simp only [List.length_take, List.getElem?_replicate, List.getD_eq_getElem?_getD, hzero]
    rw [if_pos (by omega)]
    rfl

/-- Settles O6: the frame by the port state, and the port after it. -/
theorem readTransactionClocksOneFrame : Obligations.ReadTransactionClocksOneFrame := by
  refine ⟨fun count r s hcount hp hport => ?_, fun count s hcount hp hport => ?_,
    fun count frame => ⟨clockOut_length count frame, fun n hn => clockOut_get frame hn⟩⟩
  · rw [exec_hostReadTransaction hcount hp, readFrame_response hport, hport]
    rfl
  · rw [exec_hostReadTransaction hcount hp, readFrame_idle hport, afterRead_of_not_waiting hport]

/-! ## The reading of a request frame (R169) -/

/-- The payload length that a frame of at least a header states. -/
theorem headerLength {f : List Byte} (h : 3 ≤ f.length) :
    beNat ((f.drop 1).take 2) = (f.getD 1 0).toNat * 256 + (f.getD 2 0).toNat := by
  match f, h with
  | _ :: b :: c :: _, _ => simp [beNat]

/-- The kinds of Table 10-2 are 1 to 30. -/
theorem requestRow_none_iff {kind : Nat} {p : List Byte} : requestRow kind p = none ↔ kind = 0 ∨ 30 < kind := by
  constructor
  · intro hnone
    by_contra hc
    have hrange : 1 ≤ kind ∧ kind ≤ 30 := by omega
    obtain ⟨hlow, hhigh⟩ := hrange
    interval_cases kind <;> simp [requestRow] at hnone
  · rintro (rfl | h)
    · rfl
    · unfold requestRow
      split <;> first | rfl | (simp at h)

theorem requestRow_ne_badRequest {kind : Nat} {p f : List Byte} : requestRow kind p ≠ some (.badRequestFrame f) := by
  unfold requestRow
  split <;> simp <;> split <;> simp

theorem requestOf_badRequest_iff (f : List Byte) :
    requestOf f = .badRequestFrame f ↔ f.length < 3 ∨ f.length ≠ 3 + (f.getD 1 0).toNat * 256 + (f.getD 2 0).toNat
      ∨ (f.getD 0 0).toNat = 0 ∨ 30 < (f.getD 0 0).toNat := by
  unfold requestOf
  by_cases hshort : f.length < 3
  · rw [if_neg (by omega)]
    simp [hshort]
  rw [headerLength (by omega)]
  by_cases hlen : f.length = 3 + ((f.getD 1 0).toNat * 256 + (f.getD 2 0).toNat)
  · rw [if_pos ⟨by omega, hlen⟩]
    have hkind := requestRow_none_iff (kind := (f.getD 0 0).toNat) (p := f.drop 3)
    cases hrow : requestRow (f.getD 0 0).toNat (f.drop 3) with
    | none => simpa [hrow] using .inr (.inr (hkind.mp hrow))
    | some i =>
      have hi : i ≠ .badRequestFrame f := fun hi => requestRow_ne_badRequest (hi ▸ hrow)
      rw [hrow] at hkind
      simp only [Option.getD_some, hi, false_iff]
      simp only [reduceCtorEq, false_iff] at hkind
      omega
  · rw [if_neg fun hc => hlen hc.2]
    simp only [true_iff]
    omega

/-- Settles O7: BAD_REQUEST_FRAME refuses without an effect, and its frames are those that `requestOf` finds no row for. -/
theorem badRequestFrameAnswered : Obligations.BadRequestFrameAnswered :=
  ⟨fun _ _ hp h => serve_refused hp h rfl, requestOf_badRequest_iff⟩

/-! ## The round trip of a request row (Tables 10-2, 11-1) -/

/-- A frame built from a kind and a payload is read by its kind with the whole payload. -/
theorem requestOf_frameOf {kind : Nat} {p : List Byte} (hkind : kind < 256) (hp : p.length < 65536) :
    requestOf (frameOf kind p) = (requestRow kind p).getD (.badRequestFrame (frameOf kind p)) := by
  have hlen : (frameOf kind p).length = 3 + beNat (((frameOf kind p).drop 1).take 2) := by
    rw [headerLength (by simp [frameOf])]
    simp only [frameOf, List.length_cons, List.getD_cons_succ, List.getD_cons_zero, BitVec.toNat_ofNat]
    omega
  rw [requestOf, if_pos ⟨by simp [frameOf], hlen⟩]
  simp [frameOf, Nat.mod_eq_of_lt hkind]

/-- The row of Table 10-2 for a well-formed request row is that row. -/
theorem requestRow_requestKind {i : Instr} {kp : Nat × List Byte} (hw : i.wellFormed = true)
    (hkind : i.requestKind = some kp) : requestRow kp.1 kp.2 = some i ∧ kp.1 < 256 ∧ kp.2.length < 65536 := by
  cases i <;> simp only [Instr.requestKind, Option.some.injEq, reduceCtorEq] at hkind <;> subst hkind <;>
    simp only [Instr.wellFormed, Bool.and_eq_true, Bool.not_eq_true'] at hw <;>
    simp_all [requestRow, payloadFits]
  case removeBay => exact Laws.RequestForm.length_of_bayRemoval hw
  case removeSource => exact Laws.RequestForm.length_of_sourceRemoval hw
  case queryPendingList => exact Laws.RequestForm.length_of_pendingList hw
  case resumeAll => exact Laws.RequestForm.length_of_resumeAll hw

/-- Settles O8: the frame is read by its kind, and the row of that kind and payload is the row it was built from. -/
theorem requestRowsRoundTrip : Obligations.RequestRowsRoundTrip := by
  intro i f hw hf
  obtain ⟨kp, hkind, rfl⟩ := Option.map_eq_some_iff.mp hf
  obtain ⟨hrow, hsmall, hfits⟩ := requestRow_requestKind hw hkind
  rw [requestOf_frameOf hsmall hfits, hrow, Option.getD_some]

end Sys2Proof.Machine
end

section
/-! # What a step can do

`Act` says once what every command is made of: moves of the sessions with their bays (`SessionMove`), of the credit store
(`StoreMove`), of the declarations (`DeclarationMove`), of the other records (`SiteMove`), and the whole operations whose own
order of moves matters (`ChargeMove`, `lines`, `rsvReq`). A command that completes is a chain of acts, after which a pass begun
in it is sampled; each invariant is then a case analysis over the acts. -/

namespace Sys2Proof.Machine

/-! ## The moves -/

/-- Two records of one slot that agree in all that the bays, the queue and the credit store say of it. -/
structure Slot.SameLedger (old new : Slot) : Prop where
  state : new.state = old.state
  bay : new.bay = old.bay
  cls : new.cls = old.cls
  arrival : new.arrival = old.arrival
  source : new.source = old.source
  blockLeft : new.blockLeft = old.blockLeft
  finalBlock : new.finalBlock = old.finalBlock
  receipt : new.receipt = old.receipt

/-- Two records of one slot with the same energy in the same parts. -/
structure Slot.SameMeter (old new : Slot) : Prop where
  energyWh : new.energyWh = old.energyWh
  solar : new.solar = old.solar
  battery : new.battery = old.battery
  grid : new.grid = old.grid
  covered : new.covered = old.covered

/-- Two records of one bay that agree in its state, its session and its scan slot. -/
structure Bay.SameLedger (old new : Bay) : Prop where
  state : new.state = old.state
  session : new.session = old.session
  scan : new.scan = old.scan

/-- The state after an opening at bay b with slot k (R46). -/
def openedState (b : BayId) (k : SlotId) (s : State) : State :=
  State.modBay { s.setSlot k (s.openedSlot b) with st.sequence := nextSequence s.st.sequence } b
    fun y => { y with state := .occupied, session := some k, stopFlag := false }

/-- One move of a session and its bay. -/
inductive SessionMove : State → State → Prop where
  | pass (s : State) : SessionMove s (requestPass s)
  | notice (s : State) (n : NoticeKind) (a key : Nat) : SessionMove s (countNotice n a key s)
  | slotMarks (s : State) (k : SlotId) (x : Slot) (hledger : (s.slot k).SameLedger x) (hmeter : (s.slot k).SameMeter x) :
      SessionMove s (s.setSlot k x)
  | bayMarks (s : State) (b : BayId) (x : Bay) (hdecl : (s.bay b).SameDeclaration x) (hledger : (s.bay b).SameLedger x) :
      SessionMove s (s.setBay b x)
  | queuedState (s : State) (k : SlotId) (x : Slot) (hold : (s.slot k).state.queued = true) (hnew : x.state.queued = true)
      (hledger : (s.slot k).SameLedger { x with state := (s.slot k).state }) (hmeter : (s.slot k).SameMeter x) :
      SessionMove s (s.setSlot k x)
  | authorise (s : State) (k : SlotId) (hstate : (s.slot k).state = .opening) : SessionMove s (authorise k s)
  | ending (s : State) (k : SlotId) (cause : EndCause) (hstate : (s.slot k).state.queued = true) :
      SessionMove s (endingBay k cause s)
  | settle (s : State) (k : SlotId) (cause : Option EndCause) (after : BayAfter) (hstate : (s.slot k).state.live = true) :
      SessionMove s (settle k cause after s)
  | abandon (s : State) (k : SlotId) (hstate : (s.slot k).state = .opening) : SessionMove s (abandon k s)
  | opening (s : State) (b : BayId) (k : SlotId) (hbay : (s.bay b).state = .idle ∨ (s.bay b).state = .waitingSlot)
      (hslot : (s.slot k).state = .free) : SessionMove s (openedState b k s)
  | vacate (s : State) (b : BayId) (x : Bay) (hdecl : (s.bay b).SameDeclaration x)
      (hfree : s.liveSlot b = none ∨ (s.bay b).state ≠ .occupied) (hstate : x.state ≠ .occupied)
      (hsession : x.session = none
        ∨ (x.session = (s.bay b).session ∧ (s.bay b).state ≠ .occupied ∧ (s.bay b).state ≠ .stopped))
      (hscan : x.scan = (s.bay b).scan) : SessionMove s (s.setBay b x)
  | emptyScan (s : State) (b : BayId) : SessionMove s (emptyScan b s)
  | pending (s : State) (key : Nat) (b : BayId) (k : SlotId) (hlive : s.liveSlot b = some k)
      (hstate : (s.slot k).state ≠ .ending) (hsource : (s.slot k).source = none) : SessionMove s (makePending key b s)
  | collect (s : State) (k : SlotId) (hstate : (s.slot k).state = .settled) : SessionMove s (takeReceiptAt k s).2

/-- One move of the credit store. -/
inductive StoreMove : State → State → Prop where
  | issue (s : State) (a : IssueArgs) (hvalid : a.valid = true) (hnew : lookupCredit a.key s = none)
      (hroom : s.cs.credits.length < creditCapacity) :
      StoreMove s (s.setCredits (insertCredit (issuedCredit a s.tc.day) s.cs.credits))
  | retire (s : State) (key : Nat) (c : Credit) (hfound : lookupCredit key s = some c) (hissued : c.state = .issued) :
      StoreMove s (s.setCredits (removeCredit key s.cs.credits))
  | void (s : State) (key : Nat) (c : Credit) (hfound : lookupCredit key s = some c) (hheld : c.state = .held) :
      StoreMove s (s.setCredits (updateCredit key Credit.voidHeld s.cs.credits))
  | rollover (s : State) (day : Nat) : StoreMove s (rollover day s)
  | account (s : State) (p : List Byte) (a : AccountArgs) (hargs : accountArgs p = some a) (hfree : s.tokenTaken a = false)
      (huse : accountInUse a (s.account a.index) = false) : StoreMove s (s.modAccount a.index (writtenAccount a))

/-- One move of the declarations of the bays. -/
inductive DeclarationMove : State → State → Prop where
  | declare (s : State) (b : BayId) (kind : BayKind) (maximum width : Nat) (hlow : kind.minSteps ≤ maximum)
      (hhigh : maximum ≤ kind.maxBound) (hfree : s.liveSlot b = none) :
      DeclarationMove s ((s.modDevice (Role.bay b).entry fun d =>
        { d with declared := true, kind := kind.device, declaredMax := maximum }).modBay b fun y => { y with
          declared := true, kind := kind, maxSteps := maximum, minSteps := kind.minSteps, meterWidth := width
          feeder := feederOf s.sc.layoutMode b, identity := .unchecked, scan := .empty })
  | remove (s : State) (b : BayId) (hfree : s.liveSlot b = none) :
      DeclarationMove s ((s.setDevice (Role.bay b).entry { kind := resetKind (Role.bay b).entry }).setBay b
        { feeder := feederOf s.sc.layoutMode b })
  | matched (s : State) (b : BayId) (r : BayReport) (hmatch : identityMatches (s.bay b) r = true) :
      DeclarationMove s (takeMatch b r s)
  | layout (s : State) (mode : Nat) (p : List Byte) (hmode : mode ≤ 4) :
      DeclarationMove s (openGateIfMarked { s with
        sc := { s.sc with layoutMode := mode, feederLimits := layoutLimits mode p, layoutMark := true }
        bays := Vector.ofFn fun b => { s.bay b with feeder := feederOf mode b } })

/-- One move of another record. -/
inductive SiteMove : State → State → Prop where
  | port (s : State) (p : Port) : SiteMove s (s.setPort p)
  | drop (s : State) : SiteMove s { s with hp.dropped := min 255 (s.hp.dropped + 1) }
  | read (s : State) (p : Port) (miso : List Byte) :
      SiteMove s { s with hp := { s.hp with miso := miso, dropped := 0, port := p } }
  | masks (s : State) (bits : Nat) : SiteMove s (setMasks bits s)
  | acknowledge (s : State) (k : NoticeKind) : SiteMove s (acknowledge k s)
  | limits (s : State) (c m x : Nat) : SiteMove s (openGateIfMarked { s with sc := { s.sc with
      importCap := (clampLimits c m x).1, margin := (clampLimits c m x).2.1, exportCap := (clampLimits c m x).2.2
      limitsMark := true } })
  | fallback (s : State) (x : Fallback) (h : ∀ n, x = .fixed n → n ≤ 20000) : SiteMove s { s with sc.fallback := x }
  | battery (s : State) (cap floor dis ch : Nat) (hcap : cap ≤ 1000000) (hfloor : floor ≤ cap) (hdis : dis ≤ 5000)
      (hch : ch ≤ 5000) : SiteMove s { s with sc := { s.sc with eCap := cap, eFloor := floor, pDis := dis, pCh := ch } }
  | timing (s : State) (t : Timing) : SiteMove s { s with sc.timing := clampTiming t }
  | shedPin (s : State) (p : Pin) : SiteMove s { s with sc.shedPin := p }
  | rsvReqPin (s : State) (level : Level) : SiteMove s { s with sc.rsvReqPin := s.sc.rsvReqPin.moved level s.runTimer }
  | grantReserve (s : State) : SiteMove s (grantReserve s)
  | clock (s : State) (day second millis : Nat) (hday : day ≤ 65535) (hsecond : second ≤ 86399) :
      SiteMove s { s with tc := { s.tc with day := day, second := second, millis := millis } }
  | tariff (s : State) (bands : Vector Band 4) (price : Nat)
      (hbands : ∀ n : BandId, (∀ m, (bands[n.val]).start = some m → m ≤ 1439) ∧ (bands[n.val]).price ≤ 9999)
      (hprice : price ≤ 9999) : SiteMove s { s with tc := { s.tc with bands := bands, canopyPrice := price } }
  | blockSize (s : State) (n : Nat) (hlow : 100 ≤ n) (hhigh : n ≤ 5000) : SiteMove s { s with cs.blockSize := n }
  | device (s : State) (e : Entry) (x : Device) (hdeclared : x.declared = (s.device e).declared)
      (hkind : x.kind = (s.device e).kind) (hmax : x.declaredMax = (s.device e).declaredMax)
      (hmiss : x.missCount = (s.device e).missCount ∨ x.missCount ≤ 15) : SiteMove s (s.setDevice e x)
  | source (s : State) (e : Entry) (x : Device) (he : 48 ≤ e.val)
      (hmiss : x.missCount = (s.device e).missCount ∨ x.missCount ≤ 15) : SiteMove s (s.setDevice e x)
  | loop (s : State) (x : FieldLoop) (h : x.devices = s.flc.devices) : SiteMove s { s with flc := x }
  | records (s : State) (inverters : Vector Inverter 6) (permit : Bool) (storeLoad : Nat) (battery : BatteryRecord)
      (hsetpoint : battery.setpoint = s.al.battery.setpoint ∨ battery.setpoint = 0) :
      SiteMove s { s with al := { s.al with
        inverters := inverters, permit := permit, storeLoad := storeLoad, battery := battery } }
  | refreshed (s : State) : SiteMove s { s with al.refresh := none }
  | results (s : State) (n : Snapshot) (c : Computed) : SiteMove s (writeResults n c s)
  | finish (s : State) (h : s.al.passState = .running) : SiteMove s (finishPass s)

/-- The state in which a plausible difference has been accrued and covered, before it is priced (R145, R146). -/
def accruedState (k : SlotId) (delta : Nat) (s : State) : State :=
  (coverAll k (delta * s.al.share.solar) (delta * s.al.share.battery) (delta * s.al.share.grid) (s.modSlot k fun x =>
    { x with
      energyWh := x.energyWh + delta
      solar := x.solar + delta * s.al.share.solar
      battery := x.battery + delta * s.al.share.battery
      grid := x.grid + delta * s.al.share.grid })).state

/-- One move that draws on the credit store for a session. -/
inductive ChargeMove : State → State → Prop where
  | attach (s : State) (key : Nat) (k : SlotId) (b : BayId) (c : Credit) (hfound : lookupCredit key s = some c)
      (hissued : c.state = .issued) (hlive : s.liveSlot b = some k)
      (hfit : ((s.slot k).state ≠ .ending ∧ (s.slot k).source = none) ∨ (s.bay b).scan.key? = some key) :
      ChargeMove s (attach key k b s)
  | token (s : State) (i : AccountId) (k : SlotId) (b : BayId) (hroom : (s.account i).holders < (s.account i).maxHolders)
      (hlive : s.liveSlot b = some k) (hstate : (s.slot k).state = .opening) : ChargeMove s (acceptToken i k b s)
  | accrued (s : State) (k : SlotId) (delta : Nat) (hlive : (s.slot k).state.live = true) :
      ChargeMove s (accruedState k delta s)

/-- One act of a command. -/
inductive Act : State → State → Prop where
  | session {s t : State} (h : SessionMove s t) : Act s t
  | store {s t : State} (h : StoreMove s t) : Act s t
  | declaration {s t : State} (h : DeclarationMove s t) : Act s t
  | site {s t : State} (h : SiteMove s t) : Act s t
  | charge {s t : State} (h : ChargeMove s t) : Act s t
  | lines (s : State) (new : LineSettings) : Act s (applyLines new s)
  | rsvReq (s : State) : Act s (takeRsvReqLevel s)

/-- A chain of moves of the sessions. -/
abbrev Moves : State → State → Prop := Relation.ReflTransGen SessionMove

/-- A chain of acts. -/
abbrev Acts : State → State → Prop := Relation.ReflTransGen Act

namespace Moves

theorem trans {s t u : State} (h : Moves s t) (g : Moves t u) : Moves s u := Relation.ReflTransGen.trans h g

theorem ite {s t u : State} {c : Prop} [Decidable c] (ht : c → Moves s t) (hu : ¬c → Moves s u) :
    Moves s (if c then t else u) := by
  split
  · exact ht ‹_›
  · exact hu ‹_›

theorem foldl {α : Type} {f : State → α → State} (hf : ∀ t a, Moves t (f t a)) (l : List α) (s : State) :
    Moves s (l.foldl f s) := by
  induction l generalizing s with
  | nil => exact .refl
  | cons a l ih => exact (hf s a).trans (ih _)

end Moves

theorem Moves.acts {s t : State} (h : Moves s t) : Acts s t := Relation.ReflTransGen.mono (fun _ _ => Act.session) _ _ h

namespace Acts

theorem refl (s : State) : Acts s s := Relation.ReflTransGen.refl

theorem trans {s t u : State} (h : Acts s t) (g : Acts t u) : Acts s u := Relation.ReflTransGen.trans h g

theorem ite {s t u : State} {c : Prop} [Decidable c] (ht : c → Acts s t) (hu : ¬c → Acts s u) :
    Acts s (if c then t else u) := by
  split
  · exact ht ‹_›
  · exact hu ‹_›

theorem session {s t : State} (h : SessionMove s t) : Acts s t := .single (.session h)

theorem charge {s t : State} (h : ChargeMove s t) : Acts s t := .single (.charge h)

theorem store {s t : State} (h : StoreMove s t) : Acts s t := .single (.store h)

theorem declaration {s t : State} (h : DeclarationMove s t) : Acts s t := .single (.declaration h)

theorem site {s t : State} (h : SiteMove s t) : Acts s t := .single (.site h)

/-- A property that every act keeps, a chain of acts keeps. -/
theorem keep {P : State → Prop} (hact : ∀ {s t}, Act s t → P s → P t) {s t : State} (h : Acts s t) (hs : P s) : P t := by
  induction h with
  | refl => exact hs
  | tail _ h ih => exact hact h ih

theorem foldl {α : Type} {f : State → α → State} (hf : ∀ t a, Acts t (f t a)) (l : List α) (s : State) :
    Acts s (l.foldl f s) := by
  induction l generalizing s with
  | nil => exact refl s
  | cons a l ih => exact (hf s a).trans (ih _)

end Acts

/-! ## The primitive operations -/

theorem requestPass_acts (s : State) : Acts s (requestPass s) := .session (.pass s)

theorem requestPassIf_moves (c : Bool) (s : State) : Moves s (requestPassIf c s) :=
  .ite (fun _ => .single (.pass s)) fun _ => .refl

theorem requestPassIf_acts (c : Bool) (s : State) : Acts s (requestPassIf c s) := (requestPassIf_moves c s).acts

theorem countNotice_acts (n : NoticeKind) (a key : Nat) (s : State) : Acts s (countNotice n a key s) :=
  .session (.notice s n a key)

/-- A write of a slot that leaves its ledger and its meter. -/
theorem modSlot_moves (s : State) (k : SlotId) (f : Slot → Slot) (hledger : ∀ x, Slot.SameLedger x (f x))
    (hmeter : ∀ x, Slot.SameMeter x (f x)) : Moves s (s.modSlot k f) :=
  .single (.slotMarks s k _ (hledger _) (hmeter _))

theorem modSlot_acts (s : State) (k : SlotId) (f : Slot → Slot) (hledger : ∀ x, Slot.SameLedger x (f x))
    (hmeter : ∀ x, Slot.SameMeter x (f x)) : Acts s (s.modSlot k f) := (modSlot_moves s k f hledger hmeter).acts

/-- A write of a bay that leaves its declaration and its ledger. -/
theorem modBay_acts (s : State) (b : BayId) (f : Bay → Bay) (hdecl : ∀ y, Bay.SameDeclaration y (f y))
    (hledger : ∀ y, Bay.SameLedger y (f y)) : Acts s (s.modBay b f) :=
  .session (.bayMarks s b _ (hdecl _) (hledger _))

theorem writeGrants_acts (b : BayId) (set ack : Nat) (s : State) : Acts s (writeGrants b set ack s) :=
  (Acts.session (.bayMarks s b _ (withGrants_sameDeclaration _ _ _) ⟨rfl, rfl, rfl⟩)).trans (requestPassIf_acts _ _)

theorem writeGrantSet_acts (b : BayId) (set : Nat) (s : State) : Acts s (writeGrantSet b set s) := writeGrants_acts b set _ s

theorem writeGrantAck_acts (b : BayId) (ack : Nat) (s : State) : Acts s (writeGrantAck b ack s) := writeGrants_acts b _ ack s

theorem setMessage_move (b : BayId) (c : MessageCode) (s : State) : SessionMove s (setMessage b c s) :=
  .bayMarks s b _ ⟨rfl, rfl, rfl, rfl, rfl, rfl⟩ ⟨rfl, rfl, rfl⟩

theorem setMessage_acts (b : BayId) (c : MessageCode) (s : State) : Acts s (setMessage b c s) :=
  .session (setMessage_move b c s)

theorem emptyScan_acts (b : BayId) (s : State) : Acts s (emptyScan b s) := .session (.emptyScan s b)

/-- A bay without a live session fails. -/
theorem enterFault_acts {b : BayId} {s : State} (h : s.liveSlot b = none) : Acts s (enterFault b s) := by
  unfold enterFault
  refine Acts.trans ?_ (countNotice_acts _ _ _ _)
  refine Acts.trans ?_ (requestPass_acts _)
  refine Acts.trans ?_ (writeGrantSet_acts b 0 _)
  exact .session (.vacate s b _ ⟨rfl, rfl, rfl, rfl, rfl, rfl⟩ (.inl h) (by simp) (.inl rfl) rfl)

/-- A bay without a live session is blocked. -/
theorem enterBlocked_acts {b : BayId} {s : State} (h : s.liveSlot b = none) : Acts s (enterBlocked b s) := by
  unfold enterBlocked
  refine Acts.trans ?_ (writeGrantSet_acts b 0 _)
  exact .session (.vacate s b _ ⟨rfl, rfl, rfl, rfl, rfl, rfl⟩ (.inl h) (by simp) (.inl rfl) rfl)

/-! ## Sessions -/

theorem liveSlot_live {s : State} {b : BayId} {k : SlotId} (h : s.liveSlot b = some k) : (s.slot k).state.live = true := by
  unfold State.liveSlot at h
  split at h
  · split at h
    · cases h
      assumption
    · cases h
  · cases h

theorem liveSlot_session {s : State} {b : BayId} {k : SlotId} (h : s.liveSlot b = some k) : (s.bay b).session = some k := by
  unfold State.liveSlot at h
  split at h
  · next hk =>
    split at h
    · cases h
      exact hk
    · cases h
  · cases h

theorem live_of_queued {st : SessionState} (h : st.queued = true) : st.live = true := by cases st <;> first | rfl | cases h

theorem queued_of_waiting {st : SessionState} (h : st = .waiting ∨ st = .charging) : st.queued = true := by
  rcases h with rfl | rfl <;> rfl

theorem suspendSlot_moves {k : SlotId} {s : State} (cause : SuspendCause) (h : (s.slot k).state.queued = true) :
    Moves s (suspendSlot k cause s) := by
  unfold suspendSlot
  refine Moves.trans ?_ (requestPassIf_moves _ _)
  exact .single (.queuedState s k _ h rfl ⟨rfl, rfl, rfl, rfl, rfl, rfl, rfl, rfl⟩ ⟨rfl, rfl, rfl, rfl, rfl⟩)

theorem resumeSlot_moves {k : SlotId} {s : State} (h : (s.slot k).state.queued = true) : Moves s (resumeSlot k s) := by
  unfold resumeSlot
  refine Moves.trans ?_ (requestPassIf_moves _ _)
  exact .single (.queuedState s k _ h rfl ⟨rfl, rfl, rfl, rfl, rfl, rfl, rfl, rfl⟩ ⟨rfl, rfl, rfl, rfl, rfl⟩)

theorem settle_acts {k : SlotId} {s : State} (cause : Option EndCause) (after : BayAfter)
    (h : (s.slot k).state.live = true) : Acts s (settle k cause after s) :=
  .session (.settle s k cause after h)

/-- A settlement after the receipt flags of the slot have been written. -/
theorem settle_flagged_moves {k : SlotId} {s : State} (f : ReceiptFlags → ReceiptFlags) (cause : Option EndCause)
    (after : BayAfter) (h : (s.slot k).state.live = true) :
    Moves s (settle k cause after (s.modSlot k fun x => { x with flags := f x.flags })) := by
  refine Relation.ReflTransGen.tail ?_ (.settle _ k cause after (by rw [slot_modSlot_same]; exact h))
  exact modSlot_moves s k _ (fun _ => ⟨rfl, rfl, rfl, rfl, rfl, rfl, rfl, rfl⟩) fun _ => ⟨rfl, rfl, rfl, rfl, rfl⟩

theorem settleLost_moves {k : SlotId} {s : State} (h : (s.slot k).state.live = true) : Moves s (settleLost k s) :=
  settle_flagged_moves (fun f => { f with endUnconfirmed := true, linkLostDuring := true }) _ _ h

theorem settleLost_acts {k : SlotId} {s : State} (h : (s.slot k).state.live = true) : Acts s (settleLost k s) :=
  (settleLost_moves h).acts

theorem endUnconfirmed_acts {k : SlotId} {s : State} (h : (s.slot k).state.live = true) : Acts s (endUnconfirmed k s) :=
  (settle_flagged_moves (fun f => { f with endUnconfirmed := true }) _ _ h).acts

theorem endOpening_acts {k : SlotId} {s : State} (cause : EndCause) (h : (s.slot k).state = .opening) :
    Acts s (endOpening k cause s) :=
  .ite (fun _ => .session (.abandon s k h)) fun _ => settle_acts _ _ (by rw [h]; rfl)

theorem enterEnding_moves {k : SlotId} {s : State} (cause : EndCause) (h : (s.slot k).state.queued = true) :
    Moves s (enterEnding k cause s) := by
  have hending : Moves s (endingBay k cause s) := .single (.ending s k cause h)
  rw [enterEnding_eq]
  split
  · exact hending
  · exact hending.trans (settleLost_moves (by rw [endingBay_slot]; rfl))

theorem enterEnding_acts {k : SlotId} {s : State} (cause : EndCause) (h : (s.slot k).state.queued = true) :
    Acts s (enterEnding k cause s) := (enterEnding_moves cause h).acts

theorem authoriseIfOpening_moves (k : SlotId) (s : State) : Moves s (authoriseIfOpening k s) := by
  unfold authoriseIfOpening
  split
  next h => exact .single (.authorise s k h)
  · exact .refl

theorem authoriseIfOpening_acts (k : SlotId) (s : State) : Acts s (authoriseIfOpening k s) :=
  (authoriseIfOpening_moves k s).acts

theorem testSpendCap_acts (k : SlotId) (s : State) : Acts s (testSpendCap k s) := by
  unfold testSpendCap
  dsimp only
  split
  · exact .ite (fun h => enterEnding_acts _ h.2.1) fun _ => .refl s
  · exact .refl s

theorem stopSession_acts (k : SlotId) (cause : EndCause) (s : State) : Acts s (stopSession k cause s) := by
  unfold stopSession
  split
  next h => exact endOpening_acts cause h
  next h => exact enterEnding_acts cause (by rw [h]; rfl)
  next h => exact enterEnding_acts cause (by rw [h]; rfl)
  next h => exact enterEnding_acts cause (by rw [h]; rfl)
  all_goals exact .refl s

/-! ## Cards, scans and metering -/

theorem takeCard_acts (k : SlotId) (cap : Nat) (s : State) : Acts s (takeCard k cap s) := by
  unfold takeCard
  refine .ite (fun _ => .refl s) fun _ => ?_
  refine Acts.trans ?_ (testSpendCap_acts k _)
  refine Acts.trans ?_ (authoriseIfOpening_acts k _)
  exact modSlot_acts s k _ (fun _ => ⟨rfl, rfl, rfl, rfl, rfl, rfl, rfl, rfl⟩) fun _ => ⟨rfl, rfl, rfl, rfl, rfl⟩

theorem takeToken_acts {k : SlotId} {b : BayId} {s : State} (key : Nat) (hlive : s.liveSlot b = some k) :
    Acts s (takeToken key k b s) := by
  unfold takeToken
  split
  next hstate =>
    split
    · exact .ite (fun hroom => .charge (.token s _ k b hroom hlive hstate)) fun _ => setMessage_acts b _ s
    · exact setMessage_acts b _ s
  · exact setMessage_acts b _ s

theorem refuseReceipt_acts (b : BayId) (c : MessageCode) (s : State) : Acts s (refuseReceipt b c s) :=
  (setMessage_acts b c s).trans (emptyScan_acts b _)

theorem takeReceiptScan_acts {k : SlotId} {b : BayId} {s : State} (key : Nat) (hlive : s.liveSlot b = some k)
    (hstate : (s.slot k).state ≠ .ending) : Acts s (takeReceiptScan key k b s) := by
  unfold takeReceiptScan
  split
  · exact refuseReceipt_acts b _ s
  next hsource =>
    have hnone : (s.slot k).source = none := by simpa using hsource
    refine .ite (fun _ => refuseReceipt_acts b _ s) fun _ => ?_
    split
    next c hfound =>
      exact .ite (fun hissued => .charge (.attach s key k b c hfound hissued hlive (.inl ⟨hstate, hnone⟩)))
        fun _ => refuseReceipt_acts b _ s
    · exact .session (.pending s key b k hlive hstate hnone)

theorem takeScan_acts (sc : Scan) (b : BayId) (s : State) : Acts s (takeScan sc b s) := by
  unfold takeScan
  split
  · exact setMessage_acts b _ s
  next k hlive =>
    split
    · exact takeToken_acts _ hlive
    · exact .ite (fun _ => setMessage_acts b _ s) fun hstate => takeReceiptScan_acts _ hlive hstate

theorem accrue_eq (k : SlotId) (delta : Nat) (s : State) : ∃ price,
    accrue k delta s = testSpendCap k ((accruedState k delta s).modSlot k fun x => { x with cost := x.cost + price }) :=
  ⟨_, rfl⟩

theorem accrue_acts {k : SlotId} {s : State} (delta : Nat) (hlive : (s.slot k).state.live = true) :
    Acts s (accrue k delta s) := by
  obtain ⟨price, h⟩ := accrue_eq k delta s
  rw [h]
  refine Acts.trans ?_ (testSpendCap_acts k _)
  refine Acts.trans (.charge (.accrued s k delta hlive)) ?_
  exact modSlot_acts _ k _ (fun _ => ⟨rfl, rfl, rfl, rfl, rfl, rfl, rfl, rfl⟩) fun _ => ⟨rfl, rfl, rfl, rfl, rfl⟩

theorem rebase_acts (b : BayId) (register : Nat) (s : State) : Acts s (rebase b register s) :=
  modBay_acts s b _ (fun _ => ⟨rfl, rfl, rfl, rfl, rfl, rfl⟩) fun _ => ⟨rfl, rfl, rfl⟩

theorem absorb_acts {k : SlotId} {s : State} (b : BayId) (register : Nat) (hlive : (s.slot k).state.live = true) :
    Acts s (absorb b k register s) := by
  unfold absorb
  dsimp only
  split
  · refine Acts.trans ?_ (rebase_acts b register _)
    exact modSlot_acts s k _ (fun _ => ⟨rfl, rfl, rfl, rfl, rfl, rfl, rfl, rfl⟩) fun _ => ⟨rfl, rfl, rfl, rfl, rfl⟩
  · refine Acts.trans ?_ (rebase_acts b register _)
    refine .ite (fun _ => .refl s) fun _ => .ite (fun _ => accrue_acts _ hlive) fun _ => ?_
    refine Acts.trans ?_ (countNotice_acts _ _ _ _)
    exact modSlot_acts s k _ (fun _ => ⟨rfl, rfl, rfl, rfl, rfl, rfl, rfl, rfl⟩) fun _ => ⟨rfl, rfl, rfl, rfl, rfl⟩

/-! ## The steps of a bay report (R42) -/

theorem failBay_acts (b : BayId) (s : State) : Acts s (failBay b s) := by
  unfold failBay
  split
  next k h => exact settle_acts _ _ (liveSlot_live h)
  next h => exact enterFault_acts h

theorem freeSlot_state {s : State} {k : SlotId} (h : s.freeSlot = some k) : (s.slot k).state = .free := by
  have := List.find?_some h
  simpa using this

theorem attemptOpening_acts {b : BayId} {s : State} (h : (s.bay b).state = .idle ∨ (s.bay b).state = .waitingSlot) :
    Acts s (attemptOpening b s) := by
  unfold attemptOpening
  refine .ite (fun _ => .refl s) fun _ => ?_
  split
  next k hk => exact .session (.opening s b k h (freeSlot_state hk))
  next =>
    have hwait : Acts s (s.modBay b fun y => { y with state := .waitingSlot }) := by
      refine .session (.vacate s b _ ⟨rfl, rfl, rfl, rfl, rfl, rfl⟩ (.inr ?_) (by simp) (.inr ⟨rfl, ?_, ?_⟩) rfl) <;>
        rcases h with h | h <;> simp [h]
    exact .ite (fun _ => hwait.trans (countNotice_acts _ _ _ _)) fun _ => hwait

theorem stepOpening_acts (b : BayId) (r : BayReport) (s : State) : Acts s (stepOpening b r s) :=
  .ite (fun h => attemptOpening_acts h.2) fun _ => .refl s

theorem stepMeter_acts (b : BayId) (r : BayReport) (s : State) : Acts s (stepMeter b r s) := by
  unfold stepMeter
  split
  next h => exact absorb_acts b _ (liveSlot_live h)
  · exact .refl s

theorem takeAck_acts (b : BayId) (r : BayReport) (s : State) : Acts s (takeAck b r s) := by
  unfold takeAck
  dsimp only
  refine .ite (fun _ => .ite (fun _ => .refl s) fun _ => writeGrantAck_acts b 0 s) fun _ => ?_
  refine .ite (fun _ => writeGrantAck_acts b 0 s) fun _ => .ite (fun _ => writeGrantAck_acts b _ s) fun _ => ?_
  exact (writeGrantAck_acts b _ s).trans (failBay_acts b _)

theorem completeEnding_acts (b : BayId) (r : BayReport) (s : State) : Acts s (completeEnding b r s) := by
  unfold completeEnding
  split
  next h => exact .ite (fun _ => settle_acts _ _ (liveSlot_live h)) fun _ => .refl s
  · exact .refl s

theorem stepAck_acts (b : BayId) (r : BayReport) (s : State) : Acts s (stepAck b r s) := by
  unfold stepAck
  dsimp only
  generalize hx : takeAck b r s = t
  have h : Acts s t := hx ▸ takeAck_acts b r s
  exact .ite (fun _ => h) fun _ => h.trans (completeEnding_acts b r t)

theorem stepFault_acts (b : BayId) (r : BayReport) (s : State) : Acts s (stepFault b r s) :=
  .ite (fun _ => failBay_acts b s) fun _ => .refl s

theorem stepUnplugged_acts (b : BayId) (r : BayReport) (s : State) : Acts s (stepUnplugged b r s) := by
  unfold stepUnplugged
  refine .ite (fun _ => .refl s) fun _ => ?_
  split
  next k h =>
    split
    next hstate => exact endOpening_acts _ hstate
    all_goals first | exact settle_acts _ _ (liveSlot_live h) | exact .refl s
  next h =>
    have hidle : Acts s (s.modBay b fun y => { y with state := .idle, session := none }) :=
      .session (.vacate s b _ ⟨rfl, rfl, rfl, rfl, rfl, rfl⟩ (.inl h) (by simp) (.inl rfl) rfl)
    split <;> first | exact hidle | exact .refl s

theorem stepCard_acts (b : BayId) (r : BayReport) (s : State) : Acts s (stepCard b r s) := by
  unfold stepCard
  split
  · exact takeCard_acts _ _ s
  · exact .refl s

theorem stepScan_acts (b : BayId) (scan : Option Scan) (s : State) : Acts s (stepScan b scan s) := by
  unfold stepScan
  split
  · exact takeScan_acts _ b s
  · exact .refl s

theorem stepButton_acts (b : BayId) (r : BayReport) (s : State) : Acts s (stepButton b r s) := by
  unfold stepButton
  split
  · exact .ite (fun _ => stopSession_acts _ _ s) fun _ => .refl s
  · exact .refl s

theorem takeDemand_acts (b : BayId) (demand : Nat) (s : State) : Acts s (takeDemand b demand s) := by
  unfold takeDemand
  split
  next k _ =>
    have hkept : Acts s (s.modSlot k fun x => { x with demand := demand }) :=
      modSlot_acts s k _ (fun _ => ⟨rfl, rfl, rfl, rfl, rfl, rfl, rfl, rfl⟩) fun _ => ⟨rfl, rfl, rfl, rfl, rfl⟩
    unfold compareDemand
    dsimp only
    split
    · exact hkept.trans (requestPassIf_acts _ _)
    · exact hkept
  · exact .refl s

theorem takeBayReport_acts (b : BayId) (r : BayReport) (scan : Option Scan) (s : State) :
    Acts s (takeBayReport b r scan s) := by
  unfold takeBayReport
  dsimp only
  refine Acts.trans ?_ (takeDemand_acts b _ _)
  refine Acts.trans ?_ (stepButton_acts b r _)
  refine Acts.trans ?_ (stepScan_acts b scan _)
  refine Acts.trans ?_ (stepCard_acts b r _)
  refine Acts.trans ?_ (stepUnplugged_acts b r _)
  refine Acts.trans ?_ (stepFault_acts b r _)
  refine Acts.trans ?_ (stepAck_acts b r _)
  refine Acts.trans ?_ (stepMeter_acts b r _)
  refine Acts.trans ?_ (stepOpening_acts b r _)
  exact modBay_acts s b _ (fun _ => ⟨rfl, rfl, rfl, rfl, rfl, rfl⟩) fun _ => ⟨rfl, rfl, rfl⟩

/-! ## Exchanges and links (R23 to R38) -/

theorem linkLossBay_acts (b : BayId) (s : State) : Acts s (linkLossBay b s) := by
  have hwait : Acts s (s.modBay b fun y => { y with ackWait := none }) :=
    modBay_acts s b _ (fun _ => ⟨rfl, rfl, rfl, rfl, rfl, rfl⟩) fun _ => ⟨rfl, rfl, rfl⟩
  unfold linkLossBay
  dsimp only
  split
  · exact hwait
  next k h =>
    refine .ite (fun _ => hwait.trans (settleLost_acts (liveSlot_live h))) fun _ => hwait.trans ?_
    refine Acts.trans ?_ (modBay_acts _ b
      (fun y => { y with lostDeadline := some (s.runTimer + s.sc.timing.tLost * 1000) })
      (fun _ => ⟨rfl, rfl, rfl, rfl, rfl, rfl⟩) fun _ => ⟨rfl, rfl, rfl⟩)
    exact modSlot_acts _ k _ (fun _ => ⟨rfl, rfl, rfl, rfl, rfl, rfl, rfl, rfl⟩) fun _ => ⟨rfl, rfl, rfl, rfl, rfl⟩

theorem grantReserve_acts (s : State) : Acts s (grantReserve s) := .site (.grantReserve s)

theorem handLoss_acts (e : Entry) (s : State) : Acts s (handLoss e s) := by
  unfold handLoss
  split
  · exact linkLossBay_acts _ s
  · exact grantReserve_acts s
  · exact .refl s
  · exact .refl s

theorem handReturn_acts (e : Entry) (s : State) : Acts s (handReturn e s) := by
  unfold handReturn
  split
  · exact modBay_acts s _ _ (fun _ => ⟨rfl, rfl, rfl, rfl, rfl, rfl⟩) fun _ => ⟨rfl, rfl, rfl⟩
  all_goals exact .refl s

theorem countLink_acts (e : Entry) (s : State) : Acts s (countLink e s) :=
  (countNotice_acts _ _ _ s).trans (requestPass_acts _)

/-- A write of a device entry that leaves its declaration and its miss count. -/
theorem modDevice_acts (s : State) (e : Entry) (f : Device → Device) (hdeclared : ∀ d, (f d).declared = d.declared)
    (hkind : ∀ d, (f d).kind = d.kind) (hmax : ∀ d, (f d).declaredMax = d.declaredMax)
    (hmiss : ∀ d, (f d).missCount = d.missCount) : Acts s (s.modDevice e f) :=
  .site (.device s e _ (hdeclared _) (hkind _) (hmax _) (.inl (hmiss _)))

theorem takeMiss_acts (e : Entry) (kind : MissKind) (s : State) : Acts s (takeMiss e kind s) := by
  have hmiss : Acts s (s.setDevice e
      { s.device e with lastMiss := kind, missCount := min 15 ((s.device e).missCount + 1) }) :=
    .site (.device s e _ rfl rfl rfl (.inr (Nat.min_le_left _ _)))
  unfold takeMiss
  refine .ite (fun _ => hmiss.trans ?_) fun _ => hmiss
  refine Acts.trans ?_ (handLoss_acts e _)
  refine Acts.trans ?_ (countLink_acts e _)
  exact modDevice_acts _ e _ (fun _ => rfl) (fun _ => rfl) (fun _ => rfl) fun _ => rfl

theorem takeGood_acts (e : Entry) (s : State) : Acts s (takeGood e s) := by
  have hgood : Acts s (s.setDevice e { s.device e with missCount := 0, lastReportTime := s.runTimer, link := .online }) :=
    .site (.device s e _ rfl rfl rfl (.inr (Nat.zero_le _)))
  unfold takeGood
  exact .ite (fun _ => (hgood.trans (countLink_acts e _)).trans (handReturn_acts e _)) fun _ => hgood

theorem takeBlockedOutput_acts (b : BayId) (r : BayReport) (s : State) : Acts s (takeBlockedOutput b r s) := by
  have hout : Acts s (s.modBay b fun y => { y with output := r.output }) :=
    modBay_acts s b _ (fun _ => ⟨rfl, rfl, rfl, rfl, rfl, rfl⟩) fun _ => ⟨rfl, rfl, rfl⟩
  exact .ite (fun _ => hout) fun _ => hout.trans (writeGrantAck_acts b 0 _)

theorem takeMismatch_acts (b : BayId) (s : State) : Acts s (takeMismatch b s) := by
  have hmark : Acts s (s.modBay b fun y => { y with identity := .mismatch }) :=
    modBay_acts s b _ (fun _ => ⟨rfl, rfl, rfl, rfl, rfl, rfl⟩) fun _ => ⟨rfl, rfl, rfl⟩
  unfold takeMismatch
  refine .ite (fun _ => hmark) fun _ => hmark.trans (Acts.trans ?_ (countNotice_acts _ _ _ _))
  split
  next k h => exact settle_acts _ _ (liveSlot_live h)
  next h => exact enterBlocked_acts h

theorem handToBay_acts (b : BayId) (r : BayReport) (s : State) : Acts s (handToBay b r s) := by
  unfold handToBay
  dsimp only
  refine Acts.trans ?_ (takeBayReport_acts b r _ _)
  exact modDevice_acts s _ _ (fun _ => rfl) (fun _ => rfl) (fun _ => rfl) fun _ => rfl

theorem takeGoodBay_acts (b : BayId) (r : BayReport) (s : State) : Acts s (takeGoodBay b r s) := by
  unfold takeGoodBay
  dsimp only
  refine .ite (fun _ => takeBlockedOutput_acts b r s) fun _ => .ite (fun hmatch => ?_) fun _ => ?_
  · have hmatched : Acts s (takeMatch b r s) := .declaration (.matched s b r hmatch)
    refine Acts.trans (.ite (fun hblocked => hmatched.trans ?_) fun _ => hmatched) (handToBay_acts b r _)
    have hstate : ((takeMatch b r s).bay b).state = .blocked := by simpa [takeMatch] using hblocked
    refine .session (.vacate _ b _ ⟨rfl, rfl, rfl, rfl, rfl, rfl⟩ (.inr ?_) (by simp) (.inr ⟨rfl, ?_, ?_⟩) rfl) <;>
      rw [hstate] <;> simp
  · exact (takeMismatch_acts b s).trans (takeBlockedOutput_acts b r _)

/-- A write of AL's source records that leaves the setpoint. -/
theorem records_acts (s : State) (inverters : Vector Inverter 6) (permit : Bool) (storeLoad : Nat) (battery : BatteryRecord)
    (h : battery.setpoint = s.al.battery.setpoint ∨ battery.setpoint = 0) :
    Acts s { s with al := { s.al with
      inverters := inverters, permit := permit, storeLoad := storeLoad, battery := battery } } :=
  .site (.records s inverters permit storeLoad battery h)

theorem takeCanopy_acts (k : InverterId) (power : Nat) (s : State) : Acts s (takeCanopy k power s) :=
  (records_acts s _ s.al.permit s.al.storeLoad s.al.battery (.inl rfl)).trans (requestPassIf_acts _ _)

theorem takeBattery_acts (soe : Nat) (applied : Int) (s : State) : Acts s (takeBattery soe applied s) := by
  have htaken := fun permit => (records_acts s s.al.inverters permit s.al.storeLoad
    { s.al.battery with soe := min soe s.sc.eCap, applied := applied } (.inl rfl)).trans
    (requestPassIf_acts (permit != s.al.permit) _)
  unfold takeBattery
  exact .ite (fun _ => (htaken _).trans (grantReserve_acts _)) fun _ => htaken _

theorem takeStoreLoad_acts (load : Nat) (s : State) : Acts s (takeStoreLoad load s) :=
  (records_acts s s.al.inverters s.al.permit load s.al.battery (.inl rfl)).trans (requestPassIf_acts _ _)

theorem takeReport_acts (e : Entry) (r : Report) (s : State) : Acts s (takeReport e r s) := by
  unfold takeReport
  refine (takeGood_acts e s).trans ?_
  split
  · exact takeGoodBay_acts _ _ _
  · exact takeCanopy_acts _ _ _
  · exact takeBattery_acts _ _ _
  · exact takeStoreLoad_acts _ _
  · exact .refl _

theorem endExchange_acts (s : State) : Acts s (endExchange s) := .site (.loop s _ rfl)

theorem concludeExchange_acts (p : Poll) (chars : List RxChar) (s : State) : Acts s (concludeExchange p chars s) := by
  unfold concludeExchange
  refine .ite (fun _ => endExchange_acts s) fun _ => (endExchange_acts s).trans ?_
  split
  · exact takeReport_acts _ _ _
  · exact takeMiss_acts _ _ _

theorem recordSent_acts (p : Poll) (s : State) : Acts s (recordSent p s) :=
  .ite (fun _ => .refl s) fun _ => modDevice_acts s _ _ (fun _ => rfl) (fun _ => rfl) (fun _ => rfl) fun _ => rfl

theorem pollSent_acts (p : Poll) (s : State) : Acts s (recordSent p (awaitResponse p s)) :=
  (Acts.site (.loop s { s.flc with exchange := .awaiting p (s.runTimer + p.allowance) } rfl)).trans (recordSent_acts p _)

theorem pollSentBay_acts (b : BayId) (value : Nat) (s : State) : Acts s (pollSentBay b value s) := by
  refine modBay_acts s b _ (fun y => ?_) fun y => ?_ <;> dsimp only <;> split
  · exact ⟨rfl, rfl, rfl, rfl, rfl, rfl⟩
  · exact ⟨rfl, rfl, rfl, rfl, rfl, rfl⟩
  · exact ⟨rfl, rfl, rfl⟩
  · exact ⟨rfl, rfl, rfl⟩

theorem sendBayPoll_acts (b : BayId) (s : State) : Acts s (sendBayPoll b s) := by
  unfold sendBayPoll
  dsimp only
  refine Acts.trans (modBay_acts s b (fun y => { y with message := y.message.map fun m => { m with inPoll := true } })
    (fun _ => ⟨rfl, rfl, rfl, rfl, rfl, rfl⟩) fun _ => ⟨rfl, rfl, rfl⟩) ?_
  exact .site (.loop _ _ rfl)

/-! ## The lines -/

theorem shedOnset_moves (classes : SessionClass → Bool) (s : State) : Moves s (shedOnset classes s) :=
  .foldl (fun _ _ => .ite (fun h => .ite (fun _ => suspendSlot_moves _ (queued_of_waiting h)) fun _ => .refl)
    fun _ => .refl) _ s

theorem shedEnd_moves (classes : SessionClass → Bool) (s : State) : Moves s (shedEnd classes s) := by
  unfold shedEnd
  split
  · exact .refl
  · exact .foldl (fun t k => .ite (fun h => resumeSlot_moves (by rw [h.1]; rfl)) fun _ => .refl) _ s

theorem shedChanged_moves (s : State) : Moves s (shedChanged s) := by
  unfold shedChanged
  dsimp only
  refine Relation.ReflTransGen.tail (Relation.ReflTransGen.tail ?_ (.pass _)) (.notice _ _ _ _)
  exact Moves.ite (fun _ => shedOnset_moves _ s) fun _ => shedEnd_moves _ s

theorem scopeChanged_moves (old : ShedScope) (s : State) : Moves s (scopeChanged old s) :=
  (shedOnset_moves _ s).trans (shedEnd_moves _ _)

theorem reevaluateShed_moves (was : Bool) (old : ShedScope) (s : State) : Moves s (reevaluateShed was old s) :=
  .ite (fun _ => shedChanged_moves s) fun _ => .ite (fun _ => scopeChanged_moves old s) fun _ => .refl

theorem takeShedLevel_acts (s : State) : Acts s (takeShedLevel s) := by
  have htaken : Acts s { s with sc.shedPin := { s.sc.shedPin with taken := s.sc.shedPin.level } } := .site (.shedPin s _)
  unfold takeShedLevel
  exact .ite (fun _ => htaken) fun _ => htaken.trans (shedChanged_moves _).acts

/-! ## The end of a pass -/

theorem Edit.running {s t : State} (e : Edit s t) (h : s.al.passState = .running) : t.al.passState = .running := by
  cases e with
  | pass => rw [requestPass_running h]; exact h
  | bay | slot | counters | notice | queue | credits | account => exact h

/-- A RUNNING pass runs on under small edits. -/
theorem Edits.running {s t : State} (e : Edits s t) (h : s.al.passState = .running) : t.al.passState = .running := by
  induction e with
  | refl => exact h
  | tail _ e ih => exact e.running ih

theorem writeAllGrants_acts (cs : List Claim) (s : State) : Acts s (writeAllGrants cs s) :=
  .foldl (fun t b => by
    refine .ite (fun _ => ?_) fun _ => .refl t
    split
    · exact writeGrantSet_acts b _ t
    · exact .refl t) _ s

theorem stillEligible_queued {s : State} {c : Claim} (h : s.stillEligible c = true) :
    (s.slot c.slot).state.queued = true := by
  simp only [State.stillEligible, Bool.and_eq_true, Bool.or_eq_true, beq_iff_eq] at h
  exact queued_of_waiting h.1.1.1.2

theorem foldl_stateStep_acts (s : State) (cs : List Claim) (t : State)
    (h : ∀ c, s.stillEligible c = true → (t.slot c.slot).state.queued = true) : Acts t (cs.foldl (stateStep s) t) := by
  induction cs generalizing t with
  | nil => exact .refl t
  | cons c cs ih =>
    rw [List.foldl_cons]
    by_cases hc : s.stillEligible c = true
    · have hnew : SessionState.queued (if 0 < c.g then .charging else .waiting) = true := by split <;> rfl
      have hstep : stateStep s t c = t.modSlot c.slot fun x => { x with state := if 0 < c.g then .charging else .waiting } :=
        if_pos hc
      rw [hstep]
      refine Acts.trans ?_ (ih _ fun d hd => ?_)
      · exact .session (.queuedState t c.slot _ (h c hc) hnew ⟨rfl, rfl, rfl, rfl, rfl, rfl, rfl, rfl⟩
          ⟨rfl, rfl, rfl, rfl, rfl⟩)
      by_cases hslot : d.slot = c.slot
      · rw [hslot, slot_modSlot_same]
        exact hnew
      · rw [slot_modSlot_ne _ _ hslot]
        exact h d hd
    · have hstep : stateStep s t c = t := if_neg hc
      rw [hstep]
      exact ih t h

/-- The grants, the session states and the notice written at the end of a pass. -/
theorem passWrites_acts (cs : List Claim) (held : Nat) (s : State) :
    Acts s (countHeld held (writeSessionStates cs (writeAllGrants cs s))) := by
  refine Acts.trans ?_ (Acts.ite (fun _ => countNotice_acts _ _ _ _) fun _ => .refl _)
  refine (writeAllGrants_acts cs s).trans ?_
  rw [writeSessionStates_eq]
  exact foldl_stateStep_acts _ _ _ fun c hc => stillEligible_queued hc

theorem writeResults_passState (n : Snapshot) (c : Computed) (s : State) :
    (writeResults n c s).al.passState = s.al.passState := by
  unfold writeResults
  dsimp only [writeLimits]

/-- The results written and the pass ended. -/
theorem passFinish_acts (n : Snapshot) (c : Computed) {s : State} (h : s.al.passState = .running) :
    Acts s (finishPass (writeResults n c s)) :=
  (Acts.site (.results s n c)).trans (.site (.finish _ ((writeResults_passState n c s).trans h)))

theorem endPass_acts {s : State} (n : Snapshot) (h : s.al.passState = .running) : Acts s (endPass n s) := by
  unfold endPass
  generalize n.compute = c
  have hedits := ((writeAllGrants_edits c.claims s).trans (writeSessionStates_edits c.claims _)).trans
    (countHeld_edits c.held _)
  exact (passWrites_acts c.claims c.held s).trans (passFinish_acts n c (hedits.running h))

/-! ## Site configuration, clock and tariff -/

theorem siteLimitsAct_acts (p : List Byte) (s : State) : Acts s (siteLimitsAct p s).2 := by
  unfold siteLimitsAct
  split
  · exact .refl s
  · split
    · exact .refl s
    · exact (Acts.site (.limits s (arg p 0 2) (arg p 2 2) (arg p 4 2))).trans (requestPass_acts _)

theorem fallbackLoadAct_acts (p : List Byte) (s : State) : Acts s (fallbackLoadAct p s).2 := by
  unfold fallbackLoadAct
  split
  · exact .refl s
  · split
    · exact .refl s
    · dsimp only
      split
      · exact .site (.fallback s .follow fun n h => by cases h)
      · exact .site (.fallback s (.fixed (min 20000 (arg p 0 2))) fun n h => by cases h; exact Nat.min_le_left _ _)

theorem batteryAct_acts (p : List Byte) (s : State) : Acts s (batteryAct p s).2 := by
  unfold batteryAct
  split
  · exact .refl s
  · split
    · exact .refl s
    · exact (Acts.site (.battery s _ _ _ _ (Nat.min_le_left _ _) (Nat.min_le_right _ _) (Nat.min_le_left _ _)
        (Nat.min_le_left _ _))).trans (requestPass_acts _)

theorem layoutAct_acts (p : List Byte) (s : State) : Acts s (layoutAct p s).2 := by
  unfold layoutAct
  split
  · exact .refl s
  · split
    · exact .refl s
    · dsimp only
      split
      · exact .refl s
      · split
        · exact .refl s
        · exact .declaration (.layout s (arg p 0 1) p (by omega))

theorem timingAct_acts (p : List Byte) (s : State) : Acts s (timingAct p s).2 := by
  unfold timingAct
  split
  · exact .refl s
  · split
    · exact .refl s
    · split
      · exact .refl s
      · exact .site (.timing s _)

theorem linesAct_acts (p : List Byte) (s : State) : Acts s (linesAct p s).2 := by
  unfold linesAct
  split
  · exact .refl s
  · split
    · exact .refl s
    · split
      · exact .refl s
      · exact .single (.lines s _)

theorem clockAct_acts (p : List Byte) (s : State) : Acts s (clockAct p s).2 := by
  unfold clockAct
  split
  · exact .refl s
  · split
    · exact .refl s
    · split
      · exact .refl s
      · next hsecond =>
        have hday := arg_lt p 0 2
        have hset : Acts s { s with tc := { s.tc with day := arg p 0 2, second := arg p 2 4, millis := 0 } } :=
          .site (.clock s _ _ _ (by omega) (by omega))
        exact .ite (fun _ => hset.trans (.store (.rollover _ _))) fun _ => hset

theorem storedBand_range {p : List Byte} {n : BandId} (h : bandRefused p n = false) :
    (∀ m, (storedBand p n).start = some m → m ≤ 1439) ∧ (storedBand p n).price ≤ 9999 := by
  unfold storedBand
  split
  · simp
  · next hstart =>
    simp only [bandRefused, Bool.and_eq_false_iff, bne_eq_false_iff_eq, hstart, false_or, Bool.or_eq_false_iff,
      decide_eq_false_iff_not, not_lt] at h
    exact ⟨fun m hm => by cases hm; exact h.1, h.2⟩

theorem tariffAct_acts (p : List Byte) (s : State) : Acts s (tariffAct p s).2 := by
  unfold tariffAct
  split
  · exact .refl s
  · split
    · exact .refl s
    · split
      · exact .refl s
      · next hgood =>
        rw [not_or] at hgood
        refine .site (.tariff s _ _ (fun n => ?_) (by omega))
        have hn : bandRefused p n = false := by
          have := hgood.1
          simp only [List.any_eq_true, not_exists, not_and, Bool.not_eq_true] at this
          exact this n (List.mem_finRange n)
        simpa using storedBand_range hn

theorem blockSizeAct_acts (p : List Byte) (s : State) : Acts s (blockSizeAct p s).2 := by
  unfold blockSizeAct
  split
  · exact .refl s
  · split
    · exact .refl s
    · split
      · exact .refl s
      · exact .site (.blockSize s _ (by omega) (by omega))

/-! ## Declarations -/

theorem joinPollList_acts (e : Entry) (s : State) : Acts s (joinPollList e s) :=
  .ite (fun _ => .site (.loop s _ rfl)) fun _ => .refl s

theorem joinPollList_liveSlot (e : Entry) (s : State) (b : BayId) : (joinPollList e s).liveSlot b = s.liveSlot b := by
  unfold joinPollList
  split <;> rfl

theorem joinPollList_sc (e : Entry) (s : State) : (joinPollList e s).sc = s.sc := by
  unfold joinPollList
  split <;> rfl

theorem liveSlot_of_not_inUse {s : State} {b : BayId} (h : ¬s.bayInUse b = true) : s.liveSlot b = none := by
  simp only [State.bayInUse, Bool.or_eq_true, not_or, Bool.not_eq_true, Option.isSome_eq_false_iff,
    Option.isNone_iff_eq_none] at h
  exact h.1

theorem clamp_range {lo hi : Nat} (n : Nat) (h : lo ≤ hi) : lo ≤ clamp lo hi n ∧ clamp lo hi n ≤ hi := by
  unfold clamp
  omega

theorem BayKind.minSteps_le (kind : BayKind) : kind.minSteps ≤ kind.maxBound := by cases kind <;> decide

theorem declareBayAt_acts {b : BayId} {s : State} (kind : BayKind) (asked width : Nat) (h : s.liveSlot b = none) :
    Acts s (declareBayAt b kind (clamp kind.minSteps kind.maxBound asked) width s) := by
  obtain ⟨hlow, hhigh⟩ := clamp_range asked kind.minSteps_le
  unfold declareBayAt
  dsimp only
  have hjoined : Acts s (if (s.device (Role.bay b).entry).declared then s else joinPollList (Role.bay b).entry s) :=
    .ite (fun _ => .refl s) fun _ => joinPollList_acts _ s
  have hlive : (if (s.device (Role.bay b).entry).declared then s else joinPollList (Role.bay b).entry s).liveSlot b = none := by
    split
    · exact h
    · rw [joinPollList_liveSlot, h]
  have hsc : (if (s.device (Role.bay b).entry).declared then s else joinPollList (Role.bay b).entry s).sc = s.sc := by
    split
    · rfl
    · exact joinPollList_sc _ s
  refine hjoined.trans ?_
  generalize (if (s.device (Role.bay b).entry).declared then s else joinPollList (Role.bay b).entry s) = t at hlive hsc ⊢
  rw [← hsc]
  exact .declaration (.declare t b kind _ width hlow hhigh hlive)

theorem removeBayAt_acts {b : BayId} {s : State} (h : s.liveSlot b = none) : Acts s (removeBayAt b s) := by
  unfold removeBayAt
  refine .ite (fun _ => ?_) fun _ => .refl s
  have hremoved : ∀ x : FieldLoop, x.devices = s.flc.devices → Acts s
      ((({ s with flc := x }).setDevice (Role.bay b).entry { kind := resetKind (Role.bay b).entry }).setBay b
        { feeder := feederOf s.sc.layoutMode b }) := fun x hx =>
    (Acts.site (.loop s x hx)).trans (.declaration (.remove { s with flc := x } b h))
  unfold clearDevice
  dsimp only
  split
  · exact hremoved { s.flc with exchange := s.flc.exchange.markRemoved (Role.bay b).entry, start := none } rfl
  · exact hremoved { s.flc with exchange := s.flc.exchange.markRemoved (Role.bay b).entry } rfl

theorem declareBayAct_acts (p : List Byte) (s : State) : Acts s (declareBayAct p s).2 := by
  unfold declareBayAct
  split
  · exact .refl s
  · split
    · exact .refl s
    · split
      · exact .refl s
      · split
        · exact .refl s
        · next hfree => exact removeBayAt_acts (liveSlot_of_not_inUse hfree)
      · split
        · exact .refl s
        · split
          · exact .refl s
          · next hfree => exact declareBayAt_acts _ _ _ (liveSlot_of_not_inUse hfree)

theorem clearSource_acts (r : Role) (s : State) : Acts s (clearSource r s) := by
  cases r with
  | bay b => exact .refl s
  | canopy k => exact records_acts s _ s.al.permit s.al.storeLoad s.al.battery (.inl rfl)
  | battery => exact records_acts s s.al.inverters s.al.permit s.al.storeLoad _ (.inr rfl)
  | meter => exact records_acts s s.al.inverters s.al.permit 0 s.al.battery (.inl rfl)

/-- The roles that a source address names have entries above those of the bays. -/
theorem sourceAt_entry {a : Nat} {r : Role} (h : sourceAt a = some r) : 48 ≤ r.entry.val := by
  unfold sourceAt at h
  split at h
  · cases h; simp [Role.entry]
  · split at h
    · cases h; decide
    · split at h
      · cases h; decide
      · cases h

theorem startSource_acts {r : Role} (hr : 48 ≤ r.entry.val) (s : State) : Acts s (startSource r s) :=
  ((Acts.site (.source s r.entry { kind := resetKind r.entry } hr (.inr (Nat.zero_le _)))).trans
    (clearSource_acts r _)).trans (joinPollList_acts _ _)

theorem clearDevice_acts {e : Entry} (he : 48 ≤ e.val) (s : State) : Acts s (clearDevice e s) := by
  have hcleared : Acts s ((s.setDevice e { kind := resetKind e }).setExchange (s.flc.exchange.markRemoved e)) :=
    (Acts.site (.source s e { kind := resetKind e } he (.inr (Nat.zero_le _)))).trans (.site (.loop _ _ rfl))
  exact .ite (fun _ => hcleared.trans (.site (.loop _ _ rfl))) fun _ => hcleared

theorem declareSourceAt_acts {r : Role} (hr : 48 ≤ r.entry.val) (rating : Nat) (s : State) :
    Acts s (declareSourceAt r rating s) := by
  unfold declareSourceAt
  dsimp only
  refine Acts.trans ?_ (requestPass_acts _)
  have hlisted : Acts s (if (s.device r.entry).declared then s else startSource r s) :=
    .ite (fun _ => .refl s) fun _ => startSource_acts hr s
  have hmarked : Acts s ((if (s.device r.entry).declared then s else startSource r s).modDevice r.entry
      fun d => { d with declared := true }) := hlisted.trans (.site (.source _ r.entry _ hr (.inl rfl)))
  refine hmarked.trans ?_
  generalize State.modDevice _ _ _ = t
  cases r with
  | bay b => exact .refl _
  | canopy k => exact records_acts t _ t.al.permit t.al.storeLoad t.al.battery (.inl rfl)
  | battery => exact .ite (fun _ => .refl _) fun _ => records_acts t t.al.inverters t.al.permit t.al.storeLoad _ (.inr rfl)
  | meter => exact .refl _

theorem removeSourceAt_acts {r : Role} (hr : 48 ≤ r.entry.val) (s : State) : Acts s (removeSourceAt r s) := by
  unfold removeSourceAt
  refine .ite (fun _ => ?_) fun _ => .refl s
  dsimp only
  have hcleared := (clearDevice_acts hr s).trans (clearSource_acts r _)
  exact Acts.trans (.ite (fun _ => hcleared.trans (grantReserve_acts _)) fun _ => hcleared) (requestPass_acts _)

theorem declareSourceAct_acts (p : List Byte) (s : State) : Acts s (declareSourceAct p s).2 := by
  unfold declareSourceAct
  split
  · exact .refl s
  · split
    · exact .refl s
    · next r hr =>
      split
      · exact .refl s
      · split
        · exact declareSourceAt_acts (sourceAt_entry hr) _ s
        · split
          · exact removeSourceAt_acts (sourceAt_entry hr) s
          · exact .refl s

theorem clearFaultAt_acts {b : BayId} {s : State} (h : (s.bay b).state = .fault) : Acts s (clearFaultAt b s) := by
  have hstate : ((writeGrants b 0 0 s).bay b).state = .fault := by rw [writeGrants_bay]; exact h
  refine (writeGrants_acts b 0 0 s).trans ?_
  refine .session (.vacate _ b _ ⟨rfl, rfl, rfl, rfl, rfl, rfl⟩ (.inr (by rw [hstate]; simp)) ?_ (.inl rfl) rfl)
  dsimp only
  split <;> simp

theorem clearBayFaultAct_acts (p : List Byte) (s : State) : Acts s (clearBayFaultAct p s).2 := by
  unfold clearBayFaultAct
  split
  · exact .refl s
  · split
    · exact .refl s
    · split
      · exact .refl s
      · next hfault =>
        split
        · exact .refl s
        · exact clearFaultAt_acts (not_not.mp hfault)

/-! ## The credit store and the notices -/

theorem attachIssued_acts {key : Nat} {s : State} {c : Credit} (bay : Option Nat) (hfound : lookupCredit key s = some c)
    (hissued : c.state = .issued) : Acts s (attachIssued key bay s) := by
  unfold attachIssued
  split
  · exact .refl s
  · split
    next k hlive =>
      exact .ite (fun hkey => .charge (.attach s key k _ c hfound hissued hlive (.inr hkey))) fun _ => .refl s
    · exact .refl s

theorem find_insertCredit (c : Credit) {cs : List Credit} (h : ∀ x ∈ cs, x.key ≠ c.key) :
    (insertCredit c cs).find? (fun x => x.key == c.key) = some c := by
  induction cs with
  | nil => simp [insertCredit]
  | cons x xs ih =>
    unfold insertCredit
    split
    · simp
    · have hx : (x.key == c.key) = false := by simpa using h x (by simp)
      rw [List.find?_cons, hx]
      exact ih fun y hy => h y (by simp [hy])

/-- A record just issued is the one its key finds. -/
theorem lookupCredit_issued {a : IssueArgs} {s : State} (hvalid : a.valid = true) (hnew : lookupCredit a.key s = none)
    (day : Nat) : lookupCredit a.key (s.setCredits (insertCredit (issuedCredit a day) s.cs.credits)) =
      some (issuedCredit a day) := by
  have hkey : a.key ≠ 0 := by
    simp only [IssueArgs.valid, Bool.and_eq_true, bne_iff_ne] at hvalid
    exact hvalid.1.1.1.1.1.1
  rw [lookupCredit, if_neg hkey, List.find?_eq_none] at hnew
  rw [lookupCredit, if_neg hkey]
  exact find_insertCredit (issuedCredit a day) fun x hx => by
    change x.key ≠ a.key
    simpa using hnew x hx

theorem issueCreditAct_acts (p : List Byte) (s : State) : Acts s (issueCreditAct p s).2 := by
  unfold issueCreditAct
  dsimp only
  split
  · exact .refl s
  · split
    · exact .refl s
    · next hvalid =>
      split
      · exact .refl s
      · next hnew =>
        split
        · exact countNotice_acts _ _ _ s
        · next hroom =>
          have hvalid : (issueArgs p).valid = true := by simpa using hvalid
          have hnew : lookupCredit (issueArgs p).key s = none := by simpa using hnew
          exact (Acts.store (.issue s _ hvalid hnew (by omega))).trans
            (attachIssued_acts _ (lookupCredit_issued hvalid hnew _) rfl)

theorem declineAct_acts (p : List Byte) (s : State) : Acts s (declineAct p s).2 := by
  unfold declineAct
  split
  · exact .refl s
  · split
    · exact .refl s
    · split
      · exact (emptyScan_acts _ s).trans (setMessage_acts _ _ _)
      · exact .refl s

theorem voidCreditAct_acts (p : List Byte) (s : State) : Acts s (voidCreditAct p s).2 := by
  unfold voidCreditAct
  dsimp only
  split
  · exact .refl s
  · split
    · exact .refl s
    · split
      · exact .refl s
      · next c hfound =>
        split
        · next h => exact .store (.retire s _ c hfound h)
        · next h => exact .store (.void s _ c hfound h)

theorem accountAct_acts (p : List Byte) (s : State) : Acts s (accountAct p s).2 := by
  unfold accountAct
  split
  · exact .refl s
  · split
    · exact .refl s
    · next a hargs =>
      split
      · exact .refl s
      · next hfree =>
        split
        · exact .refl s
        · next huse => exact .store (.account s p a hargs (by simpa using hfree) (by simpa using huse))

theorem ackNoticeAct_acts (p : List Byte) (s : State) : Acts s (ackNoticeAct p s).2 := by
  unfold ackNoticeAct
  split
  · exact .refl s
  · split
    · exact .refl s
    · exact .site (.acknowledge s _)

theorem noticeMaskAct_acts (p : List Byte) (s : State) : Acts s (noticeMaskAct p s).2 := by
  unfold noticeMaskAct
  split
  · exact .refl s
  · split
    · exact .refl s
    · exact .site (.masks s _)

/-! ## The session commands -/

theorem takeReceiptAt_acts (k : SlotId) (s : State) : Acts s (takeReceiptAt k s).2 := by
  by_cases h : (s.slot k).state = .settled
  · exact .session (.collect s k h)
  · rw [takeReceiptAt, if_neg h]
    exact .refl s

theorem stopAt_acts (k : SlotId) (s : State) : Acts s (stopAt k s).2 := by
  unfold stopAt
  split
  · exact stopSession_acts k _ s
  · exact .refl s

theorem suspendAt_acts (k : SlotId) (s : State) : Acts s (suspendAt k s).2 := by
  unfold suspendAt commandSuspend
  split
  · next h =>
    refine .ite (fun _ => ?_) fun _ => (suspendSlot_moves _ h).acts
    exact modSlot_acts s k _ (fun _ => ⟨rfl, rfl, rfl, rfl, rfl, rfl, rfl, rfl⟩) fun _ => ⟨rfl, rfl, rfl, rfl, rfl⟩
  · exact .refl s

theorem resumeAt_acts (k : SlotId) (s : State) : Acts s (resumeAt k s).2 := by
  unfold resumeAt
  split
  · exact .refl s
  · next h =>
    split
    · exact .refl s
    · exact (resumeSlot_moves (by rw [not_not.mp h]; rfl)).acts

/-- Steps that each act where a slot allows them, taken over slots that all allow them at the start, when each step leaves the
other slots. -/
theorem foldl_acts_of_slots {f : State → SlotId → State} {ok : Slot → Prop} (hact : ∀ t k, ok (t.slot k) → Acts t (f t k))
    (hother : ∀ t k j, j ≠ k → (f t k).slot j = t.slot j) {l : List SlotId} (hl : l.Nodup) (s : State)
    (hok : ∀ k ∈ l, ok (s.slot k)) : Acts s (l.foldl f s) := by
  induction l generalizing s with
  | nil => exact .refl s
  | cons k l ih =>
    obtain ⟨hk, hl⟩ := List.nodup_cons.mp hl
    refine (hact s k (hok k (by simp))).trans (ih hl _ fun j hj => ?_)
    rw [hother s k j fun h => hk (h ▸ hj)]
    exact hok j (by simp [hj])

theorem resumeSlot_slot_ne (k j : SlotId) (s : State) (h : j ≠ k) : (resumeSlot k s).slot j = s.slot j := by
  rw [resumeSlot, requestPassIf_slot, slot_modSlot_ne _ _ h]

theorem clearSlot_slot_ne (k j : SlotId) (s : State) (h : j ≠ k) : (clearSlot k s).slot j = s.slot j := by
  rw [clearSlot, modBay_slot, (At.settle k _ _ s).slots j h]

theorem indices_filter_nodup {n : Nat} (p : Fin n → Bool) : ((indices n).filter p).Nodup := (List.nodup_finRange n).filter p

theorem resumeAllAct_acts (s : State) : Acts s (resumeAllAct s).2 := by
  refine foldl_acts_of_slots (ok := fun x => x.state.queued = true) (fun t k h => (resumeSlot_moves h).acts)
    (fun t k j => resumeSlot_slot_ne k j t) (indices_filter_nodup _) s fun k hk => ?_
  simp only [List.mem_filter, Bool.and_eq_true, beq_iff_eq] at hk
  rw [hk.2.1]
  rfl

theorem clearSlot_acts {k : SlotId} {s : State} (h : (s.slot k).state.live = true) : Acts s (clearSlot k s) := by
  unfold clearSlot
  dsimp only
  refine (settle_acts (some .siteClear) (afterByPlug (s.bay (s.slot k).bay).plug) h).trans ?_
  exact modBay_acts _ _ _ (fun _ => ⟨rfl, rfl, rfl, rfl, rfl, rfl⟩) fun _ => ⟨rfl, rfl, rfl⟩

theorem clearSiteAct_acts (p : List Byte) (s : State) : Acts s (clearSiteAct p s).2 := by
  unfold clearSiteAct
  split
  · exact .refl s
  · refine foldl_acts_of_slots (ok := fun x => x.state.live = true) (fun t k h => clearSlot_acts h)
      (fun t k j => clearSlot_slot_ne k j t) ((freeOrder_perm _ _).nodup_iff.mpr (indices_filter_nodup _)) s fun k hk => ?_
    exact (List.mem_filter.mp (mem_freeOrder.mp hk)).2

theorem withSlot_acts (p : List Byte) {act : SlotId → State → Reply × State} (h : ∀ k t, Acts t (act k t).2) (s : State) :
    Acts s (withSlot p act s).2 := by
  unfold withSlot
  split
  · exact .refl s
  · split
    · exact .refl s
    · exact h _ s

theorem whenOpen_acts {act : State → Reply × State} (h : ∀ t, Acts t (act t).2) (s : State) :
    Acts s (whenOpen act s).2 := by
  unfold whenOpen
  split
  · exact .refl s
  · exact h s

theorem endLinkWait_acts (b : BayId) (s : State) : Acts s (endLinkWait b s) := by
  unfold endLinkWait
  split
  next h => exact settle_acts _ _ (liveSlot_live h)
  · exact modBay_acts s b _ (fun _ => ⟨rfl, rfl, rfl, rfl, rfl, rfl⟩) fun _ => ⟨rfl, rfl, rfl⟩

/-! ## Every command -/

/-- An outcome that leaves the state, or completes a chain of acts. -/
def Completes (s : State) (o : Outcome) : Prop := ∀ t, o = .next t → t = s ∨ ∃ u, Acts s u ∧ t = completed u

theorem Completes.same (s : State) : Completes s (.next s) := by
  rintro t ⟨⟩
  exact .inl rfl

theorem Acts.done {s t : State} (h : Acts s t) : Completes s (done t) := by
  rintro u hu
  rw [done_eq] at hu
  cases hu
  exact .inr ⟨t, h, rfl⟩

theorem Completes.ite {s : State} {c : Prop} [Decidable c] {o : Outcome} (h : c → Completes s o) :
    Completes s (if c then o else .next s) := by
  split
  · exact h ‹_›
  · exact .same s

theorem serve_completes {i : Instr} {act : State → Reply × State} {s : State} (h : Acts s (act s).2) :
    Completes s (serve i act s) := by
  unfold serve
  split
  · exact .ite fun _ => (h.trans (.site (.port _ _))).done
  · exact .same s
  · exact .same s

theorem hostWriteTransaction_completes (bytes : List Byte) (s : State) :
    Completes s (execHostWriteTransaction bytes s) := by
  unfold execHostWriteTransaction
  split
  · exact .same s
  · split
    · exact (Acts.site (.port s _)).done
    · exact (Acts.site (.drop s)).done
    · exact (Acts.site (.drop s)).done

theorem hostReadTransaction_completes (count : Nat) (s : State) : Completes s (execHostReadTransaction count s) := by
  unfold execHostReadTransaction
  split
  · exact .same s
  · exact (Acts.site (.read s _ _)).done

theorem bayPoll_completes (s : State) : Completes s (execBayPoll s) := by
  unfold execBayPoll
  split
  · exact (sendBayPoll_acts _ s).done
  · exact .same s

theorem sourcePoll_completes (s : State) : Completes s (execSourcePoll s) := by
  have hsent : ∀ e, Completes s (done (sendSourcePoll e s)) := fun e => by
    refine Acts.done (t := sendSourcePoll e s) ?_
    exact Acts.site (.loop s _ rfl)
  unfold execSourcePoll
  split
  · split
    · exact .same s
    all_goals exact hsent _
  · exact .same s

theorem bayPollSent_completes (s : State) : Completes s (execBayPollSent s) := by
  unfold execBayPollSent
  split
  next p _ =>
    split
    · exact (Acts.ite (fun _ => pollSent_acts p s) fun _ => (pollSent_acts p s).trans (pollSentBay_acts _ _ _)).done
    all_goals exact .same s
  all_goals exact .same s

theorem sourcePollSent_completes (s : State) : Completes s (execSourcePollSent s) := by
  unfold execSourcePollSent
  split
  next p _ =>
    split
    · exact .same s
    all_goals exact (pollSent_acts p s).done
  all_goals exact .same s

theorem responseTimeout_completes (s : State) : Completes s (execResponseTimeout s) := by
  unfold execResponseTimeout
  split
  · refine .ite fun _ => Acts.done ?_
    exact .ite (fun _ => endExchange_acts s) fun _ => (endExchange_acts s).trans (takeMiss_acts _ _ _)
  all_goals exact .same s

theorem responseReceived_completes (chars : List RxChar) (s : State) : Completes s (execResponseReceived chars s) := by
  unfold execResponseReceived
  split
  · exact (concludeExchange_acts _ chars s).done
  all_goals exact .same s

theorem passEnd_completes (s : State) : Completes s (execPassEnd s) := by
  unfold execPassEnd
  split
  next h _ => exact (endPass_acts _ h).done
  · exact .same s

theorem linePinChange_completes (line : Line) (level : Level) (s : State) :
    Completes s (execLinePinChange line level s) := by
  cases line with
  | shed => exact (Acts.site (.shedPin s _)).done
  | rsvReq => exact (Acts.site (.rsvReqPin s level)).done

theorem lineQualified_completes (line : Line) (s : State) : Completes s (execLineQualified line s) := by
  cases line with
  | shed => exact .ite fun _ => (takeShedLevel_acts s).done
  | rsvReq => exact .ite fun _ => Acts.done (.single (.rsvReq s))

theorem dayRollover_completes (s : State) : Completes s (execDayRollover s) :=
  .ite fun _ => ((Acts.site (.clock s (min 65535 (s.tc.day + 1)) 0 (s.tc.millis - 1000) (Nat.min_le_left _ _)
    (Nat.zero_le _))).trans (.store (.rollover _ _))).done

/-- Every command but RESET leaves the state, or completes a chain of acts. -/
theorem exec_completes (i : Instr) (s : State) (hreset : i ≠ .reset) : Completes s (exec i s) := by
  cases i with
  | reset => exact absurd rfl hreset
  | hostWriteTransaction bytes => exact hostWriteTransaction_completes bytes s
  | hostReadTransaction count => exact hostReadTransaction_completes count s
  | siteLimits p => exact serve_completes (siteLimitsAct_acts p s)
  | fallbackLoad p => exact serve_completes (fallbackLoadAct_acts p s)
  | battery p => exact serve_completes (batteryAct_acts p s)
  | layout p => exact serve_completes (layoutAct_acts p s)
  | timing p => exact serve_completes (timingAct_acts p s)
  | lines p => exact serve_completes (linesAct_acts p s)
  | declareBay p | removeBay p => exact serve_completes (declareBayAct_acts p s)
  | declareSource p | removeSource p => exact serve_completes (declareSourceAct_acts p s)
  | clock p => exact serve_completes (clockAct_acts p s)
  | tariff p => exact serve_completes (tariffAct_acts p s)
  | blockSize p => exact serve_completes (blockSizeAct_acts p s)
  | issueCredit p => exact serve_completes (issueCreditAct_acts p s)
  | decline p => exact serve_completes (declineAct_acts p s)
  | voidCredit p => exact serve_completes (voidCreditAct_acts p s)
  | queryCredit p =>
    refine serve_completes ?_
    unfold queryCreditAct
    split
    · exact .refl s
    · split <;> exact .refl s
  | account p => exact serve_completes (accountAct_acts p s)
  | readAccount p =>
    refine serve_completes ?_
    unfold readAccountAct
    split
    · exact .refl s
    · split <;> exact .refl s
  | queryPendingList p | listSessions p | readSite p | readNotices p =>
    refine serve_completes ?_
    unfold readAct
    split <;> exact .refl s
  | readSession p => exact serve_completes (withSlot_acts p (fun _ t => .refl t) s)
  | takeReceipt p => exact serve_completes (withSlot_acts p takeReceiptAt_acts s)
  | stop p => exact serve_completes (whenOpen_acts (withSlot_acts p stopAt_acts) s)
  | suspend p => exact serve_completes (whenOpen_acts (withSlot_acts p suspendAt_acts) s)
  | resume p => exact serve_completes (whenOpen_acts (withSlot_acts p resumeAt_acts) s)
  | resumeAll p => exact serve_completes (whenOpen_acts resumeAllAct_acts s)
  | clearSite p => exact serve_completes (whenOpen_acts (clearSiteAct_acts p) s)
  | readBay p =>
    refine serve_completes ?_
    unfold readBayAct
    split
    · exact .refl s
    · split <;> exact .refl s
  | clearBayFault p => exact serve_completes (clearBayFaultAct_acts p s)
  | ackNotice p => exact serve_completes (ackNoticeAct_acts p s)
  | noticeMask p => exact serve_completes (noticeMaskAct_acts p s)
  | linePinChange line level => exact linePinChange_completes line level s
  | lineQualified line => exact lineQualified_completes line s
  | bayPoll => exact bayPoll_completes s
  | sourcePoll => exact sourcePoll_completes s
  | bayPollSent => exact bayPollSent_completes s
  | sourcePollSent => exact sourcePollSent_completes s
  | responseTimeout => exact responseTimeout_completes s
  | responseReceived chars => exact responseReceived_completes chars s
  | passEnd => exact passEnd_completes s
  | refreshTimerExpiry => exact .ite fun _ => ((Acts.site (.refreshed s)).trans (requestPass_acts _)).done
  | authDeadline k => exact .ite fun h => (endOpening_acts _ h.1).done
  | endDeadline k => exact .ite fun h => (endUnconfirmed_acts (by rw [h.1]; rfl)).done
  | ackDeadline b => exact .ite fun _ => (failBay_acts b s).done
  | lostDeadline b => exact .ite fun _ => (endLinkWait_acts b s).done
  | queryDeadline b => exact .ite fun _ => ((emptyScan_acts b s).trans (setMessage_acts b _ _)).done
  | dayRollover => exact dayRollover_completes s
  | badRequestFrame bytes => exact serve_completes (.refl s)


/-- What a step can do: a ms or a command that changes nothing, a chain of acts completed, or RESET. -/
theorem step_cases {s t : State} (h : step s = .next t) :
    (s.pending = [] ∧ t = tick s)
      ∨ ∃ i rest, s.pending = i :: rest ∧ (t = { s with pending := rest }
        ∨ (∃ u, Acts { s with pending := rest } u ∧ t = completed u) ∨ exec .reset { s with pending := rest } = .next t) := by
  unfold step at h
  split at h
  · next hq => cases h; exact .inl ⟨hq, rfl⟩
  · next i rest hq =>
    refine .inr ⟨i, rest, hq, ?_⟩
    by_cases hreset : i = .reset
    · subst hreset
      exact .inr (.inr h)
    · rcases exec_completes i _ hreset t h with h | h
      · exact .inl h
      · exact .inr (.inl h)

end Sys2Proof.Machine
end

section
/-! # The allocator's invariants (O55)

Within a step a pass that has begun is RUNNING without a snapshot until the step ends (log 6), so the acts keep `PassInvBegun`, which
the end of the step turns into `PassInv`. -/

namespace Sys2Proof.Machine

/-! ## Invariants over the acts of a step -/

/-- Every move of a session is a chain of small edits. -/
theorem SessionMove.edits {s t : State} (h : SessionMove s t) : Edits s t := by
  cases h with
  | pass => exact requestPass_edits s
  | notice n a key => exact countNotice_edits n a key s
  | slotMarks k x | queuedState k x => exact setSlot_edits s k x
  | bayMarks b x hdecl | vacate b x hdecl => exact setBay_edits hdecl
  | authorise k => exact authorise_edits k s
  | ending k cause => exact endingBay_edits k cause s
  | settle k cause after => exact settle_edits k cause after s
  | abandon k => exact abandon_edits k s
  | opening b k =>
    refine Edits.trans ?_ (modBay_edits _ b _ fun _ => ⟨rfl, rfl, rfl, rfl, rfl, rfl⟩)
    exact (setSlot_edits s k _).trans (.one (.counters _ _ s.st.arrival))
  | emptyScan b => exact emptyScan_edits b s
  | pending key b => exact makePending_edits key b s
  | collect k => exact takeReceiptAt_edits k s

theorem accruedState_edits (k : SlotId) (delta : Nat) (s : State) : Edits s (accruedState k delta s) :=
  (modSlot_edits s k _).trans (coverAll_edits k _ _ _ _)

theorem ChargeMove.edits {s t : State} (h : ChargeMove s t) : Edits s t := by
  cases h with
  | attach key k b => exact attach_edits key k b s
  | token i k b hroom => exact acceptToken_edits i k b s hroom
  | accrued k delta => exact accruedState_edits k delta s

/-- A property that holds after RESET and that the passing of time, the queue of commands, every act and the end of a step keep:
between steps as `P`, and within a step as `W`. -/
theorem step_keeps {P W : State → Prop} (htick : ∀ s, P s → P (tick s))
    (hqueue : ∀ (s : State) rest, P s → P { s with pending := rest }) (hwithin : ∀ s, P s → W s)
    (hact : ∀ {s t}, Act s t → W s → W t) (hdone : ∀ s, W s → P (completed s))
    (hreset : ∀ s t, exec .reset s = .next t → P t) {s t : State} (h : step s = .next t) (hs : P s) : P t := by
  rcases step_cases h with ⟨-, rfl⟩ | ⟨i, rest, -, rfl | ⟨u, hacts, rfl⟩ | hr⟩
  · exact htick s hs
  · exact hqueue s rest hs
  · exact hdone u (hacts.keep hact (hwithin _ (hqueue s rest hs)))
  · exact hreset _ _ hr

/-! ## The pass (R10, R69, R70) -/

/-- The allocator inside a step: as `PassInv` says, but for a pass that has begun and is not sampled yet. -/
structure PassInvBegun (s : State) : Prop where
  snapshot : s.al.snapshot.isSome = true → s.al.passState = .running
  refresh : s.al.passState = .running → s.al.refresh = none
  again : s.al.passState = .idle → s.al.again = false
  closed : s.sc.gate = .closed → s.al.passState = .idle ∧ s.al.refresh = none
  opened : s.sc.gate = .opened → s.al.pendingRequest = false

theorem PassInv.begun {s : State} (h : PassInv s) : PassInvBegun s :=
  ⟨h.1.mpr, h.2.1, h.2.2.1, h.2.2.2.1, h.2.2.2.2⟩

/-- What the pass invariants speak of. -/
def passPart (s : State) : Gate × PassState × Option Snapshot × Bool × Bool × Option Nat :=
  (s.sc.gate, s.al.passState, s.al.snapshot, s.al.again, s.al.pendingRequest, s.al.refresh)

theorem PassInvBegun.frame {s t : State} (h : PassInvBegun s) (heq : passPart t = passPart s) : PassInvBegun t := by
  simp only [passPart, Prod.mk.injEq] at heq
  obtain ⟨hgate, hstate, hsnap, hagain, hpending, hrefresh⟩ := heq
  obtain ⟨h1, h2, h3, h4, h5⟩ := h
  constructor
  · rw [hsnap, hstate]; exact h1
  · rw [hstate, hrefresh]; exact h2
  · rw [hstate, hagain]; exact h3
  · rw [hgate, hstate, hrefresh]; exact h4
  · rw [hgate, hpending]; exact h5

theorem PassInvBegun.completed {s : State} (h : PassInvBegun s) : PassInv (completed s) := by
  have hsampled := sampleIfBegun_sampled s
  refine ⟨⟨hsampled, fun hsome => ?_⟩, by simpa using h.refresh, by simpa using h.again, by simpa using h.closed,
    by simpa using h.opened⟩
  by_cases hrun : s.al.passState = .running
  · simpa using hrun
  · have : sampleIfBegun s = s := if_neg fun hc => hrun hc.1
    rw [Machine.completed, this] at hsome
    exact absurd (h.snapshot hsome) hrun

theorem PassInvBegun.requestPass {s : State} (h : PassInvBegun s) : PassInvBegun (requestPass s) := by
  cases hstate : s.al.passState with
  | running =>
    rw [requestPass_running hstate]
    exact ⟨h.snapshot, h.refresh, fun hidle => absurd (hstate.symm.trans hidle) (by decide), h.closed, h.opened⟩
  | idle =>
    cases hgate : s.sc.gate with
    | closed =>
      rw [requestPass_closed hstate hgate]
      exact ⟨h.snapshot, h.refresh, h.again, h.closed, fun ho => absurd (hgate.symm.trans ho) (by decide)⟩
    | opened =>
      rw [requestPass_begins hstate hgate]
      exact ⟨fun _ => rfl, fun _ => rfl, fun hidle => absurd hidle (by decide : PassState.running ≠ .idle),
        fun hc => absurd (hgate.symm.trans hc) (by decide), fun _ => rfl⟩

theorem PassInvBegun.edits {s t : State} (h : PassInvBegun s) (e : Edits s t) : PassInvBegun t := by
  induction e with
  | refl => exact h
  | tail _ e ih =>
    cases e with
    | pass => exact ih.requestPass
    | bay | slot | counters | notice | queue | credits | account => exact ih.frame rfl

theorem PassInvBegun.openGateIfMarked {s : State} (h : PassInvBegun s) : PassInvBegun (openGateIfMarked s) := by
  unfold Machine.openGateIfMarked
  split
  · next hc =>
    have hidle := (h.closed hc.1).1
    have hbegins := requestPass_begins (s := { s with sc.gate := .opened }) hidle rfl
    rw [hbegins]
    exact ⟨fun _ => rfl, fun _ => rfl, fun hi => absurd hi (by decide : PassState.running ≠ .idle),
      fun hc => absurd hc (by decide : Gate.opened ≠ .closed), fun _ => rfl⟩
  · exact h

theorem PassInvBegun.finishPass {s : State} (h : PassInvBegun s) (hrun : s.al.passState = .running) :
    PassInvBegun (finishPass s) := by
  have hgate : s.sc.gate ≠ .closed := fun hc => absurd (hrun.symm.trans (h.closed hc).1) (by decide)
  unfold Machine.finishPass
  split
  · exact ⟨fun _ => rfl, fun _ => rfl, fun hi => absurd hi (by decide : PassState.running ≠ .idle),
      fun hc => absurd hc hgate, h.opened⟩
  · next hagain =>
    exact ⟨fun hn => absurd hn (by decide : (none : Option Snapshot).isSome ≠ true), fun hr => absurd hr (by decide : PassState.idle ≠ .running),
      fun _ => by simpa using hagain, fun hc => absurd hc hgate, h.opened⟩

theorem PassInvBegun.rsvReqChanged {s : State} (h : PassInvBegun s) : PassInvBegun (rsvReqChanged s) := by
  unfold Machine.rsvReqChanged claimReserve releaseReserve zeroSetpoint grantReserve
  split
  · refine PassInvBegun.edits ?_ (countNotice_edits _ _ _ _)
    refine PassInvBegun.requestPass (h.frame ?_)
    split <;> split <;> (try split) <;> rfl
  · refine PassInvBegun.edits ?_ (countNotice_edits _ _ _ _)
    exact PassInvBegun.requestPass (h.frame rfl)

/-- Re-evaluations of both lines in a LINES write, in the order given or in the free one (log 10). -/
theorem applyLines_keeps {P : State → Prop} (new : LineSettings) (s : State) (hlines : P { s with sc.lines := new })
    (hshed : ∀ t, P t → P (reevaluateShed s.shedActive s.sc.lines.scope t))
    (hrsv : ∀ t, P t → P (reevaluateRsvReq s.rsvReqActive t)) : P (applyLines new s) := by
  unfold applyLines
  dsimp only
  split
  · generalize freeOrder s.freeDraws [Line.shed, Line.rsvReq] = l
    generalize { s with sc.lines := new } = t at hlines
    induction l generalizing t with
    | nil => exact hlines
    | cons x l ih =>
      cases x with
      | shed => exact ih _ (hshed t hlines)
      | rsvReq => exact ih _ (hrsv t hlines)
  · exact hrsv _ (hshed _ hlines)

theorem PassInvBegun.site {s t : State} (h : PassInvBegun s) (m : SiteMove s t) : PassInvBegun t := by
  cases m with
  | limits c m x => exact PassInvBegun.openGateIfMarked (h.frame rfl)
  | refreshed => exact ⟨h.snapshot, fun _ => rfl, h.again, fun hc => ⟨(h.closed hc).1, rfl⟩, h.opened⟩
  | finish hrun => exact h.finishPass hrun
  | results n c =>
    refine h.frame ?_
    unfold writeResults passPart
    dsimp only [writeLimits]
  | grantReserve =>
    refine h.frame ?_
    unfold grantReserve
    split <;> rfl
  | port | drop | read | masks | acknowledge | fallback | battery | timing | shedPin | rsvReqPin | clock | tariff
    | blockSize | device | source | loop | records => exact h.frame rfl

theorem PassInvBegun.act {s t : State} (a : Act s t) (h : PassInvBegun s) : PassInvBegun t := by
  cases a with
  | session m => exact h.edits m.edits
  | store m =>
    cases m with
    | issue | retire | void | rollover | account => exact h.frame rfl
  | declaration m =>
    cases m with
    | declare | remove | matched => exact h.frame rfl
    | layout mode p => exact PassInvBegun.openGateIfMarked (h.frame rfl)
  | site m => exact h.site m
  | charge m => exact h.edits m.edits
  | lines new =>
    refine applyLines_keeps new s (h.frame rfl) (fun t ht => ht.edits (reevaluateShed_edits _ _ t)) fun t ht => ?_
    unfold reevaluateRsvReq
    split
    · exact ht.rsvReqChanged
    · exact ht
  | rsvReq =>
    unfold takeRsvReqLevel
    dsimp only
    split
    · exact h.frame rfl
    · exact PassInvBegun.rsvReqChanged (h.frame rfl)

/-! ## The gate (R9) -/

/-- The opening of the gate brings it in agreement with its marks, once one of them has been given. -/
theorem GateInv.openGateIfMarked {s : State}
    (h : s.sc.gate = .opened → s.sc.limitsMark = true ∧ s.sc.layoutMark = true) : GateInv (openGateIfMarked s) := by
  unfold Machine.openGateIfMarked
  split
  · next hc =>
    unfold GateInv evalAttn
    simp [hc.2]
  · next hc =>
    refine ⟨h, fun hmarks => ?_⟩
    cases hgate : s.sc.gate with
    | opened => rfl
    | closed => exact absurd ⟨hgate, hmarks.1, hmarks.2⟩ hc

theorem openGateIfMarked_al (s : State) : (openGateIfMarked s).al.share = s.al.share
    ∧ (openGateIfMarked s).al.battery = s.al.battery := by
  unfold openGateIfMarked evalAttn
  split <;> simp

theorem openGateIfMarked_reserve (s : State) : (openGateIfMarked s).sc.reserve = s.sc.reserve
    ∧ (openGateIfMarked s).rsvReqActive = s.rsvReqActive := by
  unfold openGateIfMarked evalAttn
  split
  · simp only [State.rsvReqActive, requestPass_sc]
    exact ⟨trivial, trivial⟩
  · exact ⟨rfl, rfl⟩

/-! ## The reserve (R16, R89, R108) -/

/-- The reserve follows a line state, and the setpoint held is 0 while it is not FREE. -/
def ReserveFollows (active : Bool) (s : State) : Prop :=
  (active = true ↔ s.sc.reserve ≠ .free) ∧ (s.sc.reserve ≠ .free → s.al.battery.setpoint = 0)

theorem ReserveFollows.frame {a : Bool} {s t : State} (h : ReserveFollows a s) (hreserve : t.sc.reserve = s.sc.reserve)
    (hsetpoint : t.al.battery.setpoint = s.al.battery.setpoint ∨ t.al.battery.setpoint = 0) : ReserveFollows a t := by
  obtain ⟨hfollow, hzero⟩ := h
  refine ⟨by rw [hreserve]; exact hfollow, fun hn => ?_⟩
  rw [hreserve] at hn
  rcases hsetpoint with h | h
  · rw [h]; exact hzero hn
  · exact h

/-- A move that leaves the line state of RSV_REQ and the reserve, and the setpoint as it is or at 0. -/
theorem ReserveInv.frame {s t : State} (h : ReserveInv s) (hactive : t.rsvReqActive = s.rsvReqActive)
    (hreserve : t.sc.reserve = s.sc.reserve)
    (hsetpoint : t.al.battery.setpoint = s.al.battery.setpoint ∨ t.al.battery.setpoint = 0) : ReserveInv t := by
  change ReserveFollows t.rsvReqActive t
  rw [hactive]
  exact ReserveFollows.frame h hreserve hsetpoint

theorem ReserveFollows.edits {a : Bool} {s t : State} (h : ReserveFollows a s) (e : Edits s t) : ReserveFollows a t :=
  h.frame (congrArg SiteConfig.reserve e.untouched.sc) (.inl (congrArg BatteryRecord.setpoint e.untouched.battery))

theorem Edits.rsvReqActive {s t : State} (e : Edits s t) : t.rsvReqActive = s.rsvReqActive := by
  simp only [State.rsvReqActive, e.untouched.sc]

theorem ReserveInv.edits {s t : State} (h : ReserveInv s) (e : Edits s t) : ReserveInv t :=
  h.frame e.rsvReqActive (congrArg SiteConfig.reserve e.untouched.sc)
    (.inl (congrArg BatteryRecord.setpoint e.untouched.battery))

theorem grantReserve_reserve (s : State) : (grantReserve s).sc.reserve ≠ .free ↔ s.sc.reserve ≠ .free := by
  unfold grantReserve
  split
  · next h => simp [h]
  · rfl

theorem grantReserve_rest (s : State) : (grantReserve s).rsvReqActive = s.rsvReqActive ∧ (grantReserve s).al = s.al := by
  unfold grantReserve
  split <;> exact ⟨rfl, rfl⟩

theorem ReserveInv.grantReserve {s : State} (h : ReserveInv s) : ReserveInv (grantReserve s) := by
  obtain ⟨hactive, hal⟩ := grantReserve_rest s
  obtain ⟨hfollow, hzero⟩ := h
  exact ⟨by rw [hactive, grantReserve_reserve]; exact hfollow, by rw [grantReserve_reserve, hal]; exact hzero⟩

/-- A claim holds the reserve and zeroes the setpoint, whatever both were. -/
theorem claimReserve_invariant {s : State} (h : s.rsvReqActive = true) : ReserveInv (claimReserve s) := by
  have hclaimed : ReserveInv (zeroSetpoint (if s.sc.reserve = .free then { s with sc.reserve := .claimed } else s)) := by
    refine ⟨?_, fun _ => rfl⟩
    split
    · exact ⟨fun _ => by simp [zeroSetpoint], fun _ => h⟩
    · next hn => exact ⟨fun _ => hn, fun _ => h⟩
  unfold claimReserve
  dsimp only
  refine ReserveInv.edits ?_ ((requestPass_edits _).trans (countNotice_edits _ _ _ _))
  split
  · exact hclaimed.grantReserve
  · exact hclaimed

theorem releaseReserve_invariant {s : State} (h : s.rsvReqActive = false) : ReserveInv (releaseReserve s) := by
  unfold releaseReserve
  refine ReserveInv.edits ?_ ((requestPass_edits _).trans (countNotice_edits _ _ _ _))
  refine ⟨?_, fun hn => absurd rfl hn⟩
  change s.rsvReqActive = true ↔ _
  simp [h]

/-- A line change of RSV_REQ brings the reserve in agreement with it. -/
theorem rsvReqChanged_invariant (s : State) : ReserveInv (rsvReqChanged s) := by
  unfold rsvReqChanged
  split
  · next h => exact claimReserve_invariant h
  · next h => exact releaseReserve_invariant (by simpa using h)

/-- RSV_REQ after its re-evaluation, where the reserve followed the line state before the write. -/
theorem reevaluateRsvReq_invariant {was : Bool} {s : State} (h : ReserveFollows was s) :
    ReserveInv (reevaluateRsvReq was s) := by
  unfold reevaluateRsvReq
  split
  · exact rsvReqChanged_invariant s
  · next hwas =>
    rw [not_not] at hwas
    change ReserveFollows s.rsvReqActive s
    rw [hwas]
    exact h

theorem takeRsvReqLevel_invariant {s : State} (h : ReserveInv s) : ReserveInv (takeRsvReqLevel s) := by
  unfold takeRsvReqLevel
  dsimp only
  split
  · next hsame => exact h.frame hsame rfl (.inl rfl)
  · exact rsvReqChanged_invariant _

theorem reevaluateRsvReq_of_invariant (was : Bool) {s : State} (h : ReserveInv s) : ReserveInv (reevaluateRsvReq was s) := by
  unfold reevaluateRsvReq
  split
  · exact rsvReqChanged_invariant s
  · exact h

/-- A LINES write: the reserve follows the line state before it until RSV_REQ is re-evaluated, in whatever order. -/
theorem applyLines_invariant (new : LineSettings) {s : State} (h : ReserveInv s) : ReserveInv (applyLines new s) := by
  have hlines : ReserveFollows s.rsvReqActive { s with sc.lines := new } := ReserveFollows.frame h rfl (.inl rfl)
  unfold applyLines
  dsimp only
  split
  · have hmem : Line.rsvReq ∈ freeOrder s.freeDraws [Line.shed, Line.rsvReq] := mem_freeOrder.mpr (by simp)
    generalize freeOrder s.freeDraws [Line.shed, Line.rsvReq] = l at hmem
    replace hlines : (ReserveFollows s.rsvReqActive { s with sc.lines := new } ∧ Line.rsvReq ∈ l)
      ∨ ReserveInv { s with sc.lines := new } := .inl ⟨hlines, hmem⟩
    clear hmem
    generalize { s with sc.lines := new } = t at hlines ⊢
    induction l generalizing t with
    | nil => exact hlines.resolve_left fun hl => absurd hl.2 (by simp)
    | cons x l ih =>
      refine ih _ ?_
      cases x with
      | shed =>
        have hedits := reevaluateShed_edits s.shedActive s.sc.lines.scope t
        rcases hlines with ⟨hold, hmem⟩ | hinv
        · exact .inl ⟨hold.edits hedits, by simpa using hmem⟩
        · exact .inr (hinv.edits hedits)
      | rsvReq =>
        rcases hlines with ⟨hold, -⟩ | hinv
        · exact .inr (reevaluateRsvReq_invariant hold)
        · exact .inr (reevaluateRsvReq_of_invariant _ hinv)
  · exact reevaluateRsvReq_invariant (hlines.edits (reevaluateShed_edits _ _ _))

theorem rsvReqActive_of_sc {s t : State} (h : t.sc = s.sc) : t.rsvReqActive = s.rsvReqActive := by
  simp only [State.rsvReqActive, h]

/-- A pass writes setpoint 0 while the reserve is not FREE (R89). -/
theorem passSetpoint_reserved {s : State} (h : s.sc.reserve ≠ .free) (d c : Nat) : s.passSetpoint d c = 0 := if_pos (.inl h)

theorem ReserveInv.writeResults {s : State} (h : ReserveInv s) (n : Snapshot) (c : Computed) :
    ReserveInv (writeResults n c s) := by
  obtain ⟨hfollow, -⟩ := h
  have hactive : (Machine.writeResults n c s).rsvReqActive = s.rsvReqActive := rsvReqActive_of_sc (writeResults_sc n c s)
  refine ⟨by rw [hactive, writeResults_sc]; exact hfollow, fun hn => ?_⟩
  rw [writeResults_sc] at hn
  rw [writeResults_setpoint, passSetpoint_reserved hn]

theorem ReserveInv.site {s t : State} (h : ReserveInv s) (m : SiteMove s t) : ReserveInv t := by
  cases m with
  | limits c m x =>
    obtain ⟨hreserve, hactive⟩ := openGateIfMarked_reserve { s with sc := { s.sc with
      importCap := (clampLimits c m x).1, margin := (clampLimits c m x).2.1, exportCap := (clampLimits c m x).2.2
      limitsMark := true } }
    exact h.frame hactive hreserve (.inl (congrArg BatteryRecord.setpoint (openGateIfMarked_al _).2))
  | rsvReqPin level =>
    refine h.frame ?_ rfl (.inl rfl)
    have htaken : (s.sc.rsvReqPin.moved level s.runTimer).taken = s.sc.rsvReqPin.taken := by
      unfold Pin.moved
      split <;> rfl
    simp only [State.rsvReqActive, htaken]
  | grantReserve => exact h.grantReserve
  | records inverters permit storeLoad battery hsetpoint => exact h.frame rfl rfl hsetpoint
  | results n c => exact h.writeResults n c
  | finish =>
    unfold finishPass
    split <;> exact h.frame rfl rfl (.inl rfl)
  | port | drop | read | masks | acknowledge | fallback | battery | timing | shedPin | clock | tariff
    | blockSize | device | source | loop | refreshed => exact h.frame rfl rfl (.inl rfl)

theorem ReserveInv.act {s t : State} (a : Act s t) (h : ReserveInv s) : ReserveInv t := by
  cases a with
  | session m => exact h.edits m.edits
  | store m =>
    cases m with
    | issue | retire | void | rollover | account => exact h.frame rfl rfl (.inl rfl)
  | declaration m =>
    cases m with
    | declare | remove | matched => exact h.frame rfl rfl (.inl rfl)
    | layout mode p =>
      obtain ⟨hreserve, hactive⟩ := openGateIfMarked_reserve { s with
        sc := { s.sc with layoutMode := mode, feederLimits := layoutLimits mode p, layoutMark := true }
        bays := Vector.ofFn fun b => { s.bay b with feeder := feederOf mode b } }
      exact h.frame hactive hreserve (.inl (congrArg BatteryRecord.setpoint (openGateIfMarked_al _).2))
  | site m => exact h.site m
  | charge m => exact h.edits m.edits
  | lines new => exact applyLines_invariant new h
  | rsvReq => exact takeRsvReqLevel_invariant h

/-! ## The gate and the shares together (R9, R87) -/

/-- What the gate's and the shares' invariants speak of. -/
def gatePart (s : State) : Gate × Bool × Bool × ShareRecord := (s.sc.gate, s.sc.limitsMark, s.sc.layoutMark, s.al.share)

/-- The gate agrees with its marks, and the shares sum to 1000. -/
def GateShareInv (s : State) : Prop := GateInv s ∧ ShareInv s

theorem GateShareInv.frame {s t : State} (h : GateShareInv s) (heq : gatePart t = gatePart s) : GateShareInv t := by
  simp only [gatePart, Prod.mk.injEq] at heq
  obtain ⟨hgate, hlimits, hlayout, hshare⟩ := heq
  unfold GateShareInv GateInv ShareInv
  rw [hgate, hlimits, hlayout, hshare]
  exact h

theorem Edits.gatePart {s t : State} (e : Edits s t) : gatePart t = gatePart s := by
  simp only [Machine.gatePart, e.untouched.sc, e.untouched.share]

theorem rsvReqChanged_gatePart (s : State) : gatePart (rsvReqChanged s) = gatePart s := by
  have hreserve : ∀ (t : State), gatePart (grantReserve t) = gatePart t := fun t => by
    unfold grantReserve
    split <;> rfl
  have hcount : ∀ (t : State), gatePart (countNotice .lineChange 1 0 (requestPass t)) = gatePart t := fun t =>
    ((requestPass_edits t).trans (countNotice_edits _ _ _ _)).gatePart
  unfold rsvReqChanged claimReserve releaseReserve
  dsimp only
  split
  · rw [hcount]
    split
    · rw [hreserve]
      split <;> rfl
    · split <;> rfl
  · rw [hcount]
    rfl

/-- A pass leaves shares that sum to 1000 (R87). -/
theorem sharesOf_sum (a d c g n : Nat) :
    (sharesOf a d c g n).solar + (sharesOf a d c g n).battery + (sharesOf a d c g n).grid = 1000 := by
  unfold sharesOf
  split
  · have := shares_le (a - c) d g
    dsimp only
    omega
  · rfl

theorem GateShareInv.opened {s t : State} (h : GateShareInv s) (hgate : t.sc.gate = s.sc.gate)
    (hlimits : s.sc.limitsMark = true → t.sc.limitsMark = true) (hlayout : s.sc.layoutMark = true → t.sc.layoutMark = true)
    (hshare : t.al.share = s.al.share) : GateShareInv (openGateIfMarked t) := by
  obtain ⟨hmarks, hsum⟩ := h
  refine ⟨GateInv.openGateIfMarked fun ho => ?_, ?_⟩
  · obtain ⟨h1, h2⟩ := hmarks.mp (hgate ▸ ho)
    exact ⟨hlimits h1, hlayout h2⟩
  · unfold ShareInv
    rw [(openGateIfMarked_al t).1, hshare]
    exact hsum

theorem GateShareInv.site {s t : State} (h : GateShareInv s) (m : SiteMove s t) : GateShareInv t := by
  cases m with
  | limits c m x => exact h.opened rfl (fun _ => rfl) id rfl
  | grantReserve =>
    refine h.frame ?_
    unfold grantReserve
    split <;> rfl
  | results n c =>
    obtain ⟨hgate, -⟩ := h
    refine ⟨?_, ?_⟩
    · unfold GateInv
      rw [writeResults_sc]
      exact hgate
    · unfold ShareInv
      rw [writeResults_share]
      exact sharesOf_sum _ _ _ _ _
  | finish =>
    unfold finishPass
    split <;> exact h.frame rfl
  | port | drop | read | masks | acknowledge | fallback | battery | timing | shedPin | rsvReqPin | clock | tariff
    | blockSize | device | source | loop | records | refreshed => exact h.frame rfl

theorem GateShareInv.act {s t : State} (a : Act s t) (h : GateShareInv s) : GateShareInv t := by
  cases a with
  | session m => exact h.frame m.edits.gatePart
  | store m =>
    cases m with
    | issue | retire | void | rollover | account => exact h.frame rfl
  | declaration m =>
    cases m with
    | declare | remove | matched => exact h.frame rfl
    | layout mode p => exact h.opened rfl id (fun _ => rfl) rfl
  | site m => exact h.site m
  | charge m => exact h.frame m.edits.gatePart
  | lines new =>
    refine applyLines_keeps new s (h.frame rfl) (fun t ht => ht.frame (reevaluateShed_edits _ _ t).gatePart) fun t ht => ?_
    unfold reevaluateRsvReq
    split
    · exact ht.frame (rsvReqChanged_gatePart t)
    · exact ht
  | rsvReq =>
    unfold takeRsvReqLevel
    dsimp only
    split
    · exact h.frame rfl
    · exact GateShareInv.frame h (rsvReqChanged_gatePart _)

/-! ## Every step -/

theorem PassInv.tick {s : State} (h : PassInv s) : PassInv (tick s) := h

theorem PassInv.sampled {s : State} (h : PassInv s) : PassSampled s := h.1.mp

theorem resetLeaves_gate {s t : State} (h : exec .reset s = .next t) : GateShareInv t ∧ PassInv t ∧ ReserveInv t := by
  rw [exec_reset] at h
  cases h
  obtain ⟨hgate, hpass, hshare, -, -, -, -, -⟩ := invariantsHoldAtReset
  refine ⟨⟨hgate, hshare⟩, hpass, ?_⟩
  have hinactive : ∀ p : Pin, (p.afterReset.taken == Level.high) = false := fun p => by
    unfold Pin.afterReset
    rfl
  refine ⟨?_, fun hn => absurd rfl hn⟩
  exact ⟨fun ha => absurd ((hinactive s.sc.rsvReqPin).symm.trans ha) (by decide), fun hn => absurd rfl hn⟩

/-- Settles O55, by cases on the acts of the step: the pass invariant is weakened within a step and restored by the sampling at its
end. -/
theorem allocatorInvariantKept : Obligations.AllocatorInvariantKept := by
  refine ⟨fun s t hgate hpass hshare hstep => ?_, fun s t hreserve hstep => ?_⟩
  · have hkept : GateShareInv t ∧ PassInv t :=
      step_keeps (P := fun s => GateShareInv s ∧ PassInv s) (W := fun s => GateShareInv s ∧ PassInvBegun s)
        (fun s h => ⟨h.1.frame rfl, h.2.tick⟩) (fun s rest h => h) (fun s h => ⟨h.1, h.2.begun⟩)
        (fun a h => ⟨h.1.act a, h.2.act a⟩) (fun s h => ⟨h.1.frame (by simp [gatePart]), h.2.completed⟩)
        (fun s t h => ⟨(resetLeaves_gate h).1, (resetLeaves_gate h).2.1⟩) hstep ⟨⟨hgate, hshare⟩, hpass⟩
    exact ⟨hkept.1.1, hkept.2, hkept.1.2, hkept.2.sampled⟩
  · exact step_keeps (P := ReserveInv) (W := ReserveInv) (fun s h => h) (fun s rest h => h) (fun s h => h) (fun a h => h.act a)
      (fun s h => h.frame (by simp) (by simp) (.inl (by simp))) (fun s t h => (resetLeaves_gate h).2.2) hstep hreserve

end Sys2Proof.Machine
end

section
/-! # Charges and line changes in pieces

What draws on the credit store for a session, taken apart into moves of sessions, writes of a slot and writes of the credit store:
enough for the invariants that say nothing of the store. And the changes of RSV_REQ and the LINES write, taken apart into moves of
sessions and writes of the lines, the reserve and the battery record. -/

namespace Sys2Proof.Machine

/-! ## Line changes -/

/-- One piece of a line change. -/
inductive LinePiece : State → State → Prop where
  | move {s t : State} (h : SessionMove s t) : LinePiece s t
  | write (s : State) (lines : LineSettings) (pin : Pin) (reserve : Reserve) (battery : BatteryRecord) :
      LinePiece s { s with
        sc := { s.sc with lines := lines, rsvReqPin := pin, reserve := reserve }, al.battery := battery }

/-- A chain of pieces of a line change. -/
abbrev LinePieces : State → State → Prop := Relation.ReflTransGen LinePiece

theorem Moves.linePieces {s t : State} (h : Moves s t) : LinePieces s t :=
  Relation.ReflTransGen.mono (fun _ _ => LinePiece.move) _ _ h

/-- The notice and the pass request of a line change (R14). -/
theorem countLine_linePieces (s : State) : LinePieces s (countNotice .lineChange 1 0 (requestPass s)) :=
  Moves.linePieces (.tail (.single (.pass s)) (.notice _ _ _ _))

theorem grantReserve_linePieces (s : State) : LinePieces s (grantReserve s) := by
  unfold grantReserve
  split
  · exact .single (.write s s.sc.lines s.sc.rsvReqPin .granted s.al.battery)
  · exact .refl

theorem claimReserve_linePieces (s : State) : LinePieces s (claimReserve s) := by
  have hzero : ∀ t, LinePieces t (zeroSetpoint t) := fun t =>
    .single (.write t t.sc.lines t.sc.rsvReqPin t.sc.reserve _)
  have hclaimed : LinePieces s (zeroSetpoint (if s.sc.reserve = .free then { s with sc.reserve := .claimed } else s)) := by
    refine Relation.ReflTransGen.trans ?_ (hzero _)
    split
    · exact .single (.write s s.sc.lines s.sc.rsvReqPin .claimed s.al.battery)
    · exact .refl
  unfold claimReserve
  dsimp only
  refine Relation.ReflTransGen.trans ?_ (countLine_linePieces _)
  split
  · exact hclaimed.trans (grantReserve_linePieces _)
  · exact hclaimed

theorem rsvReqChanged_linePieces (s : State) : LinePieces s (rsvReqChanged s) := by
  unfold rsvReqChanged
  split
  · exact claimReserve_linePieces s
  · unfold releaseReserve
    refine Relation.ReflTransGen.trans ?_ (countLine_linePieces _)
    exact .single (.write s s.sc.lines s.sc.rsvReqPin .free s.al.battery)

theorem takeRsvReqLevel_linePieces (s : State) : LinePieces s (takeRsvReqLevel s) := by
  have htaken : LinePieces s { s with sc.rsvReqPin := { s.sc.rsvReqPin with taken := s.sc.rsvReqPin.level } } :=
    .single (.write s s.sc.lines _ s.sc.reserve s.al.battery)
  unfold takeRsvReqLevel
  dsimp only
  split
  · exact htaken
  · exact htaken.trans (rsvReqChanged_linePieces _)

theorem reevaluateRsvReq_linePieces (was : Bool) (s : State) : LinePieces s (reevaluateRsvReq was s) := by
  unfold reevaluateRsvReq
  split
  · exact rsvReqChanged_linePieces s
  · exact .refl

theorem applyLines_linePieces (new : LineSettings) (s : State) : LinePieces s (applyLines new s) :=
  applyLines_keeps (P := LinePieces s) new s (.single (.write s new s.sc.rsvReqPin s.sc.reserve s.al.battery))
    (fun t h => h.trans (reevaluateShed_moves _ _ t).linePieces) fun t h => h.trans (reevaluateRsvReq_linePieces _ t)

/-- A property that every piece keeps, a line change keeps. -/
theorem LinePieces.keep {P : State → Prop} (hpiece : ∀ {s t}, LinePiece s t → P s → P t) {s t : State} (h : LinePieces s t)
    (hs : P s) : P t := by
  induction h with
  | refl => exact hs
  | tail _ h ih => exact hpiece h ih

/-! ## Charges -/

/-- One piece of a charge. -/
inductive Piece : State → State → Prop where
  | move {s t : State} (h : SessionMove s t) : Piece s t
  | slot (s : State) (k : SlotId) (x : Slot) (hstate : x.state = (s.slot k).state) (hbay : x.bay = (s.slot k).bay)
      (hplace : (x.cls = (s.slot k).cls ∧ x.arrival = (s.slot k).arrival) ∨ (s.slot k).state = .opening) :
      Piece s (s.setSlot k x)
  | store (s : State) (cs : CreditStore) : Piece s { s with cs := cs }

/-- A chain of pieces. -/
abbrev Pieces : State → State → Prop := Relation.ReflTransGen Piece

theorem Moves.pieces {s t : State} (h : Moves s t) : Pieces s t := Relation.ReflTransGen.mono (fun _ _ => Piece.move) _ _ h

theorem SessionMove.pieces {s t : State} (h : SessionMove s t) : Pieces s t := .single (.move h)

/-- A write of a slot that leaves its state, its bay, its class and its arrival. -/
theorem modSlot_pieces (s : State) (k : SlotId) (f : Slot → Slot) (hstate : ∀ x, (f x).state = x.state)
    (hbay : ∀ x, (f x).bay = x.bay) (hplace : ∀ x, (f x).cls = x.cls ∧ (f x).arrival = x.arrival) :
    Pieces s (s.modSlot k f) :=
  .single (.slot s k _ (hstate _) (hbay _) (.inl (hplace _)))

theorem setCredits_pieces (s : State) (cs : List Credit) : Pieces s (s.setCredits cs) := .single (.store s _)

theorem modAccount_pieces (s : State) (i : AccountId) (f : Account → Account) : Pieces s (s.modAccount i f) :=
  .single (.store s _)

theorem takeFrom_pieces (w : Nat) (s : State) (src : Source) : Pieces s (takeFrom w s src) := by
  cases src with
  | credit key => exact setCredits_pieces s _
  | account i => exact modAccount_pieces s i fun a => { a with remainingWh := a.remainingWh - w }

theorem endHold_pieces (k : SlotId) (s : State) : Pieces s (endHold k s) := by
  have hended := modSlot_pieces s k (fun x => { x with accountHold := false }) (fun _ => rfl) (fun _ => rfl) fun _ => ⟨rfl, rfl⟩
  unfold endHold
  split
  · dsimp only
    split
    · exact hended.trans (modAccount_pieces _ _ _)
    · exact hended
  · exact .refl

theorem releaseCredit_pieces (key r : Nat) (s : State) : Pieces s (releaseCredit key r s) := by
  unfold releaseCredit
  split
  · exact .refl
  · split
    · exact setCredits_pieces s _
    · exact setCredits_pieces s _

theorem releaseSource_pieces (k : SlotId) (s : State) : Pieces s (releaseSource k s) := by
  have hcleared := modSlot_pieces s k (fun x => { x with source := none, blockLeft := 0, finalBlock := false }) (fun _ => rfl)
    (fun _ => rfl) fun _ => ⟨rfl, rfl⟩
  unfold releaseSource
  dsimp only
  split
  · exact .refl
  · exact hcleared.trans (releaseCredit_pieces _ _ _)
  · exact (hcleared.trans (modAccount_pieces _ _ _)).trans (endHold_pieces k _)

theorem countExhausted_pieces (s : State) (src : Source) : Pieces s (countExhausted s src) := by
  cases src with
  | credit key => exact .refl
  | account i => exact SessionMove.pieces (.notice s _ _ _)

theorem exhaust_pieces (k : SlotId) (src : Source) (s : State) : Pieces s (exhaust k src s) := by
  have hreleased := (releaseSource_pieces k s).trans (countExhausted_pieces _ src)
  unfold exhaust
  dsimp only
  split
  · next h => exact hreleased.trans (enterEnding_moves _ h.2).pieces
  · exact hreleased

theorem draw_pieces (k : SlotId) (s : State) : Pieces s (draw k s) := by
  unfold draw
  split
  · exact .refl
  · dsimp only
    split
    · exact (takeFrom_pieces _ s _).trans (modSlot_pieces _ k _ (fun _ => rfl) (fun _ => rfl) fun _ => ⟨rfl, rfl⟩)
    · exact exhaust_pieces k _ s

theorem attach_pieces (key : Nat) (k : SlotId) (b : BayId) (s : State) : Pieces s (attach key k b s) := by
  unfold attach
  dsimp only
  refine Relation.ReflTransGen.trans ?_ (authoriseIfOpening_moves k _).pieces
  refine Relation.ReflTransGen.trans ?_ (SessionMove.emptyScan _ b).pieces
  refine Relation.ReflTransGen.trans ?_ (setMessage_move b _ _).pieces
  refine Relation.ReflTransGen.trans ?_ (draw_pieces k _)
  exact (setCredits_pieces s _).trans (modSlot_pieces _ k _ (fun _ => rfl) (fun _ => rfl) fun _ => ⟨rfl, rfl⟩)

theorem acceptToken_pieces (i : AccountId) {k : SlotId} (b : BayId) {s : State} (h : (s.slot k).state = .opening) :
    Pieces s (acceptToken i k b s) := by
  unfold acceptToken
  dsimp only
  refine Relation.ReflTransGen.trans ?_ (authoriseIfOpening_moves k _).pieces
  refine Relation.ReflTransGen.trans ?_ (setMessage_move b _ _).pieces
  refine Relation.ReflTransGen.trans ?_ (SessionMove.emptyScan _ b).pieces
  have hheld : Pieces s ((s.modAccount i fun a => { a with holders := a.holders + 1 }).modSlot k fun x =>
      { x with payment := .account, accountIndex := some i, accountHold := true
               cls := classUnder (s.account i).cls x.cls }) :=
    (modAccount_pieces s i _).tail (.slot _ k _ rfl rfl (.inr h))
  split
  · refine (hheld.trans ?_).trans (draw_pieces k _)
    exact modSlot_pieces _ k _ (fun _ => rfl) (fun _ => rfl) fun _ => ⟨rfl, rfl⟩
  · exact hheld

theorem coverPart_pieces (k : SlotId) (fuel part : Nat) (s : State) : Pieces s (coverPart k fuel part s).2 := by
  induction fuel generalizing part s with
  | zero => exact .refl
  | succ n ih =>
    unfold coverPart
    split
    · exact .refl
    · dsimp only
      refine Relation.ReflTransGen.trans ?_ (ih _ _)
      have hused := modSlot_pieces s k (fun x => { x with
        covered := x.covered + min part (s.slot k).blockLeft
        blockLeft := (s.slot k).blockLeft - min part (s.slot k).blockLeft }) (fun _ => rfl) (fun _ => rfl) fun _ => ⟨rfl, rfl⟩
      split
      · exact hused.trans (draw_pieces k _)
      · exact hused

theorem coverAll_pieces (k : SlotId) (solar battery grid : Nat) (s : State) :
    Pieces s (coverAll k solar battery grid s).state := by
  unfold coverAll
  split
  · exact .refl
  · dsimp only
    split
    · exact coverPart_pieces k _ solar s
    · exact ((coverPart_pieces k _ solar s).trans (coverPart_pieces k _ battery _)).trans (coverPart_pieces k _ grid _)

theorem ChargeMove.pieces {s t : State} (h : ChargeMove s t) : Pieces s t := by
  cases h with
  | attach key k b => exact attach_pieces key k b s
  | token i k b _ _ hstate => exact acceptToken_pieces i b hstate
  | accrued k delta =>
    unfold accruedState
    refine Relation.ReflTransGen.trans ?_ (coverAll_pieces k _ _ _ _)
    exact modSlot_pieces s k _ (fun _ => rfl) (fun _ => rfl) fun _ => ⟨rfl, rfl⟩

/-- A property that every piece keeps, a charge keeps. -/
theorem ChargeMove.keep {P : State → Prop} (hpiece : ∀ {s t}, Piece s t → P s → P t) {s t : State} (h : ChargeMove s t)
    (hs : P s) : P t := by
  have hpieces := h.pieces
  clear h
  induction hpieces with
  | refl => exact hs
  | tail _ h ih => exact hpiece h ih

end Sys2Proof.Machine
end

section
/-! # The records' invariants (O57) -/

namespace Sys2Proof.Machine

/-! ## What a session's moves do to the counters and the scan slots -/

/-- The sequence and arrival counters and the overwrite counts are within their ranges (R45, R116). -/
structure CounterInv (s : State) : Prop where
  sequence : 1 ≤ s.st.sequence ∧ s.st.sequence ≤ 65535
  arrival : s.st.arrival < 4294967296
  overwrites : ∀ b key n d, (s.bay b).scan = .pending key n d → n ≤ 255

/-- The counters are kept, and every scan slot is kept or emptied. -/
structure CountersKept (s t : State) : Prop where
  sequence : t.st.sequence = s.st.sequence
  arrival : t.st.arrival = s.st.arrival
  scans : ∀ b, (t.bay b).scan = (s.bay b).scan ∨ (t.bay b).scan = .empty

theorem CounterInv.kept {s t : State} (h : CounterInv s) (hk : CountersKept s t) : CounterInv t := by
  obtain ⟨hseq, harr, hover⟩ := h
  refine ⟨by rw [hk.sequence]; exact hseq, by rw [hk.arrival]; exact harr, fun b key n d hscan => ?_⟩
  rcases hk.scans b with h | h
  · exact hover b key n d (h ▸ hscan)
  · rw [h] at hscan
    cases hscan

/-- A write of one bay that keeps its scan slot or empties it. -/
theorem CountersKept.setBay (s : State) (b : BayId) (x : Bay) (h : x.scan = (s.bay b).scan ∨ x.scan = .empty) :
    CountersKept s (s.setBay b x) := by
  refine ⟨rfl, rfl, fun c => ?_⟩
  by_cases hc : c = b
  · subst hc
    rw [bay_setBay_same]
    exact h
  · rw [bay_setBay_ne _ _ hc]
    exact .inl rfl

/-- A state with the bays and the counters of another. -/
theorem CountersKept.same {s t : State} (hbays : t.bays = s.bays) (hseq : t.st.sequence = s.st.sequence)
    (harr : t.st.arrival = s.st.arrival) : CountersKept s t :=
  ⟨hseq, harr, fun b => .inl (by simp only [State.bay, hbays])⟩

theorem CountersKept.trans {s t u : State} (h : CountersKept s t) (g : CountersKept t u) : CountersKept s u := by
  refine ⟨g.sequence.trans h.sequence, g.arrival.trans h.arrival, fun b => ?_⟩
  rcases g.scans b with hg | hg
  · rcases h.scans b with hh | hh
    · exact .inl (hg.trans hh)
    · exact .inr (hg.trans hh)
  · exact .inr hg

/-- A change of one session and its bay that empties the bay's scan slot. -/
theorem CountersKept.ofAt {k : SlotId} {b : BayId} {s t : State} (h : At k b s t) (hscan : (t.bay b).scan = .empty) :
    CountersKept s t := by
  refine ⟨h.sequence, h.arrival, fun c => ?_⟩
  by_cases hc : c = b
  · subst hc
    exact .inr hscan
  · rw [h.bays c hc]
    exact .inl rfl

theorem dropReference_countersKept (b : BayId) (k : SlotId) (s : State) : CountersKept s (dropReference b k s) := by
  unfold dropReference
  split
  · exact CountersKept.setBay s b _ (.inl rfl)
  · exact .same rfl rfl rfl

theorem nextSequence_range (n : Nat) : 1 ≤ nextSequence n ∧ nextSequence n ≤ 65535 := by
  unfold nextSequence
  split <;> omega

theorem nextOverwrites_le (x : ScanSlot) : nextOverwrites x ≤ 255 := by
  cases x with
  | empty => exact Nat.zero_le _
  | pending key n d => exact Nat.min_le_left _ _

theorem authorise_st (k : SlotId) (s : State) :
    (authorise k s).st.sequence = s.st.sequence ∧ (authorise k s).st.arrival = nextArrival s.st.arrival
      ∧ (authorise k s).bays = s.bays := by
  unfold authorise joinQueue
  dsimp only
  split <;> simp [State.setSlot, State.modSlot]

theorem CounterInv.move {s t : State} (m : SessionMove s t) (h : CounterInv s) : CounterInv t := by
  cases m with
  | pass => exact h.kept (.same (by simp) (by simp) (by simp))
  | notice | slotMarks | queuedState => exact h.kept (.same rfl rfl rfl)
  | bayMarks b x _ hledger => exact h.kept (.setBay s b x (.inl hledger.scan))
  | authorise k =>
    obtain ⟨hseq, harr, hbays⟩ := authorise_st k s
    refine ⟨by rw [hseq]; exact h.sequence, by rw [harr]; exact Nat.mod_lt _ (by decide), fun b => ?_⟩
    simp only [State.bay, hbays]
    exact h.overwrites b
  | ending k cause => exact h.kept (.ofAt (endingBay_at k cause s) (by rw [endingBay_bay]))
  | settle k cause after =>
    exact h.kept (.ofAt (At.settle k cause after s) (settle_settled k cause after s).bay.2.1)
  | abandon k =>
    refine h.kept (CountersKept.trans (t := s.setSlot k {}) (.same rfl rfl rfl) (.setBay _ _ _ (.inr ?_)))
    dsimp only
    split <;> rfl
  | opening b k =>
    have hopened : CounterInv { s.setSlot k (s.openedSlot b) with st.sequence := nextSequence s.st.sequence } :=
      ⟨nextSequence_range _, h.arrival, h.overwrites⟩
    exact hopened.kept (.setBay _ b _ (.inl rfl))
  | vacate b x _ _ _ _ hscan => exact h.kept (.setBay s b x (.inl hscan))
  | emptyScan b => exact h.kept (.setBay s b _ (.inr rfl))
  | pending key b =>
    refine ⟨h.sequence, h.arrival, fun c key' n d hscan => ?_⟩
    rw [makePending, countNotice_bay] at hscan
    by_cases hc : c = b
    · subst hc
      rw [bay_modBay_same] at hscan
      cases hscan
      exact nextOverwrites_le _
    · rw [bay_modBay_ne _ _ hc] at hscan
      exact h.overwrites c key' n d hscan
  | collect k =>
    rename_i hstate
    rw [takeReceiptAt, if_pos hstate]
    exact h.kept (CountersKept.trans (t := s.setSlot k {}) (.same rfl rfl rfl) (dropReference_countersKept _ _ _))

theorem CounterInv.charge {s t : State} (m : ChargeMove s t) (h : CounterInv s) : CounterInv t := by
  refine m.keep (P := CounterInv) (fun p h => ?_) h
  cases p with
  | move m => exact h.move m
  | slot | store => exact h.kept (.same rfl rfl rfl)

/-! ## Declarations (R5, R19, R31) -/

/-- Two device entries with one declaration. -/
structure Device.SameDeclaration (old new : Device) : Prop where
  declared : new.declared = old.declared
  kind : new.kind = old.kind
  declaredMax : new.declaredMax = old.declaredMax

theorem BayDeclared.frame {s t : State} {b : BayId} (h : BayDeclared s b) (hmode : t.sc.layoutMode = s.sc.layoutMode)
    (hdevice : (s.bayDevice b).SameDeclaration (t.bayDevice b)) (hbay : (s.bay b).SameDeclaration (t.bay b)) :
    BayDeclared t b := by
  obtain ⟨h1, h2, h3, h4, h5, h6⟩ := h
  obtain ⟨hd, hk, hm⟩ := hdevice
  constructor <;> simp only [hd, hk, hm, hmode, hbay.declared, hbay.kind, hbay.maxSteps, hbay.minSteps, hbay.feeder]
  · exact h1
  · exact h2
  · exact h3
  · exact h4
  · exact h5
  · exact h6

theorem DeclarationInv.frame {s t : State} (h : DeclarationInv s) (hmode : t.sc.layoutMode = s.sc.layoutMode)
    (hdevices : ∀ b, (s.bayDevice b).SameDeclaration (t.bayDevice b)) (hbays : ∀ b, (s.bay b).SameDeclaration (t.bay b)) :
    DeclarationInv t := fun b => (h b).frame hmode (hdevices b) (hbays b)

theorem Device.SameDeclaration.refl (d : Device) : d.SameDeclaration d := ⟨rfl, rfl, rfl⟩

theorem Bay.SameDeclaration.refl (y : Bay) : y.SameDeclaration y := ⟨rfl, rfl, rfl, rfl, rfl, rfl⟩

theorem Bay.SameDeclaration.trans {x y z : Bay} (h : x.SameDeclaration y) (g : y.SameDeclaration z) : x.SameDeclaration z :=
  ⟨g.declared.trans h.declared, g.kind.trans h.kind, g.maxSteps.trans h.maxSteps, g.minSteps.trans h.minSteps,
    g.meterWidth.trans h.meterWidth, g.feeder.trans h.feeder⟩

/-- A state with the layout mode, the devices and the bays of another. -/
theorem DeclarationInv.same {s t : State} (h : DeclarationInv s) (hmode : t.sc.layoutMode = s.sc.layoutMode)
    (hflc : t.flc.devices = s.flc.devices) (hbays : t.bays = s.bays) : DeclarationInv t := by
  refine h.frame hmode (fun b => ?_) fun b => ?_
  · simp only [State.bayDevice, State.device, hflc]
    exact .refl _
  · simp only [State.bay, hbays]
    exact .refl _

/-- No small edit changes the declaration of a bay. -/
theorem Edit.sameDeclaration {s t : State} (e : Edit s t) (b : BayId) : (s.bay b).SameDeclaration (t.bay b) := by
  cases e with
  | pass => rw [requestPass_bay]; exact .refl _
  | bay c x hdecl =>
    by_cases hb : b = c
    · subst hb
      rw [bay_setBay_same]
      exact hdecl
    · rw [bay_setBay_ne _ _ hb]
      exact .refl _
  | slot | counters | notice | queue | credits | account => exact .refl _

theorem Edits.sameDeclaration {s t : State} (e : Edits s t) (b : BayId) : (s.bay b).SameDeclaration (t.bay b) := by
  induction e with
  | refl => exact .refl _
  | tail _ e ih => exact ih.trans (e.sameDeclaration b)

theorem DeclarationInv.edits {s t : State} (h : DeclarationInv s) (e : Edits s t) : DeclarationInv t := by
  refine h.frame (congrArg SiteConfig.layoutMode e.untouched.sc) (fun b => ?_) e.sameDeclaration
  simp only [State.bayDevice, State.device, e.untouched.flc]
  exact .refl _

theorem bay_entry_ne {b c : BayId} (h : c ≠ b) : (Role.bay c).entry ≠ (Role.bay b).entry := fun he =>
  h (Fin.ext (show c.val = b.val from congrArg (fun e : Entry => e.val) he))

/-- A write of a bay's device entry and record that makes them agree. -/
theorem DeclarationInv.redeclare {s : State} (h : DeclarationInv s) (b : BayId) (d : Device) (y : Bay)
    (hdeclared : d.declared = y.declared) (hfeeder : y.feeder = feederOf s.sc.layoutMode b)
    (hbounds : y.declared = true → d.kind = y.kind.device ∧ y.minSteps = y.kind.minSteps ∧ d.declaredMax ≤ y.kind.maxBound
      ∧ y.minSteps ≤ y.maxSteps ∧ y.maxSteps ≤ d.declaredMax) :
    DeclarationInv ((s.setDevice (Role.bay b).entry d).setBay b y) := by
  intro c
  by_cases hc : c = b
  · subst hc
    have hdevice : ((s.setDevice (Role.bay c).entry d).setBay c y).bayDevice c = d := device_setDevice_same _ _ _
    have hbay : ((s.setDevice (Role.bay c).entry d).setBay c y).bay c = y := bay_setBay_same _ _ _
    constructor <;> rw [hbay] <;> (try rw [hdevice])
    · exact hdeclared
    · exact hfeeder
    · exact fun hy => (hbounds hy).1
    · exact fun hy => (hbounds hy).2.1
    · exact fun hy => (hbounds hy).2.2.1
    · exact fun hy => (hbounds hy).2.2.2
  · refine (h c).frame rfl ?_ ?_
    · rw [show ((s.setDevice (Role.bay b).entry d).setBay b y).bayDevice c = s.bayDevice c from
        device_setDevice_ne _ _ (bay_entry_ne hc)]
      exact .refl _
    · rw [show ((s.setDevice (Role.bay b).entry d).setBay b y).bay c = s.bay c from bay_setBay_ne _ _ hc]
      exact .refl _

theorem modBay_sameDeclaration_ne {s : State} {b c : BayId} (f : Bay → Bay) (h : c ≠ b) :
    (s.bay c).SameDeclaration ((s.modBay b f).bay c) := by
  rw [bay_modBay_ne _ _ h]
  exact .refl _

/-- A matching report keeps max_steps between min_steps and the declared maximum (R31). -/
theorem DeclarationInv.takeMatch {s : State} (h : DeclarationInv s) {b : BayId} {r : BayReport}
    (hmatch : identityMatches (s.bay b) r = true) : DeclarationInv (takeMatch b r s) := by
  intro c
  by_cases hc : c = b
  · subst hc
    obtain ⟨h1, h2, h3, h4, h5, h6⟩ := h c
    have hmax : (s.bay c).kind.minSteps ≤ r.idMax := by
      simp only [identityMatches, Bool.and_eq_true, decide_eq_true_eq] at hmatch
      exact hmatch.2
    unfold Machine.takeMatch
    constructor <;> rw [bay_modBay_same]
    · exact h1
    · exact h2
    · exact h3
    · exact h4
    · exact h5
    · intro hd
      have := h6 hd
      have := h4 hd
      change (s.bay c).minSteps ≤ min (s.bayDevice c).declaredMax r.idMax ∧ min _ _ ≤ (s.bayDevice c).declaredMax
      exact ⟨le_min (by omega) (by omega), Nat.min_le_left _ _⟩
  · exact (h c).frame rfl (.refl _) (modBay_sameDeclaration_ne _ hc)

/-- A change of layout gives every bay its feeder (R5). -/
theorem DeclarationInv.layout {s t : State} (h : DeclarationInv s) (mode : Nat) (hmode : t.sc.layoutMode = mode)
    (hflc : t.flc = s.flc) (hbays : ∀ b, t.bay b = { s.bay b with feeder := feederOf mode b }) : DeclarationInv t := by
  intro b
  obtain ⟨h1, h2, h3, h4, h5, h6⟩ := h b
  have hdevice : t.bayDevice b = s.bayDevice b := by simp only [State.bayDevice, State.device, hflc]
  constructor <;> rw [hbays] <;> (try rw [hdevice])
  · exact h1
  · rw [hmode]
  · exact h3
  · exact h4
  · exact h5
  · exact h6

theorem openGateIfMarked_tables (s : State) : (openGateIfMarked s).flc = s.flc ∧ (openGateIfMarked s).bays = s.bays
    ∧ (openGateIfMarked s).st = s.st ∧ (openGateIfMarked s).cs = s.cs ∧ (openGateIfMarked s).tc = s.tc := by
  unfold openGateIfMarked evalAttn
  split <;> simp

theorem openGateIfMarked_queue (s : State) : (openGateIfMarked s).al.queue = s.al.queue := by
  unfold openGateIfMarked evalAttn
  split <;> simp

theorem openGateIfMarked_sc (s : State) : ∃ g, (openGateIfMarked s).sc = { s.sc with gate := g } := by
  unfold openGateIfMarked evalAttn
  split
  · exact ⟨.opened, by simp⟩
  · exact ⟨s.sc.gate, rfl⟩

theorem DeclarationInv.openGateIfMarked {s : State} (h : DeclarationInv s) : DeclarationInv (openGateIfMarked s) := by
  obtain ⟨hflc, hbays, -⟩ := openGateIfMarked_tables s
  obtain ⟨g, hsc⟩ := openGateIfMarked_sc s
  exact h.same (by rw [hsc]) (congrArg FieldLoop.devices hflc) hbays

/-- A write of a device entry, with its declaration where it is a bay's. -/
theorem DeclarationInv.setDevice {s : State} (h : DeclarationInv s) (e : Entry) (x : Device)
    (hx : e.val < 48 → (s.device e).SameDeclaration x) : DeclarationInv (s.setDevice e x) := by
  refine h.frame rfl (fun b => ?_) fun b => .refl _
  by_cases he : (Role.bay b).entry = e
  · subst he
    rw [show (s.setDevice (Role.bay b).entry x).bayDevice b = x from device_setDevice_same _ _ _]
    exact hx b.isLt
  · rw [show (s.setDevice e x).bayDevice b = s.bayDevice b from device_setDevice_ne _ _ he]
    exact .refl _

theorem DeclarationInv.site {s t : State} (h : DeclarationInv s) (m : SiteMove s t) : DeclarationInv t := by
  cases m with
  | limits => exact DeclarationInv.openGateIfMarked (h.same rfl rfl rfl)
  | device e x hdeclared hkind hmax => exact h.setDevice e x fun _ => ⟨hdeclared, hkind, hmax⟩
  | source e x he => exact h.setDevice e x fun hlt => absurd hlt (by omega)
  | loop x hx => exact h.same rfl hx rfl
  | results n c =>
    exact h.same (congrArg SiteConfig.layoutMode (writeResults_sc n c s)) (congrArg FieldLoop.devices (writeResults_flc n c s))
      (writeResults_bays n c s)
  | grantReserve =>
    unfold Machine.grantReserve
    split <;> exact h.same rfl rfl rfl
  | finish =>
    unfold finishPass
    split <;> exact h.same rfl rfl rfl
  | port | drop | read | masks | acknowledge | fallback | battery | timing | shedPin | rsvReqPin | clock | tariff
    | blockSize | records | refreshed => exact h.same rfl rfl rfl

theorem DeclarationInv.line {s t : State} (p : LinePiece s t) (h : DeclarationInv s) : DeclarationInv t := by
  cases p with
  | move m => exact h.edits m.edits
  | write => exact h.same rfl rfl rfl

theorem DeclarationInv.act {s t : State} (a : Act s t) (h : DeclarationInv s) : DeclarationInv t := by
  cases a with
  | session m => exact h.edits m.edits
  | charge m => exact h.edits m.edits
  | store m =>
    cases m with
    | issue | retire | void | rollover | account => exact h.same rfl rfl rfl
  | site m => exact h.site m
  | lines new => exact (applyLines_linePieces new s).keep (fun p h => h.line p) h
  | rsvReq => exact (takeRsvReqLevel_linePieces s).keep (fun p h => h.line p) h
  | declaration m =>
    cases m with
    | declare b kind maximum width hlow hhigh =>
      exact h.redeclare b _ _ rfl rfl fun _ => ⟨rfl, rfl, hhigh, hlow, le_refl _⟩
    | remove b => exact h.redeclare b _ _ rfl rfl fun hd => absurd hd (by decide : (false : Bool) ≠ true)
    | matched b r hmatch => exact h.takeMatch hmatch
    | layout mode p =>
      refine DeclarationInv.openGateIfMarked (h.layout mode rfl rfl fun b => ?_)
      simp [State.bay]

/-! ## Ranges -/

theorem RangeInv.counters {s : State} (h : RangeInv s) : CounterInv s := ⟨h.sequence, h.arrival, h.overwrites⟩

/-- The occurrences counted stay at 255 (R175). -/
theorem Edit.noticeCounts {s t : State} (e : Edit s t) (h : ∀ k, (s.notice k).count ≤ 255) (k : NoticeKind) :
    (t.notice k).count ≤ 255 := by
  cases e with
  | pass => rw [requestPass_notice]; exact h k
  | notice j a key =>
    by_cases hk : k = j
    · subst hk
      rw [countNotice_same]
      exact Nat.min_le_left _ _
    · rw [countNotice_ne _ _ _ hk]
      exact h k
  | bay | slot | counters | queue | credits | account => exact h k

/-- The limits of an account's settings (R126). -/
def Account.InRange (a : Account) : Prop := a.firmSteps ≤ 1500 ∧ a.allowanceWh ≤ 65000 ∧ a.maxHolders ≤ 8

theorem Account.SameSettings.inRange {x y : Account} (h : x.SameSettings y) (hx : x.InRange) : y.InRange := by
  unfold Account.InRange
  rw [h.firmSteps, h.allowanceWh, h.maxHolders]
  exact hx

/-- A write of one account that keeps a property of every account. -/
theorem setAccount_forall {P : Account → Prop} {s : State} {i : AccountId} {x : Account} (h : ∀ j, P (s.account j)) (hx : P x)
    (j : AccountId) : P ((s.setAccount i x).account j) := by
  by_cases hj : j = i
  · subst hj
    rw [account_setAccount_same]
    exact hx
  · rw [account_setAccount_ne _ _ hj]
    exact h j

theorem Edit.accountRanges {s t : State} (e : Edit s t) (h : ∀ i, (s.account i).InRange) : ∀ i, (t.account i).InRange := by
  cases e with
  | pass => simpa using h
  | account i x hx => exact setAccount_forall h (hx.inRange (h i))
  | bay | slot | counters | notice | queue | credits => exact h

theorem Edits.noticeCounts {s t : State} (e : Edits s t) (h : ∀ k, (s.notice k).count ≤ 255) :
    ∀ k, (t.notice k).count ≤ 255 := by
  induction e with
  | refl => exact h
  | tail _ e ih => exact e.noticeCounts ih

theorem Edits.accountRanges {s t : State} (e : Edits s t) (h : ∀ i, (s.account i).InRange) : ∀ i, (t.account i).InRange := by
  induction e with
  | refl => exact h
  | tail _ e ih => exact e.accountRanges ih

/-- Every range but those of the counters, the notices and the accounts follows the records that small edits leave. -/
theorem RangeInv.edits {s t : State} (h : RangeInv s) (e : Edits s t) (hc : CounterInv t) : RangeInv t := by
  have hu := e.untouched
  constructor
  case sequence => exact hc.sequence
  case arrival => exact hc.arrival
  case overwrites => exact hc.overwrites
  case counts => exact e.noticeCounts h.counts
  case accounts => exact e.accountRanges h.accounts
  case missCounts => simp only [State.device, hu.flc]; exact h.missCounts
  case passNumber => rw [hu.share]; exact h.passNumber
  case blockSize => rw [hu.blockSize]; exact h.blockSize
  case clock => rw [hu.tc]; exact h.clock
  case bands => rw [hu.tc]; exact h.bands
  case canopyPrice => rw [hu.tc]; exact h.canopyPrice
  case dropped => rw [hu.dropped]; exact h.dropped
  all_goals rw [hu.sc]
  · exact h.importCap
  · exact h.margin
  · exact h.exportCap
  · exact h.capacity
  · exact h.floor
  · exact h.batteryPower
  · exact h.layoutMode
  · exact h.fallback
  · exact h.feederLimits
  · exact h.waits
  · exact h.pollGap
  · exact h.allowances
  · exact h.missThreshold

theorem RangeInv.move {s t : State} (m : SessionMove s t) (h : RangeInv s) : RangeInv t := h.edits m.edits (h.counters.move m)

theorem RangeInv.openGateIfMarked {s : State} (h : RangeInv s) : RangeInv (openGateIfMarked s) := by
  unfold Machine.openGateIfMarked
  split
  · have hopened : RangeInv { s with sc.gate := .opened } := { h with }
    have hasked := RangeInv.move (.pass _) hopened
    exact { hasked with }
  · exact h

theorem clampTiming_range (t : Timing) :
    (1 ≤ (clampTiming t).tAck ∧ (clampTiming t).tAck ≤ 60 ∧ 10 ≤ (clampTiming t).tLost ∧ (clampTiming t).tLost ≤ 600
      ∧ 30 ≤ (clampTiming t).tAuth ∧ (clampTiming t).tAuth ≤ 600 ∧ 5 ≤ (clampTiming t).tEnd ∧ (clampTiming t).tEnd ≤ 120
      ∧ 5 ≤ (clampTiming t).tQuery ∧ (clampTiming t).tQuery ≤ 120)
    ∧ (clampTiming t).pollGap ≤ 1000
    ∧ (2 ≤ (clampTiming t).acAllowance ∧ (clampTiming t).acAllowance ≤ 50 ∧ 2 ≤ (clampTiming t).dcAllowance
      ∧ (clampTiming t).dcAllowance ≤ 50 ∧ 2 ≤ (clampTiming t).sourceAllowance ∧ (clampTiming t).sourceAllowance ≤ 50)
    ∧ 1 ≤ (clampTiming t).missThreshold ∧ (clampTiming t).missThreshold ≤ 15 := by
  unfold clampTiming clamp
  dsimp only
  omega

theorem layoutLimits_le (mode : Nat) (p : List Byte) (f : FeederId) : (layoutLimits mode p)[f.val] ≤ 10000 := by
  simp only [layoutLimits, Vector.getElem_ofFn]
  split
  · exact Nat.min_le_left _ _
  · exact Nat.zero_le _

theorem setDevice_missCounts {s : State} (h : ∀ e, (s.device e).missCount ≤ 15) {e : Entry} {x : Device}
    (hx : x.missCount = (s.device e).missCount ∨ x.missCount ≤ 15) (f : Entry) : ((s.setDevice e x).device f).missCount ≤ 15 := by
  by_cases hf : f = e
  · subst hf
    rw [device_setDevice_same]
    have := h f
    omega
  · rw [device_setDevice_ne _ _ hf]
    exact h f

theorem setMasks_count (bits : Nat) (s : State) (k : NoticeKind) : ((setMasks bits s).notice k).count = (s.notice k).count := by
  simp [setMasks, evalAttn, State.notice]

theorem acknowledge_count_le {s : State} (h : ∀ k, (s.notice k).count ≤ 255) (j k : NoticeKind) :
    ((acknowledge j s).notice k).count ≤ 255 := by
  change ((s.setNotice j _).notice k).count ≤ 255
  by_cases hk : k = j
  · subst hk
    rw [notice_setNotice_same]
    exact Nat.zero_le _
  · rw [notice_setNotice_ne _ _ hk]
    exact h k

theorem nextPassNumber_le (n : Nat) : nextPassNumber n ≤ 65535 := by
  unfold nextPassNumber
  split <;> omega

theorem sharesOf_passNumber (a d c g n : Nat) : (sharesOf a d c g n).passNumber = n := by
  unfold sharesOf
  split <;> rfl

/-- The ranges speak of the settings, the tables, the counters and the pass number alone. -/
theorem RangeInv.frame {s t : State} (h : RangeInv s) (hsc : t.sc = s.sc) (hflc : t.flc.devices = s.flc.devices)
    (hbays : t.bays = s.bays) (hst : t.st = s.st) (hcs : t.cs = s.cs) (htc : t.tc = s.tc)
    (hdropped : t.hp.dropped = s.hp.dropped) (hpass : t.al.share.passNumber ≤ 65535)
    (hcounts : ∀ k, (t.notice k).count ≤ 255) : RangeInv t := by
  constructor
  case passNumber => exact hpass
  case counts => exact hcounts
  case dropped => rw [hdropped]; exact h.dropped
  case missCounts => simp only [State.device, hflc]; exact h.missCounts
  case overwrites => simp only [State.bay, hbays]; exact h.overwrites
  case sequence => rw [hst]; exact h.sequence
  case arrival => rw [hst]; exact h.arrival
  case accounts => simp only [State.account, hcs]; exact h.accounts
  case blockSize => rw [hcs]; exact h.blockSize
  case clock => rw [htc]; exact h.clock
  case bands => rw [htc]; exact h.bands
  case canopyPrice => rw [htc]; exact h.canopyPrice
  all_goals rw [hsc]
  · exact h.importCap
  · exact h.margin
  · exact h.exportCap
  · exact h.capacity
  · exact h.floor
  · exact h.batteryPower
  · exact h.layoutMode
  · exact h.fallback
  · exact h.feederLimits
  · exact h.waits
  · exact h.pollGap
  · exact h.allowances
  · exact h.missThreshold

theorem RangeInv.writeResults {s : State} (h : RangeInv s) (n : Snapshot) (c : Computed) : RangeInv (writeResults n c s) := by
  refine h.frame (by simp) (by simp) (by simp) (by simp) (by simp) (by simp) (by simp) ?_ ?_
  · rw [writeResults_share, sharesOf_passNumber]
    exact nextPassNumber_le _
  · simp only [State.notice, writeResults_hp]
    exact h.counts

theorem RangeInv.site {s t : State} (h : RangeInv s) (m : SiteMove s t) : RangeInv t := by
  cases m with
  | drop => exact { h with dropped := Nat.min_le_left _ _ }
  | read => exact { h with dropped := Nat.zero_le _ }
  | masks bits =>
    have hcounts : ∀ k, ((setMasks bits s).notice k).count ≤ 255 := fun k => by
      rw [setMasks_count]
      exact h.counts k
    exact h.frame rfl rfl rfl rfl rfl rfl rfl h.passNumber hcounts
  | acknowledge k =>
    exact h.frame rfl rfl rfl rfl rfl rfl rfl h.passNumber (acknowledge_count_le h.counts k)
  | limits c m x =>
    refine RangeInv.openGateIfMarked { h with importCap := ?_, margin := ?_, exportCap := ?_ }
    · exact Nat.min_le_left _ _
    · change min (min 2000 m) (min 20000 c) ≤ 2000 ∧ min (min 2000 m) (min 20000 c) ≤ min 20000 c
      omega
    · exact Nat.min_le_left _ _
  | fallback x hx => exact { h with fallback := hx }
  | battery cap floor dis ch hcap hfloor hdis hch =>
    exact { h with capacity := hcap, floor := hfloor, batteryPower := ⟨hdis, hch⟩ }
  | timing x =>
    obtain ⟨hwaits, hgap, hallow, hmiss⟩ := clampTiming_range x
    exact { h with waits := hwaits, pollGap := hgap, allowances := hallow, missThreshold := hmiss }
  | clock day second millis hday hsecond => exact { h with clock := ⟨hday, hsecond⟩ }
  | tariff bands price hbands hprice => exact { h with bands := hbands, canopyPrice := hprice }
  | blockSize n hlow hhigh => exact { h with blockSize := ⟨hlow, hhigh⟩ }
  | device e x _ _ _ hmiss => exact { h with missCounts := setDevice_missCounts h.missCounts hmiss }
  | source e x _ hmiss => exact { h with missCounts := setDevice_missCounts h.missCounts hmiss }
  | loop x hx =>
    have hmiss : ∀ e, (({ s with flc := x } : State).device e).missCount ≤ 15 := fun e => by
      simp only [State.device, hx]
      exact h.missCounts e
    exact { h with missCounts := hmiss }
  | results n c => exact h.writeResults n c
  | grantReserve =>
    unfold Machine.grantReserve
    split
    · exact { h with }
    · exact h
  | finish =>
    unfold finishPass
    split <;> exact { h with }
  | port | shedPin | rsvReqPin | records | refreshed => exact { h with }

theorem rollover_account (day : Nat) (s : State) (i : AccountId) : (rollover day s).account i = (s.account i).restored := by
  simp [rollover, State.account]

theorem Account.restored_inRange {a : Account} (h : a.InRange) : a.restored.InRange := by
  unfold Account.restored
  split <;> exact h

/-- What the checks of an ACCOUNT write let through (R129). -/
theorem accountArgs_range {p : List Byte} {a : AccountArgs} (h : accountArgs p = some a) :
    a.allowanceWh ≤ 65000 ∧ 1 ≤ a.maxHolders ∧ a.maxHolders ≤ 8 ∧ ¬(a.enabled = true ∧ a.token = 0) := by
  simp only [accountArgs, Option.bind_eq_bind, Option.bind_eq_some_iff] at h
  obtain ⟨i, -, e, -, c, -, h⟩ := h
  split at h
  · next hc => cases h; exact hc
  · cases h

theorem writtenAccount_inRange {p : List Byte} {a : AccountArgs} (h : accountArgs p = some a) (old : Account) :
    (writtenAccount a old).InRange :=
  ⟨Nat.min_le_left _ _, (accountArgs_range h).1, (accountArgs_range h).2.2.1⟩

theorem RangeInv.store {s t : State} (h : RangeInv s) (m : StoreMove s t) : RangeInv t := by
  cases m with
  | issue | retire | void => exact { h with }
  | rollover day =>
    have haccounts : ∀ i, ((rollover day s).account i).InRange := fun i => by
      rw [rollover_account]
      exact Account.restored_inRange (h.accounts i)
    exact { h with accounts := haccounts }
  | account p a hargs =>
    exact { h with accounts := setAccount_forall (P := Account.InRange) h.accounts (writtenAccount_inRange hargs _) }

/-- A write of one bay whose scan slot is EMPTY. -/
theorem setBay_overwrites {s : State} {b : BayId} {x : Bay} (h : ∀ b key n d, (s.bay b).scan = .pending key n d → n ≤ 255)
    (hx : x.scan = .empty) (c : BayId) (key n d : Nat) (hscan : ((s.setBay b x).bay c).scan = .pending key n d) : n ≤ 255 := by
  by_cases hc : c = b
  · subst hc
    rw [bay_setBay_same, hx] at hscan
    cases hscan
  · rw [bay_setBay_ne _ _ hc] at hscan
    exact h c key n d hscan

/-- A declaration or a removal of a bay writes its device entry, and its record with an EMPTY scan slot. -/
theorem RangeInv.redeclare {s : State} (h : RangeInv s) (e : Entry) (b : BayId) (d : Device) (y : Bay)
    (hmiss : d.missCount = (s.device e).missCount ∨ d.missCount ≤ 15) (hscan : y.scan = .empty) :
    RangeInv ((s.setDevice e d).setBay b y) :=
  { h with missCounts := setDevice_missCounts h.missCounts hmiss, overwrites := setBay_overwrites h.overwrites hscan }

theorem RangeInv.declaration {s t : State} (h : RangeInv s) (m : DeclarationMove s t) : RangeInv t := by
  cases m with
  | declare b => exact h.redeclare _ b _ _ (.inl rfl) rfl
  | remove b => exact h.redeclare _ b _ _ (.inr (Nat.zero_le _)) rfl
  | matched b r =>
    refine { h with overwrites := fun c key n d hscan => ?_ }
    by_cases hc : c = b
    · subst hc
      rw [takeMatch, bay_modBay_same] at hscan
      exact h.overwrites c key n d hscan
    · rw [takeMatch, bay_modBay_ne _ _ hc] at hscan
      exact h.overwrites c key n d hscan
  | layout mode p hmode =>
    refine RangeInv.openGateIfMarked { h with
      layoutMode := hmode, feederLimits := layoutLimits_le mode p, overwrites := fun c key n d hscan => ?_ }
    refine h.overwrites c key n d ?_
    simpa [State.bay] using hscan

theorem RangeInv.line {s t : State} (p : LinePiece s t) (h : RangeInv s) : RangeInv t := by
  cases p with
  | move m => exact h.move m
  | write => exact { h with }

theorem RangeInv.act {s t : State} (a : Act s t) (h : RangeInv s) : RangeInv t := by
  cases a with
  | session m => exact h.move m
  | charge m => exact h.edits m.edits (h.counters.charge m)
  | store m => exact h.store m
  | declaration m => exact h.declaration m
  | site m => exact h.site m
  | lines new => exact (applyLines_linePieces new s).keep (fun p h => h.line p) h
  | rsvReq => exact (takeRsvReqLevel_linePieces s).keep (fun p h => h.line p) h

/-! ## Every step -/

theorem RangeInv.tick {s : State} (h : RangeInv s) : RangeInv (tick s) := by
  have hclock : s.tc.tick.day ≤ 65535 ∧ s.tc.tick.second ≤ 86399 ∧ s.tc.tick.bands = s.tc.bands
      ∧ s.tc.tick.canopyPrice = s.tc.canopyPrice := by
    obtain ⟨hday, hsecond⟩ := h.clock
    unfold TariffClock.tick
    split
    · next hc =>
      have : s.tc.second ≠ 86399 := hc.2
      exact ⟨hday, by dsimp only; omega, rfl, rfl⟩
    · exact ⟨hday, hsecond, rfl, rfl⟩
  obtain ⟨hday, hsecond, hbands, hprice⟩ := hclock
  refine { h with clock := ⟨hday, hsecond⟩, bands := ?_, canopyPrice := ?_ }
  · change ∀ n : BandId, (∀ m, (s.tc.tick.bands[n.val]).start = some m → m ≤ 1439) ∧ (s.tc.tick.bands[n.val]).price ≤ 9999
    rw [hbands]
    exact h.bands
  · exact hprice.trans_le h.canopyPrice

theorem RangeInv.completed {s : State} (h : RangeInv s) : RangeInv (completed s) :=
  h.frame (by simp) (by simp) (by simp) (by simp) (by simp) (by simp) (by simp) (by simpa using h.passNumber)
    (by simpa using h.counts)

/-- Settles O57, by cases on the acts of the step. -/
theorem recordInvariantKept : Obligations.RecordInvariantKept := by
  intro s t hdecl hrange hstep
  refine step_keeps (P := fun s => DeclarationInv s ∧ RangeInv s) (W := fun s => DeclarationInv s ∧ RangeInv s)
    (fun s h => ⟨h.1.same rfl rfl rfl, h.2.tick⟩) (fun s rest h => ⟨h.1.same rfl rfl rfl, { h.2 with }⟩) (fun s h => h)
    (fun a h => ⟨h.1.act a, h.2.act a⟩) (fun s h => ⟨h.1.same (by simp) (by simp) (by simp), h.2.completed⟩)
    (fun s t h => ?_) hstep ⟨hdecl, hrange⟩
  rw [exec_reset] at h
  cases h
  obtain ⟨-, -, -, -, hdecl, -, -, -, hrange, -⟩ := invariantsHoldAtReset
  exact ⟨hdecl.same rfl rfl rfl, { hrange with }⟩

end Sys2Proof.Machine
end

section
/-! # The credit store's invariants (O58) -/

namespace Sys2Proof.Machine

/-! ## The credit table (R109) -/

/-- Fewer records, in the same order of key. -/
theorem CreditInv.sublist {s t : State} (h : CreditInv s)
    (hsub : (t.cs.credits.map (·.key)).Sublist (s.cs.credits.map (·.key))) : CreditInv t := by
  obtain ⟨hsorted, hkeys, hlen⟩ := h
  refine ⟨hsorted.sublist hsub, fun c hc => ?_, ?_⟩
  · obtain ⟨d, hd, hkey⟩ := List.mem_map.mp (hsub.subset (List.mem_map_of_mem hc))
    rw [← hkey]
    exact hkeys d hd
  · have := hsub.length_le
    simp only [List.length_map] at this
    omega

theorem CreditInv.same {s t : State} (h : CreditInv s) (hcs : t.cs.credits = s.cs.credits) : CreditInv t :=
  h.sublist (by rw [hcs])

theorem CreditInv.edits {s t : State} (h : CreditInv s) (e : Edits s t) : CreditInv t := by
  induction e with
  | refl => exact h
  | tail _ e ih =>
    cases e with
    | pass => exact ih.same (by simp)
    | credits cs hsub => exact ih.sublist hsub
    | bay | slot | counters | notice | queue | account => exact ih.same rfl

theorem insertCredit_perm (c : Credit) (cs : List Credit) : (insertCredit c cs).Perm (c :: cs) := by
  induction cs with
  | nil => exact .refl _
  | cons x xs ih =>
    unfold insertCredit
    split
    · exact .refl _
    · exact (ih.cons x).trans (.swap c x xs)

/-- A new key goes to its place (log 27). -/
theorem insertCredit_sorted {c : Credit} {cs : List Credit} (hsorted : (cs.map (·.key)).Pairwise (· < ·))
    (hnew : ∀ x ∈ cs, x.key ≠ c.key) : ((insertCredit c cs).map (·.key)).Pairwise (· < ·) := by
  induction cs with
  | nil => simp [insertCredit]
  | cons x xs ih =>
    rw [List.map_cons, List.pairwise_cons] at hsorted
    obtain ⟨hfirst, hrest⟩ := hsorted
    have hne : x.key ≠ c.key := hnew x (by simp)
    unfold insertCredit
    split
    · next hle =>
      rw [List.map_cons, List.map_cons, List.pairwise_cons, List.pairwise_cons]
      refine ⟨fun k hk => ?_, hfirst, hrest⟩
      rcases List.mem_cons.mp hk with rfl | hk
      · omega
      · have := hfirst k hk
        omega
    · next hgt =>
      rw [List.map_cons, List.pairwise_cons]
      refine ⟨fun k hk => ?_, ih hrest fun y hy => hnew y (by simp [hy])⟩
      obtain ⟨y, hy, rfl⟩ := List.mem_map.mp hk
      rcases List.mem_cons.mp ((insertCredit_perm c xs).mem_iff.mp hy) with rfl | hy
      · omega
      · exact hfirst _ (List.mem_map_of_mem hy)

/-- The key of an accepted ISSUE CREDIT is not 0 (R111). -/
theorem IssueArgs.key_ne_zero {a : IssueArgs} (h : a.valid = true) : a.key ≠ 0 := by
  simp only [IssueArgs.valid, Bool.and_eq_true, bne_iff_ne] at h
  exact h.1.1.1.1.1.1

/-- A key that is not found is the key of no record. -/
theorem lookupCredit_eq_none {key : Nat} {s : State} (hkey : key ≠ 0) (h : lookupCredit key s = none) :
    ∀ c ∈ s.cs.credits, c.key ≠ key := by
  rw [lookupCredit, if_neg hkey, List.find?_eq_none] at h
  exact fun c hc => by simpa using h c hc

theorem CreditInv.issue {s : State} (h : CreditInv s) {a : IssueArgs} (day : Nat) (hvalid : a.valid = true)
    (hnew : lookupCredit a.key s = none) (hroom : s.cs.credits.length < creditCapacity) :
    CreditInv (s.setCredits (insertCredit (issuedCredit a day) s.cs.credits)) := by
  obtain ⟨hsorted, hkeys, -⟩ := h
  have hperm := insertCredit_perm (issuedCredit a day) s.cs.credits
  refine ⟨insertCredit_sorted hsorted (lookupCredit_eq_none (IssueArgs.key_ne_zero hvalid) hnew), fun c hc => ?_, ?_⟩
  · rcases List.mem_cons.mp (hperm.mem_iff.mp hc) with rfl | hc
    · exact IssueArgs.key_ne_zero hvalid
    · exact hkeys c hc
  · have hlen := hperm.length_eq
    rw [List.length_cons] at hlen
    change (insertCredit _ _).length ≤ 256
    unfold creditCapacity at hroom
    omega

theorem Credit.atRollover_key {day : Nat} {c d : Credit} (h : Credit.atRollover day c = some d) : d.key = c.key := by
  unfold Credit.atRollover at h
  split at h
  · split at h
    · cases h
    · cases h
      rfl
  · cases h
    rfl

theorem filterMap_rollover_keys (day : Nat) (cs : List Credit) :
    ((cs.filterMap (Credit.atRollover day)).map (·.key)).Sublist (cs.map (·.key)) := by
  induction cs with
  | nil => exact .slnil
  | cons c cs ih =>
    rw [List.map_cons]
    cases hc : Credit.atRollover day c with
    | none =>
      rw [List.filterMap_cons_none hc]
      exact ih.cons _
    | some d =>
      rw [List.filterMap_cons_some hc, List.map_cons, Credit.atRollover_key hc]
      exact ih.cons_cons _

theorem Credit.voidHeld_key (c : Credit) : c.voidHeld.key = c.key := by
  unfold Credit.voidHeld
  split <;> rfl

theorem CreditInv.store {s t : State} (h : CreditInv s) (m : StoreMove s t) : CreditInv t := by
  cases m with
  | issue a hvalid hnew hroom => exact h.issue _ hvalid hnew hroom
  | retire key => exact h.sublist (List.Sublist.map _ List.filter_sublist)
  | void key =>
    refine h.sublist ?_
    change ((updateCredit key Credit.voidHeld s.cs.credits).map (·.key)).Sublist _
    rw [updateCredit_keys key Credit.voidHeld Credit.voidHeld_key]
  | rollover day => exact h.sublist (filterMap_rollover_keys day s.cs.credits)
  | account => exact h.same rfl

/-! ## The accounts (R126) -/

theorem Account.SameSettings.refl (a : Account) : a.SameSettings a :=
  ⟨rfl, rfl, rfl, rfl, rfl, rfl, rfl, Nat.le_max_left _ _, Nat.le_max_left _ _⟩

theorem Account.SameSettings.trans {x y z : Account} (h : x.SameSettings y) (g : y.SameSettings z) : x.SameSettings z := by
  refine ⟨g.token.trans h.token, g.enabled.trans h.enabled, g.cls.trans h.cls, g.firmSteps.trans h.firmSteps,
    g.allowanceWh.trans h.allowanceWh, g.solarOnly.trans h.solarOnly, g.maxHolders.trans h.maxHolders, ?_, ?_⟩
  · have hg := g.remainingWh
    have hh := h.remainingWh
    rw [h.allowanceWh] at hg
    omega
  · have hg := g.holders
    have hh := h.holders
    rw [h.maxHolders] at hg
    omega

/-- No small edit changes the settings of an account, or takes it out of its bounds. -/
theorem Edit.sameSettings {s t : State} (e : Edit s t) (i : AccountId) : (s.account i).SameSettings (t.account i) := by
  cases e with
  | pass => rw [requestPass_account]; exact .refl _
  | account j x hx =>
    by_cases hi : i = j
    · subst hi
      rw [account_setAccount_same]
      exact hx
    · rw [account_setAccount_ne _ _ hi]
      exact .refl _
  | bay | slot | counters | notice | queue | credits => exact .refl _

theorem Edits.sameSettings {s t : State} (e : Edits s t) (i : AccountId) : (s.account i).SameSettings (t.account i) := by
  induction e with
  | refl => exact .refl _
  | tail _ e ih => exact ih.trans (e.sameSettings i)

theorem AccountInv.frame {s t : State} (h : AccountInv s) (hsame : ∀ i, (s.account i).SameSettings (t.account i)) :
    AccountInv t := by
  obtain ⟨hbounds, htokens⟩ := h
  refine ⟨fun i => ?_, fun i j hij hi hj => ?_⟩
  · obtain ⟨hrem, hholders, htoken⟩ := hbounds i
    have hr := (hsame i).remainingWh
    have hh := (hsame i).holders
    rw [(hsame i).allowanceWh, (hsame i).maxHolders, (hsame i).enabled, (hsame i).token]
    exact ⟨by omega, by omega, htoken⟩
  · rw [(hsame i).token, (hsame j).token]
    exact htokens i j hij ((hsame i).enabled ▸ hi) ((hsame j).enabled ▸ hj)

theorem AccountInv.same {s t : State} (h : AccountInv s) (hcs : t.cs.accounts = s.cs.accounts) : AccountInv t :=
  h.frame fun i => by
    simp only [State.account, hcs]
    exact .refl _

theorem Account.restored_sameSettings (a : Account) : a.SameSettings a.restored := by
  unfold Account.restored
  split
  · exact ⟨rfl, rfl, rfl, rfl, rfl, rfl, rfl, Nat.le_max_right _ _, Nat.le_max_left _ _⟩
  · exact .refl a

/-- A token that is not taken is the token of no other enabled account (R129). -/
theorem token_ne_of_not_taken {s : State} {a : AccountArgs} (h : s.tokenTaken a = false) (ha : a.enabled = true) {i : AccountId}
    (hi : i ≠ a.index) (hen : (s.account i).enabled = true) : (s.account i).token ≠ a.token := by
  simp only [State.tokenTaken, ha, Bool.true_and, List.any_eq_false, Bool.and_eq_true, not_and, bne_iff_ne, beq_iff_eq] at h
  exact h i (List.mem_finRange i) ⟨hi, hen⟩

theorem remainingAfter_le (a : AccountArgs) (old : Account) : remainingAfter a old ≤ a.allowanceWh := by
  unfold remainingAfter
  split
  · exact le_refl _
  · exact Nat.min_le_right _ _

/-- An accepted ACCOUNT write keeps the account within its bounds, and its token its own (R129, R130). -/
theorem AccountInv.written {s : State} (h : AccountInv s) {p : List Byte} {a : AccountArgs} (hargs : accountArgs p = some a)
    (hfree : s.tokenTaken a = false) (huse : accountInUse a (s.account a.index) = false) :
    AccountInv (s.modAccount a.index (writtenAccount a)) := by
  obtain ⟨hbounds, htokens⟩ := h
  obtain ⟨-, -, -, hzero⟩ := accountArgs_range hargs
  have hnew : (s.modAccount a.index (writtenAccount a)).account a.index = writtenAccount a (s.account a.index) :=
    account_setAccount_same _ _ _
  have hold : ∀ i, i ≠ a.index → (s.modAccount a.index (writtenAccount a)).account i = s.account i :=
    fun i hi => account_setAccount_ne _ _ hi
  refine ⟨fun i => ?_, fun i j hij hi hj => ?_⟩
  · by_cases hc : i = a.index
    · rw [hc, hnew]
      simp only [accountInUse, Bool.or_eq_false_iff, decide_eq_false_iff_not, not_lt] at huse
      exact ⟨remainingAfter_le a _, huse.2, fun he ht => hzero ⟨he, ht⟩⟩
    · rw [hold i hc]
      exact hbounds i
  · by_cases hc : i = a.index
    · have hcj : j ≠ a.index := fun h => hij (hc.trans h.symm)
      rw [hold j hcj] at hj ⊢
      rw [hc, hnew] at hi ⊢
      exact (token_ne_of_not_taken hfree hi hcj hj).symm
    · rw [hold i hc] at hi ⊢
      by_cases hcj : j = a.index
      · rw [hcj, hnew] at hj ⊢
        exact token_ne_of_not_taken hfree hj hc hi
      · rw [hold j hcj] at hj ⊢
        exact htokens i j hij hi hj

theorem AccountInv.store {s t : State} (h : AccountInv s) (m : StoreMove s t) : AccountInv t := by
  cases m with
  | issue | retire | void => exact h.same rfl
  | rollover day =>
    refine h.frame fun i => ?_
    rw [rollover_account]
    exact Account.restored_sameSettings _
  | account p a hargs hfree huse => exact h.written hargs hfree huse

/-! ## Every step -/

/-- The credit table and the accounts within their rules. -/
def StoreInv (s : State) : Prop := CreditInv s ∧ AccountInv s

theorem StoreInv.same {s t : State} (h : StoreInv s) (hcs : t.cs = s.cs) : StoreInv t :=
  ⟨h.1.same (congrArg CreditStore.credits hcs), h.2.same (congrArg CreditStore.accounts hcs)⟩

theorem StoreInv.edits {s t : State} (h : StoreInv s) (e : Edits s t) : StoreInv t := ⟨h.1.edits e, h.2.frame e.sameSettings⟩

theorem SiteMove.credits {s t : State} (m : SiteMove s t) : t.cs.credits = s.cs.credits ∧ t.cs.accounts = s.cs.accounts := by
  cases m with
  | limits =>
    rw [(openGateIfMarked_tables _).2.2.2.1]
    exact ⟨rfl, rfl⟩
  | results n c =>
    rw [writeResults_cs]
    exact ⟨rfl, rfl⟩
  | grantReserve =>
    unfold Machine.grantReserve
    split <;> exact ⟨rfl, rfl⟩
  | finish =>
    unfold finishPass
    split <;> exact ⟨rfl, rfl⟩
  | port | drop | read | masks | acknowledge | fallback | battery | timing | shedPin | rsvReqPin | clock | tariff
    | blockSize | device | source | loop | records | refreshed => exact ⟨rfl, rfl⟩

theorem DeclarationMove.cs {s t : State} (m : DeclarationMove s t) : t.cs = s.cs := by
  cases m with
  | declare | remove | matched => rfl
  | layout => rw [(openGateIfMarked_tables _).2.2.2.1]

theorem StoreInv.line {s t : State} (p : LinePiece s t) (h : StoreInv s) : StoreInv t := by
  cases p with
  | move m => exact h.edits m.edits
  | write => exact h.same rfl

theorem StoreInv.act {s t : State} (a : Act s t) (h : StoreInv s) : StoreInv t := by
  cases a with
  | session m => exact h.edits m.edits
  | charge m => exact h.edits m.edits
  | store m => exact ⟨h.1.store m, h.2.store m⟩
  | declaration m => exact h.same m.cs
  | site m => exact ⟨h.1.same m.credits.1, h.2.same m.credits.2⟩
  | lines new => exact (applyLines_linePieces new s).keep (fun p h => h.line p) h
  | rsvReq => exact (takeRsvReqLevel_linePieces s).keep (fun p h => h.line p) h

/-- Settles O58, by cases on the acts of the step. -/
theorem creditStoreInvariantKept : Obligations.CreditStoreInvariantKept := by
  intro s t hcredits haccounts hstep
  refine step_keeps (P := StoreInv) (W := StoreInv) (fun s h => h.same rfl) (fun s rest h => h.same rfl) (fun s h => h)
    (fun a h => h.act a) (fun s h => h.same (by simp)) (fun s t h => ?_) hstep ⟨hcredits, haccounts⟩
  rw [exec_reset] at h
  cases h
  obtain ⟨-, -, -, -, -, hcredits, haccounts, -⟩ := invariantsHoldAtReset
  exact ⟨hcredits.same rfl, haccounts.same rfl⟩

end Sys2Proof.Machine
end

section
/-! # Sessions, bays and the admission queue (O59) -/

namespace Sys2Proof.Machine

/-! ## Sessions and bays (R46, R56) -/

/-- Nothing that a live session and its bay say of each other has changed. -/
structure SameSessions (s t : State) : Prop where
  live : ∀ k, (t.slot k).state.live = (s.slot k).state.live
  slotBay : ∀ k, (t.slot k).bay = (s.slot k).bay
  bayState : ∀ b, (t.bay b).state = (s.bay b).state
  session : ∀ b, (t.bay b).session = (s.bay b).session

theorem SessionInv.frame {s t : State} (h : SessionInv s) (hs : SameSessions s t) : SessionInv t := by
  obtain ⟨hslots, hbays⟩ := h
  refine ⟨fun k hk => ?_, fun b hb => ?_⟩
  · rw [hs.live] at hk
    rw [hs.slotBay, hs.bayState, hs.session]
    exact hslots k hk
  · rw [hs.bayState] at hb
    obtain ⟨k, hsession, hlive, hbay⟩ := hbays b hb
    exact ⟨k, by rw [hs.session]; exact hsession, by rw [hs.live]; exact hlive, by rw [hs.slotBay]; exact hbay⟩

theorem SameSessions.of_tables {s t : State} (hst : t.st.slots = s.st.slots) (hbays : t.bays = s.bays) : SameSessions s t := by
  constructor <;> intro <;> simp only [State.slot, State.bay, hst, hbays]

/-- A bay without a live session is not OCCUPIED. -/
theorem SessionInv.not_occupied {s : State} (h : SessionInv s) {b : BayId}
    (hfree : s.liveSlot b = none ∨ (s.bay b).state ≠ .occupied) : (s.bay b).state ≠ .occupied := by
  rcases hfree with hnone | hstate
  · intro hocc
    obtain ⟨k, hsession, hlive, -⟩ := h.2 b hocc
    simp [State.liveSlot, hsession, hlive] at hnone
  · exact hstate

/-- A write of a bay that has no live session and gets none. -/
theorem SessionInv.setBay_vacant {s : State} (h : SessionInv s) {b : BayId} {x : Bay} (hold : (s.bay b).state ≠ .occupied)
    (hnew : x.state ≠ .occupied) : SessionInv (s.setBay b x) := by
  obtain ⟨hslots, hbays⟩ := h
  refine ⟨fun k hk => ?_, fun c hc => ?_⟩
  · obtain ⟨hstate, hsession⟩ := hslots k hk
    have hne : (s.slot k).bay ≠ b := fun hb => hold (hb ▸ hstate)
    change ((s.setBay b x).bay (s.slot k).bay).state = _ ∧ ((s.setBay b x).bay (s.slot k).bay).session = _
    rw [bay_setBay_ne _ _ hne]
    exact ⟨hstate, hsession⟩
  · by_cases hcb : c = b
    · subst hcb
      rw [bay_setBay_same] at hc
      exact absurd hc hnew
    · rw [bay_setBay_ne _ _ hcb] at hc ⊢
      exact hbays c hc

/-- A write of a bay that keeps its state and its session. -/
theorem SameSessions.setBay (s : State) (b : BayId) (x : Bay) (hstate : x.state = (s.bay b).state)
    (hsession : x.session = (s.bay b).session) : SameSessions s (s.setBay b x) := by
  refine ⟨fun _ => rfl, fun _ => rfl, fun c => ?_, fun c => ?_⟩ <;> by_cases hc : c = b
  · subst hc; rw [bay_setBay_same]; exact hstate
  · rw [bay_setBay_ne _ _ hc]
  · subst hc; rw [bay_setBay_same]; exact hsession
  · rw [bay_setBay_ne _ _ hc]

/-- A write of a slot that keeps it live or not, and its bay. -/
theorem SameSessions.setSlot (s : State) (k : SlotId) (x : Slot) (hlive : x.state.live = (s.slot k).state.live)
    (hbay : x.bay = (s.slot k).bay) : SameSessions s (s.setSlot k x) := by
  refine ⟨fun j => ?_, fun j => ?_, fun _ => rfl, fun _ => rfl⟩ <;> by_cases hj : j = k
  · subst hj; rw [slot_setSlot_same]; exact hlive
  · rw [slot_setSlot_ne _ _ hj]
  · subst hj; rw [slot_setSlot_same]; exact hbay
  · rw [slot_setSlot_ne _ _ hj]

/-- The end of a live session, whose bay is OCCUPIED no more. -/
theorem SessionInv.closed {s t : State} {k : SlotId} (h : SessionInv s) (hat : At k (s.slot k).bay s t)
    (hlive : (s.slot k).state.live = true) (hended : (t.slot k).state.live = false)
    (hbay : (t.bay (s.slot k).bay).state ≠ .occupied) : SessionInv t := by
  obtain ⟨hslots, hbays⟩ := h
  have hk := hslots k hlive
  refine ⟨fun j hj => ?_, fun c hc => ?_⟩
  · have hjk : j ≠ k := fun he => by rw [he, hended] at hj; cases hj
    rw [hat.slots j hjk] at hj ⊢
    obtain ⟨hstate, hsession⟩ := hslots j hj
    have hne : (s.slot j).bay ≠ (s.slot k).bay := fun he => by
      rw [he, hk.2] at hsession
      exact hjk (Option.some.inj hsession).symm
    rw [hat.bays _ hne]
    exact ⟨hstate, hsession⟩
  · have hcb : c ≠ (s.slot k).bay := fun he => hbay (he ▸ hc)
    rw [hat.bays c hcb] at hc ⊢
    obtain ⟨j, hsession, hj, hjbay⟩ := hbays c hc
    have hjk : j ≠ k := fun he => hcb (by rw [← hjbay, he])
    exact ⟨j, hsession, by rw [hat.slots j hjk]; exact hj, by rw [hat.slots j hjk]; exact hjbay⟩

/-- The opening of a session in a FREE slot at a bay that has none. -/
theorem SessionInv.opened {s : State} {b : BayId} {k : SlotId} (h : SessionInv s) (hbay : (s.bay b).state ≠ .occupied)
    (hslot : (s.slot k).state.live = false) : SessionInv (openedState b k s) := by
  obtain ⟨hslots, hbays⟩ := h
  have hnew : (openedState b k s).slot k = s.openedSlot b := slot_setSlot_same _ _ _
  have hold : ∀ j, j ≠ k → (openedState b k s).slot j = s.slot j := fun j hj => slot_setSlot_ne _ _ hj
  have hbayb : (openedState b k s).bay b = { s.bay b with state := .occupied, session := some k, stopFlag := false } :=
    bay_modBay_same _ _ _
  have hbayc : ∀ c, c ≠ b → (openedState b k s).bay c = s.bay c := fun c hc => bay_modBay_ne _ _ hc
  refine ⟨fun j hj => ?_, fun c hc => ?_⟩
  · by_cases hjk : j = k
    · rw [hjk, hnew]
      change ((openedState b k s).bay b).state = _ ∧ ((openedState b k s).bay b).session = _
      rw [hbayb]
      exact ⟨rfl, rfl⟩
    · rw [hold j hjk] at hj ⊢
      obtain ⟨hstate, hsession⟩ := hslots j hj
      have hne : (s.slot j).bay ≠ b := fun he => hbay (he ▸ hstate)
      rw [hbayc _ hne]
      exact ⟨hstate, hsession⟩
  · by_cases hcb : c = b
    · exact ⟨k, by rw [hcb, hbayb], by rw [hnew]; rfl, by rw [hnew, hcb]; rfl⟩
    · rw [hbayc c hcb] at hc ⊢
      obtain ⟨j, hsession, hj, hjbay⟩ := hbays c hc
      have hjk : j ≠ k := fun he => by rw [he, hslot] at hj; cases hj
      exact ⟨j, hsession, by rw [hold j hjk]; exact hj, by rw [hold j hjk]; exact hjbay⟩

/-! ## The admission queue (R67, R68) -/

/-- The queue keeps, and so does all that it says of the sessions. -/
structure SameQueue (s t : State) : Prop where
  queue : t.al.queue = s.al.queue
  queued : ∀ k, (t.slot k).state.queued = (s.slot k).state.queued
  place : ∀ k, (s.slot k).state.queued = true → (t.slot k).cls = (s.slot k).cls ∧ (t.slot k).arrival = (s.slot k).arrival

theorem QueueInv.frame {s t : State} (h : QueueInv s) (hs : SameQueue s t) : QueueInv t := by
  obtain ⟨hnodup, hmem, hplace, hsorted⟩ := h
  unfold QueueInv
  rw [hs.queue]
  refine ⟨hnodup, fun k => by rw [hs.queued]; exact hmem k, fun m hm => ?_, hsorted⟩
  obtain ⟨hcls, harr⟩ := hs.place m.slot ((hmem m.slot).mp ⟨m, hm, rfl⟩)
  rw [hcls, harr]
  exact hplace m hm

theorem SameQueue.of_tables {s t : State} (hst : t.st.slots = s.st.slots) (hqueue : t.al.queue = s.al.queue) : SameQueue s t := by
  refine ⟨hqueue, fun k => ?_, fun k _ => ?_⟩ <;> simp only [State.slot, hst]
  exact ⟨trivial, trivial⟩

/-- A write of a slot that keeps it queued or not, and its place while it is queued. -/
theorem SameQueue.setSlot (s : State) (k : SlotId) (x : Slot) (hqueued : x.state.queued = (s.slot k).state.queued)
    (hplace : (s.slot k).state.queued = true → x.cls = (s.slot k).cls ∧ x.arrival = (s.slot k).arrival) :
    SameQueue s (s.setSlot k x) := by
  refine ⟨rfl, fun j => ?_, fun j hj => ?_⟩ <;> by_cases hjk : j = k
  · subst hjk; rw [slot_setSlot_same]; exact hqueued
  · rw [slot_setSlot_ne _ _ hjk]
  · subst hjk; rw [slot_setSlot_same]; exact hplace hj
  · rw [slot_setSlot_ne _ _ hjk]; exact ⟨rfl, rfl⟩

theorem mem_filter_slot {q : List Member} {k : SlotId} {m : Member} :
    m ∈ q.filter (fun m => m.slot != k) ↔ m ∈ q ∧ m.slot ≠ k := by
  simp [List.mem_filter]

/-- A session that leaves the queue leaves it in order. -/
theorem QueueInv.leave {s t : State} {k : SlotId} (h : QueueInv s) (hslots : ∀ j, j ≠ k → t.slot j = s.slot j)
    (hk : (t.slot k).state.queued = false) (hqueue : t.al.queue = s.al.queue.filter (fun m => m.slot != k)) : QueueInv t := by
  obtain ⟨hnodup, hmem, hplace, hsorted⟩ := h
  unfold QueueInv
  rw [hqueue]
  refine ⟨hnodup.sublist (List.Sublist.map _ List.filter_sublist), fun j => ?_, fun m hm => ?_,
    hsorted.sublist List.filter_sublist⟩
  · by_cases hj : j = k
    · subst hj
      rw [hk]
      refine ⟨fun ⟨m, hm, hslot⟩ => absurd hslot (mem_filter_slot.mp hm).2, fun h => by cases h⟩
    · rw [hslots j hj, ← hmem j]
      refine ⟨fun ⟨m, hm, hslot⟩ => ⟨m, (mem_filter_slot.mp hm).1, hslot⟩, fun ⟨m, hm, hslot⟩ => ⟨m, ?_, hslot⟩⟩
      exact mem_filter_slot.mpr ⟨hm, by rw [hslot]; exact hj⟩
  · obtain ⟨hm, hne⟩ := mem_filter_slot.mp hm
    rw [hslots _ hne]
    exact hplace m hm

/-- A session that is not queued is not in the queue. -/
theorem QueueInv.not_mem {s : State} (h : QueueInv s) {k : SlotId} (hk : (s.slot k).state.queued = false) :
    s.al.queue.filter (fun m => m.slot != k) = s.al.queue := by
  rw [List.filter_eq_self]
  intro m hm
  rw [bne_iff_ne]
  intro he
  have := (h.2.1 k).mp ⟨m, hm, he⟩
  rw [hk] at this
  cases this

theorem insertMember_perm (x : Member) (q : List Member) : (insertMember x q).Perm (x :: q) := by
  induction q with
  | nil => exact .refl _
  | cons y ys ih =>
    unfold insertMember
    split
    · exact .refl _
    · exact (ih.cons y).trans (.swap x y ys)

theorem Member.before_iff (x y : Member) :
    x.before y = true ↔ x.cls.rank < y.cls.rank ∨ (x.cls.rank = y.cls.rank ∧ x.arrival < y.arrival) := by
  simp [Member.before]

/-- Queue order is transitive where it does not separate. -/
theorem Member.not_before_trans {x y z : Member} (hxy : x.before y = true) (hyz : z.before y = false) : z.before x = false := by
  rw [← Bool.not_eq_true, Member.before_iff] at hyz ⊢
  rw [Member.before_iff] at hxy
  omega

theorem Member.not_before_of_before {x y : Member} (h : x.before y = true) : y.before x = false := by
  rw [← Bool.not_eq_true, Member.before_iff]
  rw [Member.before_iff] at h
  omega

/-- A member that joins keeps the queue in order (R68). -/
theorem insertMember_sorted (x : Member) {q : List Member} (h : q.Pairwise fun x y => y.before x = false) :
    (insertMember x q).Pairwise fun x y => y.before x = false := by
  induction q with
  | nil => simp [insertMember]
  | cons y ys ih =>
    obtain ⟨hfirst, hrest⟩ := List.pairwise_cons.mp h
    unfold insertMember
    split
    · next hbefore =>
      refine List.pairwise_cons.mpr ⟨fun z hz => ?_, h⟩
      rcases List.mem_cons.mp hz with rfl | hz
      · exact Member.not_before_of_before hbefore
      · exact Member.not_before_trans hbefore (hfirst z hz)
    · next hbefore =>
      refine List.pairwise_cons.mpr ⟨fun z hz => ?_, ih hrest⟩
      rcases List.mem_cons.mp ((insertMember_perm x ys).mem_iff.mp hz) with rfl | hz
      · simpa using hbefore
      · exact hfirst z hz

/-- A session that joins the queue takes its place in it. -/
theorem QueueInv.join {s t : State} {k : SlotId} {demand : Nat} (h : QueueInv s) (hslots : ∀ j, j ≠ k → t.slot j = s.slot j)
    (hold : (s.slot k).state.queued = false) (hnew : (t.slot k).state.queued = true)
    (hqueue : t.al.queue = insertMember ⟨k, (t.slot k).cls, (t.slot k).arrival, demand⟩ s.al.queue) : QueueInv t := by
  obtain ⟨hnodup, hmem, hplace, hsorted⟩ := h
  have habsent : ∀ m ∈ s.al.queue, m.slot ≠ k := fun m hm he => by
    have := (hmem k).mp ⟨m, hm, he⟩
    rw [hold] at this
    cases this
  have hperm := insertMember_perm ⟨k, (t.slot k).cls, (t.slot k).arrival, demand⟩ s.al.queue
  unfold QueueInv
  rw [hqueue]
  refine ⟨?_, fun j => ?_, fun m hm => ?_, insertMember_sorted _ hsorted⟩
  · rw [(hperm.map (·.slot)).nodup_iff, List.map_cons, List.nodup_cons]
    refine ⟨fun hk => ?_, hnodup⟩
    obtain ⟨m, hm, he⟩ := List.mem_map.mp hk
    exact habsent m hm he
  · by_cases hj : j = k
    · subst hj
      rw [hnew]
      exact ⟨fun _ => rfl, fun _ => ⟨_, hperm.mem_iff.mpr (List.mem_cons_self ..), rfl⟩⟩
    · rw [hslots j hj, ← hmem j]
      constructor
      · rintro ⟨m, hm, he⟩
        rcases List.mem_cons.mp (hperm.mem_iff.mp hm) with rfl | hm
        · exact absurd he.symm hj
        · exact ⟨m, hm, he⟩
      · rintro ⟨m, hm, he⟩
        exact ⟨m, hperm.mem_iff.mpr (List.mem_cons_of_mem _ hm), he⟩
  · rcases List.mem_cons.mp (hperm.mem_iff.mp hm) with rfl | hm
    · exact ⟨rfl, rfl⟩
    · rw [hslots _ (habsent m hm)]
      exact hplace m hm

/-! ## Authorisation (R51) -/

/-- A session with its arrival number. -/
def arrivedSlot (n : Nat) (x : Slot) : Slot := { x with authDeadline := none, arrival := n }

/-- The state in which a session with its arrival number has joined the queue. -/
def joinedState (k : SlotId) (s : State) : State :=
  joinQueue k { s.modSlot k (arrivedSlot s.st.arrival) with st.arrival := nextArrival s.st.arrival }

theorem joinedState_slot (k : SlotId) (s : State) :
    (joinedState k s).slot k = { s.slot k with authDeadline := none, arrival := s.st.arrival } := by
  unfold joinedState joinQueue
  rw [requestPass_slot]
  exact slot_modSlot_same s k (arrivedSlot s.st.arrival)

theorem joinedState_slot_ne {k j : SlotId} (s : State) (h : j ≠ k) : (joinedState k s).slot j = s.slot j := by
  unfold joinedState joinQueue
  rw [requestPass_slot]
  exact slot_modSlot_ne s (arrivedSlot s.st.arrival) h

theorem joinedState_queue (k : SlotId) (s : State) : (joinedState k s).al.queue =
    insertMember ⟨k, (s.slot k).cls, s.st.arrival, 0⟩ s.al.queue := by
  unfold joinedState joinQueue
  rw [requestPass_queue]
  change insertMember ⟨k, ((s.modSlot k (arrivedSlot s.st.arrival)).slot k).cls,
    ((s.modSlot k (arrivedSlot s.st.arrival)).slot k).arrival, 0⟩ s.al.queue = _
  rw [slot_modSlot_same]
  rfl

theorem joinedState_tables (k : SlotId) (s : State) : (joinedState k s).bays = s.bays ∧ (joinedState k s).cs = s.cs := by
  unfold joinedState joinQueue
  rw [requestPass_bays, requestPass_cs]
  exact ⟨rfl, rfl⟩

theorem authorise_eq (k : SlotId) (s : State) : authorise k s =
    if (joinedState k s).heldByShed ((joinedState k s).slot k).cls then
      (joinedState k s).modSlot k fun x => { x with state := .suspended, suspendCause := some .shed, runPermit := false }
    else requestPassIf (!((joinedState k s).slot k).runPermit)
      ((joinedState k s).modSlot k fun x => { x with state := .waiting, runPermit := true }) := rfl

/-- An authorised session has joined the queue in SUSPENDED or WAITING, with its arrival number. -/
theorem authorise_slot (k : SlotId) (s : State) : ∃ st cause permit, st.queued = true ∧ (authorise k s).slot k =
    { s.slot k with
      authDeadline := none, arrival := s.st.arrival, state := st, suspendCause := cause, runPermit := permit } := by
  rw [authorise_eq]
  split
  · exact ⟨.suspended, some .shed, false, rfl, by rw [slot_modSlot_same, joinedState_slot]⟩
  · refine ⟨.waiting, (s.slot k).suspendCause, true, rfl, ?_⟩
    rw [requestPassIf_slot, slot_modSlot_same, joinedState_slot]

theorem authorise_slot_ne {k j : SlotId} (s : State) (h : j ≠ k) : (authorise k s).slot j = s.slot j := by
  rw [authorise_eq]
  split
  · rw [slot_modSlot_ne _ _ h, joinedState_slot_ne s h]
  · rw [requestPassIf_slot, slot_modSlot_ne _ _ h, joinedState_slot_ne s h]

theorem authorise_queue (k : SlotId) (s : State) : (authorise k s).al.queue =
    insertMember ⟨k, (s.slot k).cls, s.st.arrival, 0⟩ s.al.queue := by
  rw [authorise_eq]
  split
  · exact joinedState_queue k s
  · rw [requestPassIf_queue]
    exact joinedState_queue k s

theorem authorise_tables (k : SlotId) (s : State) : (authorise k s).bays = s.bays ∧ (authorise k s).cs = s.cs := by
  rw [authorise_eq]
  split
  · exact joinedState_tables k s
  · rw [requestPassIf_bays, requestPassIf_cs]
    exact joinedState_tables k s

/-! ## Every move of a session, for the sessions and their bays -/

theorem SessionInv.same {s t : State} (h : SessionInv s) (hst : t.st.slots = s.st.slots) (hbays : t.bays = s.bays) :
    SessionInv t := h.frame (.of_tables hst hbays)

theorem SessionInv.authorise {s : State} (h : SessionInv s) {k : SlotId} (hstate : (s.slot k).state = .opening) :
    SessionInv (authorise k s) := by
  obtain ⟨st, cause, permit, hqueued, hslot⟩ := authorise_slot k s
  obtain ⟨hbays, -⟩ := authorise_tables k s
  refine h.frame ⟨fun j => ?_, fun j => ?_, fun b => ?_, fun b => ?_⟩
  · by_cases hj : j = k
    · rw [hj, hslot, hstate]
      exact live_of_queued hqueued
    · rw [authorise_slot_ne s hj]
  · by_cases hj : j = k
    · rw [hj, hslot]
    · rw [authorise_slot_ne s hj]
  · simp only [State.bay, hbays]
  · simp only [State.bay, hbays]

theorem SessionInv.ending {s : State} (h : SessionInv s) {k : SlotId} (cause : EndCause)
    (hstate : (s.slot k).state.queued = true) : SessionInv (endingBay k cause s) := by
  have hat := endingBay_at k cause s
  have hslot := endingBay_slot k cause s
  have hbay := endingBay_bay k cause s
  refine h.frame ⟨fun j => ?_, fun j => ?_, fun b => ?_, fun b => ?_⟩
  · by_cases hj : j = k
    · rw [hj, hslot, live_of_queued hstate]
      rfl
    · rw [hat.slots j hj]
  · by_cases hj : j = k
    · rw [hj, hslot]
    · rw [hat.slots j hj]
  · by_cases hb : b = (s.slot k).bay
    · rw [hb, hbay]
    · rw [hat.bays b hb]
  · by_cases hb : b = (s.slot k).bay
    · rw [hb, hbay]
    · rw [hat.bays b hb]

theorem bayAfterSettle_not_occupied (k : SlotId) (after : BayAfter) (y : Bay) : (bayAfterSettle k after y).state ≠ .occupied := by
  cases after <;> simp [bayAfterSettle]

theorem SessionInv.settle {s : State} (h : SessionInv s) {k : SlotId} (cause : Option EndCause) (after : BayAfter)
    (hstate : (s.slot k).state.live = true) : SessionInv (settle k cause after s) := by
  refine h.closed (At.settle k cause after s) hstate ?_ ?_
  · rw [(settle_settled k cause after s).state]
    rfl
  · rw [settle_bay]
    exact bayAfterSettle_not_occupied k after _

theorem abandon_at (k : SlotId) (s : State) : At k (s.slot k).bay s (abandon k s) := by
  unfold abandon
  exact (At.setSlot _ _ _ _).trans (At.modBay _ _ _ _)

theorem abandon_slot (k : SlotId) (s : State) : (abandon k s).slot k = {} := slot_setSlot_same _ _ _

theorem abandon_bay (k : SlotId) (s : State) : (abandon k s).bay (s.slot k).bay =
    if (s.bay (s.slot k).bay).plug then
      { s.bay (s.slot k).bay with scan := .empty, lostDeadline := none, state := .stopped, session := none, stopFlag := true }
    else { s.bay (s.slot k).bay with scan := .empty, lostDeadline := none, state := .idle, session := none } :=
  bay_modBay_same _ _ _

theorem SessionInv.abandon {s : State} (h : SessionInv s) {k : SlotId} (hstate : (s.slot k).state = .opening) :
    SessionInv (abandon k s) := by
  refine h.closed (abandon_at k s) (by rw [hstate]; rfl) (by rw [abandon_slot]; rfl) ?_
  rw [abandon_bay]
  split <;> simp

/-- A slot that holds no live session is cleared. -/
theorem SessionInv.setSlot_ended {s : State} (h : SessionInv s) {k : SlotId} {x : Slot}
    (hold : (s.slot k).state.live = false) (hnew : x.state.live = false) : SessionInv (s.setSlot k x) := by
  obtain ⟨hslots, hbays⟩ := h
  refine ⟨fun j hj => ?_, fun b hb => ?_⟩
  · have hne : j ≠ k := fun he => by
      rw [he, slot_setSlot_same, hnew] at hj
      cases hj
    rw [slot_setSlot_ne _ _ hne] at hj ⊢
    exact hslots j hj
  · obtain ⟨j, hsession, hj, hbay⟩ := hbays b hb
    have hne : j ≠ k := fun he => by rw [he, hold] at hj; cases hj
    exact ⟨j, hsession, by rw [slot_setSlot_ne _ _ hne]; exact hj, by rw [slot_setSlot_ne _ _ hne]; exact hbay⟩

theorem takeReceiptAt_settled {k : SlotId} {s : State} (h : (s.slot k).state = .settled) :
    (takeReceiptAt k s).2 = dropReference ((s.slot k).keptReceipt k).bay k (s.setSlot k {}) := by
  rw [takeReceiptAt, if_pos h]

theorem SessionInv.collect {s : State} (h : SessionInv s) {k : SlotId} (hstate : (s.slot k).state = .settled) :
    SessionInv (takeReceiptAt k s).2 := by
  have hcleared : SessionInv (s.setSlot k {}) := h.setSlot_ended (by rw [hstate]; rfl) rfl
  rw [takeReceiptAt_settled hstate]
  unfold dropReference
  split
  · next hc => exact hcleared.setBay_vacant (by rw [hc.1]; simp) (by rw [hc.1]; simp)
  · exact hcleared

/-- A bay whose scan slot holds a query (R115, R116). -/
def queriedBay (key : Nat) (s : State) (y : Bay) : Bay :=
  { y with scan := .pending key (nextOverwrites y.scan) (s.runTimer + s.sc.timing.tQuery * 1000), message := none }

theorem makePending_eq (key : Nat) (b : BayId) (s : State) :
    makePending key b s = countNotice .creditQuery b.val key (s.modBay b (queriedBay key s)) := rfl

theorem SessionInv.move {s t : State} (m : SessionMove s t) (h : SessionInv s) : SessionInv t := by
  cases m with
  | pass => exact h.same (by simp) (by simp)
  | notice => exact h.same rfl rfl
  | slotMarks k x hledger => exact h.frame (.setSlot s k x (by rw [hledger.state]) hledger.bay)
  | bayMarks b x _ hledger => exact h.frame (.setBay s b x hledger.state hledger.session)
  | queuedState k x hold hnew hledger =>
    exact h.frame (.setSlot s k x (by rw [live_of_queued hnew, live_of_queued hold]) hledger.bay)
  | authorise k hstate => exact h.authorise hstate
  | ending k cause hstate => exact h.ending cause hstate
  | settle k cause after hstate => exact h.settle cause after hstate
  | abandon k hstate => exact h.abandon hstate
  | opening b k hbay hslot => exact h.opened (by rcases hbay with hbay | hbay <;> simp [hbay]) (by rw [hslot]; rfl)
  | vacate b x _ hfree hstate => exact h.setBay_vacant (h.not_occupied hfree) hstate
  | emptyScan b => exact h.frame (.setBay s b _ rfl rfl)
  | pending key b =>
    have hqueried : SessionInv (s.modBay b (queriedBay key s)) := h.frame (.setBay s b _ rfl rfl)
    exact hqueried.same rfl rfl
  | collect k hstate => exact h.collect hstate

/-! ## Every move of a session, for the queue -/

theorem QueueInv.same {s t : State} (h : QueueInv s) (hst : t.st.slots = s.st.slots) (hqueue : t.al.queue = s.al.queue) :
    QueueInv t := h.frame (.of_tables hst hqueue)

/-- A write of a slot that is not queued, before or after. -/
theorem QueueInv.setSlot_unqueued {s : State} (h : QueueInv s) {k : SlotId} {x : Slot}
    (hold : (s.slot k).state.queued = false) (hnew : x.state.queued = false) : QueueInv (s.setSlot k x) :=
  h.frame (.setSlot s k x (hnew.trans hold.symm) fun hq => absurd (hold.symm.trans hq) (by decide))

theorem QueueInv.authorise {s : State} (h : QueueInv s) {k : SlotId} (hstate : (s.slot k).state = .opening) :
    QueueInv (authorise k s) := by
  obtain ⟨st, cause, permit, hqueued, hslot⟩ := authorise_slot k s
  refine h.join (demand := 0) (fun j hj => authorise_slot_ne s hj) ?_ ?_ ?_
  · rw [hstate]
    rfl
  · rw [hslot]
    exact hqueued
  · rw [authorise_queue, hslot]

theorem QueueInv.settle {s : State} (h : QueueInv s) (k : SlotId) (cause : Option EndCause) (after : BayAfter) :
    QueueInv (settle k cause after s) := by
  refine h.leave (At.settle k cause after s).slots ?_ ?_
  · rw [(settle_settled k cause after s).state]
    rfl
  · rw [settle_queue]
    split
    · rfl
    · next hq => exact (h.not_mem (by simpa using hq)).symm

theorem QueueInv.abandon {s : State} (h : QueueInv s) {k : SlotId} (hstate : (s.slot k).state = .opening) :
    QueueInv (abandon k s) := by
  have hcleared : QueueInv (s.setSlot k {}) := h.setSlot_unqueued (by rw [hstate]; rfl) rfl
  exact hcleared.same rfl rfl

theorem QueueInv.collect {s : State} (h : QueueInv s) {k : SlotId} (hstate : (s.slot k).state = .settled) :
    QueueInv (takeReceiptAt k s).2 := by
  have hcleared : QueueInv (s.setSlot k {}) := h.setSlot_unqueued (by rw [hstate]; rfl) rfl
  rw [takeReceiptAt_settled hstate]
  unfold dropReference
  split <;> exact hcleared.same rfl rfl

theorem QueueInv.move {s t : State} (m : SessionMove s t) (h : QueueInv s) : QueueInv t := by
  cases m with
  | pass => exact h.same (by simp) (by simp)
  | notice | bayMarks | vacate | emptyScan => exact h.same rfl rfl
  | slotMarks k x hledger =>
    exact h.frame (.setSlot s k x (by rw [hledger.state]) fun _ => ⟨hledger.cls, hledger.arrival⟩)
  | queuedState k x hold hnew hledger =>
    exact h.frame (.setSlot s k x (hnew.trans hold.symm) fun _ => ⟨hledger.cls, hledger.arrival⟩)
  | authorise k hstate => exact h.authorise hstate
  | ending k cause =>
    exact h.leave (endingBay_at k cause s).slots (by rw [endingBay_slot]; rfl) (endingBay_queue k cause s)
  | settle k cause after => exact h.settle k cause after
  | abandon k hstate => exact h.abandon hstate
  | opening b k _ hslot =>
    have hopened : QueueInv (s.setSlot k (s.openedSlot b)) := h.setSlot_unqueued (by rw [hslot]; rfl) rfl
    exact hopened.same rfl rfl
  | pending => exact h.same rfl rfl
  | collect k hstate => exact h.collect hstate

/-! ## Every act, and every step -/

theorem SiteMove.tables {s t : State} (m : SiteMove s t) : t.st = s.st ∧ t.bays = s.bays ∧ t.al.queue = s.al.queue := by
  cases m with
  | limits =>
    obtain ⟨-, hbays, hst, -, -⟩ := openGateIfMarked_tables _
    exact ⟨hst, hbays, openGateIfMarked_queue _⟩
  | results n c => exact ⟨writeResults_st n c s, writeResults_bays n c s, writeResults_queue n c s⟩
  | grantReserve =>
    unfold Machine.grantReserve
    split <;> exact ⟨rfl, rfl, rfl⟩
  | finish =>
    unfold finishPass
    split <;> exact ⟨rfl, rfl, rfl⟩
  | port | drop | read | masks | acknowledge | fallback | battery | timing | shedPin | rsvReqPin | clock | tariff
    | blockSize | device | source | loop | records | refreshed => exact ⟨rfl, rfl, rfl⟩

theorem StoreMove.tables {s t : State} (m : StoreMove s t) : t.st = s.st ∧ t.bays = s.bays ∧ t.al.queue = s.al.queue := by
  cases m with
  | issue | retire | void | rollover | account => exact ⟨rfl, rfl, rfl⟩

/-- The properties of the session and bay tables and of the queue, act by act. -/
theorem tables_act {P : State → Prop} (hmove : ∀ {s t}, SessionMove s t → P s → P t)
    (hslot : ∀ (s : State) k (x : Slot), x.state = (s.slot k).state → x.bay = (s.slot k).bay →
      ((x.cls = (s.slot k).cls ∧ x.arrival = (s.slot k).arrival) ∨ (s.slot k).state = .opening) → P s → P (s.setSlot k x))
    (hsame : ∀ {s t : State}, t.st = s.st → t.bays = s.bays → t.al.queue = s.al.queue → P s → P t)
    (hdeclaration : ∀ {s t}, DeclarationMove s t → P s → P t) {s t : State} (a : Act s t) (h : P s) : P t := by
  have hline : ∀ {s t}, LinePiece s t → P s → P t := fun p h => by
    cases p with
    | move m => exact hmove m h
    | write => refine hsame ?_ ?_ ?_ h <;> rfl
  cases a with
  | session m => exact hmove m h
  | charge m =>
    refine m.keep (P := P) (fun p h => ?_) h
    cases p with
    | move m => exact hmove m h
    | slot k x hstate hbay hplace => exact hslot _ k x hstate hbay hplace h
    | store => refine hsame ?_ ?_ ?_ h <;> rfl
  | store m => exact hsame m.tables.1 m.tables.2.1 m.tables.2.2 h
  | declaration m => exact hdeclaration m h
  | site m => exact hsame m.tables.1 m.tables.2.1 m.tables.2.2 h
  | lines new => exact (applyLines_linePieces new s).keep hline h
  | rsvReq => exact (takeRsvReqLevel_linePieces s).keep hline h

theorem SessionInv.openGateIfMarked {s : State} (h : SessionInv s) : SessionInv (openGateIfMarked s) := by
  obtain ⟨-, hbays, hst, -, -⟩ := openGateIfMarked_tables s
  exact h.same (congrArg SessionTable.slots hst) hbays

theorem SessionInv.declaration {s t : State} (m : DeclarationMove s t) (h : SessionInv s) : SessionInv t := by
  have hdevice : ∀ e x, SessionInv (s.setDevice e x) := fun e x => h.same rfl rfl
  cases m with
  | declare b kind maximum width _ _ hfree =>
    have hvacant := h.not_occupied (.inl hfree)
    exact (hdevice _ _).setBay_vacant hvacant hvacant
  | remove b hfree => exact (hdevice _ _).setBay_vacant (h.not_occupied (.inl hfree)) (by simp)
  | matched b r => exact h.frame (.setBay s b _ rfl rfl)
  | layout mode p =>
    refine SessionInv.openGateIfMarked (h.frame ⟨fun _ => rfl, fun _ => rfl, fun b => ?_, fun b => ?_⟩)
    · simp [State.bay]
    · simp [State.bay]

theorem QueueInv.declaration {s t : State} (m : DeclarationMove s t) (h : QueueInv s) : QueueInv t := by
  cases m with
  | declare | remove | matched => exact h.same rfl rfl
  | layout =>
    obtain ⟨-, -, hst, -, -⟩ := openGateIfMarked_tables _
    exact h.same (congrArg SessionTable.slots hst) (openGateIfMarked_queue _)

theorem SessionInv.act {s t : State} (a : Act s t) (h : SessionInv s) : SessionInv t :=
  tables_act SessionInv.move (fun s k x hstate hbay _ h => h.frame (.setSlot s k x (by rw [hstate]) hbay))
    (fun hst hbays _ h => h.same (congrArg SessionTable.slots hst) hbays) SessionInv.declaration a h

theorem QueueInv.act {s t : State} (a : Act s t) (h : QueueInv s) : QueueInv t := by
  refine tables_act QueueInv.move (fun s k x hstate _ hplace h => h.frame (.setSlot s k x (by rw [hstate]) fun hq => ?_))
    (fun hst _ hqueue h => h.same (congrArg SessionTable.slots hst) hqueue) QueueInv.declaration a h
  rcases hplace with hplace | hopening
  · exact hplace
  · rw [hopening] at hq
    cases hq

/-- The sampling of a pass writes the members' demands in use alone (log 8). -/
theorem completed_members (s : State) : ∃ f : Member → Member,
    (∀ m, (f m).slot = m.slot ∧ (f m).cls = m.cls ∧ (f m).arrival = m.arrival)
      ∧ (completed s).al.queue = s.al.queue.map f := by
  unfold completed sampleIfBegun
  split
  · exact ⟨fun m => { m with demandInUse := (s.slot m.slot).demand }, fun _ => ⟨rfl, rfl, rfl⟩, rfl⟩
  · exact ⟨id, fun _ => ⟨rfl, rfl, rfl⟩, (List.map_id _).symm⟩

theorem QueueInv.completed {s : State} (h : QueueInv s) : QueueInv (completed s) := by
  obtain ⟨hnodup, hmem, hplace, hsorted⟩ := h
  obtain ⟨f, hf, hqueue⟩ := completed_members s
  refine ⟨by rw [completed_queue]; exact hnodup, fun k => ?_, fun m hm => ?_, ?_⟩
  · rw [completed_slot, ← hmem k, hqueue]
    simp only [List.mem_map, exists_exists_and_eq_and, hf]
  · rw [hqueue, List.mem_map] at hm
    obtain ⟨m, hm, rfl⟩ := hm
    rw [(hf m).1, (hf m).2.1, (hf m).2.2, completed_slot]
    exact hplace m hm
  · rw [hqueue, List.pairwise_map]
    refine hsorted.imp fun {x y} hxy => ?_
    rw [Member.before, (hf x).2.1, (hf x).2.2, (hf y).2.1, (hf y).2.2]
    exact hxy

theorem SessionInv.completed {s : State} (h : SessionInv s) : SessionInv (completed s) := h.same (by simp) (by simp)

theorem reset_sessions {s t : State} (h : exec .reset s = .next t) : SessionInv t ∧ QueueInv t := by
  rw [exec_reset] at h
  cases h
  obtain ⟨-, -, -, -, -, -, -, -, -, hsessions, hqueue, -⟩ := invariantsHoldAtReset
  exact ⟨hsessions.same rfl rfl, hqueue.same rfl rfl⟩

/-- Settles O59, by cases on the acts of the step. -/
theorem sessionInvariantKept : Obligations.SessionInvariantKept := by
  intro s t hsessions hqueue hstep
  constructor
  · exact step_keeps (P := SessionInv) (W := SessionInv) (fun s h => h.same rfl rfl) (fun s rest h => h.same rfl rfl)
      (fun s h => h) (fun a h => h.act a) (fun s h => h.completed) (fun s t h => (reset_sessions h).1) hstep hsessions
  · exact step_keeps (P := QueueInv) (W := QueueInv) (fun s h => h.same rfl rfl) (fun s rest h => h.same rfl rfl)
      (fun s h => h) (fun a h => h.act a) (fun s h => h.completed) (fun s t h => (reset_sessions h).2) hstep hqueue

end Sys2Proof.Machine
end

section
/-! # The meters' invariant (first part of O60) -/

namespace Sys2Proof.Machine

/-! ## What leaves the meters -/

theorem Slot.SameMeter.refl (x : Slot) : x.SameMeter x := ⟨rfl, rfl, rfl, rfl, rfl⟩

theorem Slot.SameMeter.trans {x y z : Slot} (h : x.SameMeter y) (g : y.SameMeter z) : x.SameMeter z :=
  ⟨g.energyWh.trans h.energyWh, g.solar.trans h.solar, g.battery.trans h.battery, g.grid.trans h.grid,
    g.covered.trans h.covered⟩

/-- Every session has the same energy in the same parts. -/
def SameMeters (s t : State) : Prop := ∀ j, (s.slot j).SameMeter (t.slot j)

theorem SameMeters.trans {s t u : State} (h : SameMeters s t) (g : SameMeters t u) : SameMeters s u :=
  fun j => (h j).trans (g j)

theorem SameMeters.of_st {s t : State} (h : t.st.slots = s.st.slots) : SameMeters s t := fun j => by
  simp only [State.slot, h]
  exact .refl _

/-- One slot is written with the meter it has. -/
theorem SameMeters.of_slot {s t : State} {k : SlotId} (hothers : ∀ j, j ≠ k → t.slot j = s.slot j)
    (hk : (s.slot k).SameMeter (t.slot k)) : SameMeters s t := fun j => by
  by_cases hj : j = k
  · rw [hj]
    exact hk
  · rw [hothers j hj]
    exact .refl _

theorem SameMeters.setSlot {s : State} {k : SlotId} {x : Slot} (h : (s.slot k).SameMeter x) : SameMeters s (s.setSlot k x) :=
  .of_slot (fun _ hj => slot_setSlot_ne _ _ hj) (by rw [slot_setSlot_same]; exact h)

theorem SameMeters.modSlot (s : State) (k : SlotId) (f : Slot → Slot) (h : ∀ x, Slot.SameMeter x (f x)) :
    SameMeters s (s.modSlot k f) := .setSlot (h _)

theorem settle_sameMeters (k : SlotId) (cause : Option EndCause) (after : BayAfter) (s : State) :
    SameMeters s (settle k cause after s) := by
  obtain ⟨henergy, hsolar, hbattery, hgrid, hcovered, -⟩ := (settle_settled k cause after s).metered
  exact .of_slot (At.settle k cause after s).slots ⟨henergy, hsolar, hbattery, hgrid, hcovered⟩

theorem endingBay_sameMeters (k : SlotId) (cause : EndCause) (s : State) : SameMeters s (endingBay k cause s) :=
  .of_slot (endingBay_at k cause s).slots (by rw [endingBay_slot]; exact ⟨rfl, rfl, rfl, rfl, rfl⟩)

theorem enterEnding_sameMeters (k : SlotId) (cause : EndCause) (s : State) : SameMeters s (enterEnding k cause s) := by
  rw [enterEnding_eq]
  split
  · exact endingBay_sameMeters k cause s
  · refine ((endingBay_sameMeters k cause s).trans ?_).trans (settle_sameMeters k _ _ _)
    exact .modSlot _ k _ fun _ => ⟨rfl, rfl, rfl, rfl, rfl⟩

theorem endHold_sameMeters (k : SlotId) (s : State) : SameMeters s (endHold k s) :=
  .of_slot (At.endHold k (s.slot k).bay s).slots (by rw [endHold_slot]; exact ⟨rfl, rfl, rfl, rfl, rfl⟩)

theorem releaseSource_sameMeters (k : SlotId) (s : State) : SameMeters s (releaseSource k s) := by
  have hcleared : SameMeters s (s.modSlot k fun x => { x with source := none, blockLeft := 0, finalBlock := false }) :=
    .modSlot s k _ fun _ => ⟨rfl, rfl, rfl, rfl, rfl⟩
  unfold releaseSource
  dsimp only
  split
  · exact .of_st rfl
  · exact hcleared.trans (.of_st (by rw [releaseCredit_st]))
  · refine (hcleared.trans ?_).trans (endHold_sameMeters k _)
    exact .of_st rfl

theorem draw_sameMeters (k : SlotId) (s : State) : SameMeters s (draw k s) := by
  have htaken : ∀ w src, SameMeters s (takeFrom w s src) := fun w src => by
    cases src <;> exact .of_st rfl
  have hcounted : ∀ t src, SameMeters t (countExhausted t src) := fun t src => by
    cases src <;> exact .of_st rfl
  unfold draw
  split
  · exact .of_st rfl
  · dsimp only
    split
    · exact (htaken _ _).trans (.modSlot _ k _ fun _ => ⟨rfl, rfl, rfl, rfl, rfl⟩)
    · have hreleased := (releaseSource_sameMeters k s).trans (hcounted _ ‹Source›)
      unfold exhaust
      dsimp only
      split
      · exact hreleased.trans (enterEnding_sameMeters k _ _)
      · exact hreleased

theorem authorise_sameMeters (k : SlotId) (s : State) : SameMeters s (authorise k s) := by
  obtain ⟨st, cause, permit, -, hslot⟩ := authorise_slot k s
  exact .of_slot (fun _ hj => authorise_slot_ne s hj) (by rw [hslot]; exact ⟨rfl, rfl, rfl, rfl, rfl⟩)

theorem authoriseIfOpening_sameMeters (k : SlotId) (s : State) : SameMeters s (authoriseIfOpening k s) := by
  unfold authoriseIfOpening
  split
  · exact authorise_sameMeters k s
  · exact .of_st rfl

theorem attach_sameMeters (key : Nat) (k : SlotId) (b : BayId) (s : State) : SameMeters s (attach key k b s) := by
  unfold attach
  dsimp only
  refine SameMeters.trans ?_ (authoriseIfOpening_sameMeters k _)
  refine SameMeters.trans (SameMeters.trans ?_ (draw_sameMeters k _)) (.of_st rfl)
  exact SameMeters.trans (.modSlot s k (fun x => { x with source := some (.credit key), lastCreditKey := some key })
    fun _ => ⟨rfl, rfl, rfl, rfl, rfl⟩) (.of_st rfl)

theorem acceptToken_sameMeters (i : AccountId) (k : SlotId) (b : BayId) (s : State) :
    SameMeters s (acceptToken i k b s) := by
  have hheld : SameMeters s ((s.modAccount i fun a => { a with holders := a.holders + 1 }).modSlot k fun x =>
      { x with payment := .account, accountIndex := some i, accountHold := true
               cls := classUnder (s.account i).cls x.cls }) :=
    SameMeters.trans (.of_st rfl) (.modSlot (s.modAccount i _) k _ fun _ => ⟨rfl, rfl, rfl, rfl, rfl⟩)
  unfold acceptToken
  dsimp only
  refine SameMeters.trans ?_ (authoriseIfOpening_sameMeters k _)
  refine SameMeters.trans ?_ (.of_st rfl)
  split
  · refine (hheld.trans ?_).trans (draw_sameMeters k _)
    exact .modSlot _ k _ fun _ => ⟨rfl, rfl, rfl, rfl, rfl⟩
  · exact hheld

/-! ## The parts of the energy, and its coverage (R145, R146) -/

/-- One session's parts sum to its energy, and no more of it is covered. -/
def Slot.Metered (x : Slot) : Prop := x.solar + x.battery + x.grid = 1000 * x.energyWh ∧ x.covered ≤ 1000 * x.energyWh

theorem MeterInv.same {s t : State} (h : MeterInv s) (hs : SameMeters s t) : MeterInv t := fun k => by
  obtain ⟨henergy, hsolar, hbattery, hgrid, hcovered⟩ := hs k
  rw [henergy, hsolar, hbattery, hgrid, hcovered]
  exact h k

/-- One slot is written with a meter of its own. -/
theorem MeterInv.of_slot {s t : State} {k : SlotId} (h : MeterInv s) (hothers : ∀ j, j ≠ k → t.slot j = s.slot j)
    (hk : (t.slot k).Metered) : MeterInv t := fun j => by
  by_cases hj : j = k
  · rw [hj]
    exact hk
  · rw [hothers j hj]
    exact h j

/-- n mWh of a session's energy have been covered between two states, which keep every other meter. -/
structure Covers (k : SlotId) (n : Nat) (s t : State) : Prop where
  others : ∀ j, j ≠ k → (s.slot j).SameMeter (t.slot j)
  energyWh : (t.slot k).energyWh = (s.slot k).energyWh
  solar : (t.slot k).solar = (s.slot k).solar
  battery : (t.slot k).battery = (s.slot k).battery
  grid : (t.slot k).grid = (s.slot k).grid
  covered : (t.slot k).covered = (s.slot k).covered + n

theorem Covers.of_same {k : SlotId} {s t : State} (h : SameMeters s t) : Covers k 0 s t := by
  obtain ⟨henergy, hsolar, hbattery, hgrid, hcovered⟩ := h k
  exact ⟨fun j _ => h j, henergy, hsolar, hbattery, hgrid, hcovered⟩

theorem Covers.trans {k : SlotId} {n m : Nat} {s t u : State} (h : Covers k n s t) (g : Covers k m t u) :
    Covers k (n + m) s u := by
  refine ⟨fun j hj => (h.others j hj).trans (g.others j hj), g.energyWh.trans h.energyWh, g.solar.trans h.solar,
    g.battery.trans h.battery, g.grid.trans h.grid, ?_⟩
  rw [g.covered, h.covered, Nat.add_assoc]

/-- What is covered of a part, and what is not, make up the part. -/
theorem coverPart_covers (k : SlotId) (fuel part : Nat) (s : State) :
    ∃ n, n + (coverPart k fuel part s).1 = part ∧ Covers k n s (coverPart k fuel part s).2 := by
  induction fuel generalizing part s with
  | zero => exact ⟨0, by simp [coverPart], .of_same (.of_st rfl)⟩
  | succ fuel ih =>
    unfold coverPart
    split
    · exact ⟨0, by simp, .of_same (.of_st rfl)⟩
    · dsimp only
      have hused : Covers k (min part (s.slot k).blockLeft) s (s.modSlot k fun x => { x with
          covered := x.covered + min part (s.slot k).blockLeft
          blockLeft := (s.slot k).blockLeft - min part (s.slot k).blockLeft }) := by
        refine ⟨fun j hj => by rw [slot_modSlot_ne _ _ hj]; exact .refl _, ?_, ?_, ?_, ?_, ?_⟩ <;> rw [slot_modSlot_same]
      have hdrawn : Covers k (min part (s.slot k).blockLeft) s (if (s.slot k).blockLeft - min part (s.slot k).blockLeft = 0 then
          draw k (s.modSlot k fun x => { x with
            covered := x.covered + min part (s.slot k).blockLeft
            blockLeft := (s.slot k).blockLeft - min part (s.slot k).blockLeft })
          else s.modSlot k fun x => { x with
            covered := x.covered + min part (s.slot k).blockLeft
            blockLeft := (s.slot k).blockLeft - min part (s.slot k).blockLeft }) := by
        split
        · exact hused.trans (.of_same (draw_sameMeters k _))
        · exact hused
      obtain ⟨n, hn, hcovers⟩ := ih (part - min part (s.slot k).blockLeft) _
      exact ⟨min part (s.slot k).blockLeft + n, by omega, hdrawn.trans hcovers⟩

/-- No more than the three parts is covered of them. -/
theorem coverAll_covers (k : SlotId) (solar battery grid : Nat) (s : State) :
    ∃ n, n ≤ solar + battery + grid ∧ Covers k n s (coverAll k solar battery grid s).state := by
  unfold coverAll
  split
  · exact ⟨0, Nat.zero_le _, .of_same (.of_st rfl)⟩
  · dsimp only
    obtain ⟨n1, hn1, h1⟩ := coverPart_covers k (solar / 1000 + 2) solar s
    split
    · exact ⟨n1, by omega, h1⟩
    · obtain ⟨n2, hn2, h2⟩ := coverPart_covers k (battery / 1000 + 2) battery (cover k solar s).2
      obtain ⟨n3, hn3, h3⟩ := coverPart_covers k (grid / 1000 + 2) grid (cover k battery (cover k solar s).2).2
      exact ⟨n1 + n2 + n3, by omega, (h1.trans h2).trans h3⟩

/-- A difference is split by shares that sum to 1000, and no more than it is covered. -/
theorem MeterInv.accrued {s : State} (h : MeterInv s) (hshare : ShareInv s) (k : SlotId) (delta : Nat) :
    MeterInv (accruedState k delta s) := by
  have hparts : delta * s.al.share.solar + delta * s.al.share.battery + delta * s.al.share.grid = 1000 * delta := by
    rw [← Nat.mul_add, ← Nat.mul_add, hshare, Nat.mul_comm]
  obtain ⟨n, hn, hcovers⟩ := coverAll_covers k (delta * s.al.share.solar) (delta * s.al.share.battery)
    (delta * s.al.share.grid) (s.modSlot k fun x => { x with
      energyWh := x.energyWh + delta
      solar := x.solar + delta * s.al.share.solar
      battery := x.battery + delta * s.al.share.battery
      grid := x.grid + delta * s.al.share.grid })
  obtain ⟨hsum, hcov⟩ := h k
  intro j
  unfold accruedState
  by_cases hj : j = k
  · rw [hj, hcovers.energyWh, hcovers.solar, hcovers.battery, hcovers.grid, hcovers.covered, slot_modSlot_same]
    dsimp only
    omega
  · obtain ⟨henergy, hsolar, hbattery, hgrid, hcovered⟩ := hcovers.others j hj
    rw [henergy, hsolar, hbattery, hgrid, hcovered, slot_modSlot_ne _ _ hj]
    exact h j

/-! ## Every step -/

theorem Slot.metered_reset : ({} : Slot).Metered := ⟨rfl, Nat.le_refl _⟩

theorem MeterInv.move {s t : State} (m : SessionMove s t) (h : MeterInv s) : MeterInv t := by
  have hcleared : ∀ k, MeterInv (s.setSlot k {}) := fun k =>
    h.of_slot (fun _ hj => slot_setSlot_ne _ _ hj) (by rw [slot_setSlot_same]; exact Slot.metered_reset)
  cases m with
  | pass => exact h.same (.of_st (by simp))
  | notice | bayMarks | vacate | emptyScan | pending => exact h.same (.of_st rfl)
  | slotMarks k x _ hmeter => exact h.same (.setSlot hmeter)
  | queuedState k x _ _ _ hmeter => exact h.same (.setSlot hmeter)
  | authorise k => exact h.same (authorise_sameMeters k s)
  | ending k cause => exact h.same (endingBay_sameMeters k cause s)
  | settle k cause after => exact h.same (settle_sameMeters k cause after s)
  | abandon k => exact (hcleared k).same (.of_st rfl)
  | opening b k =>
    exact h.of_slot (k := k) (fun _ hj => slot_setSlot_ne _ _ hj) (by
      rw [show (openedState b k s).slot k = s.openedSlot b from slot_setSlot_same _ _ _]
      exact Slot.metered_reset)
  | collect k hstate =>
    rw [takeReceiptAt_settled hstate]
    refine (hcleared k).same (.of_st ?_)
    unfold dropReference
    split <;> rfl

theorem MeterInv.charge {s t : State} (m : ChargeMove s t) (hshare : ShareInv s) (h : MeterInv s) : MeterInv t := by
  cases m with
  | attach key k b => exact h.same (attach_sameMeters key k b s)
  | token i k b => exact h.same (acceptToken_sameMeters i k b s)
  | accrued k delta => exact h.accrued hshare k delta

theorem DeclarationMove.st {s t : State} (m : DeclarationMove s t) : t.st = s.st := by
  cases m with
  | declare | remove | matched => rfl
  | layout => rw [(openGateIfMarked_tables _).2.2.1]

theorem MeterInv.line {s t : State} (p : LinePiece s t) (h : MeterInv s) : MeterInv t := by
  cases p with
  | move m => exact h.move m
  | write => exact h.same (.of_st rfl)

theorem MeterInv.act {s t : State} (a : Act s t) (hshare : ShareInv s) (h : MeterInv s) : MeterInv t := by
  cases a with
  | session m => exact h.move m
  | charge m => exact h.charge m hshare
  | store m => exact h.same (.of_st (congrArg SessionTable.slots m.tables.1))
  | declaration m => exact h.same (.of_st (congrArg SessionTable.slots m.st))
  | site m => exact h.same (.of_st (congrArg SessionTable.slots m.tables.1))
  | lines new => exact (applyLines_linePieces new s).keep (fun p h => h.line p) h
  | rsvReq => exact (takeRsvReqLevel_linePieces s).keep (fun p h => h.line p) h

theorem ShareInv.same {s t : State} (h : ShareInv s) (hshare : t.al.share = s.al.share) : ShareInv t := by
  unfold ShareInv
  rw [hshare]
  exact h

theorem ShareInv.line {s t : State} (p : LinePiece s t) (h : ShareInv s) : ShareInv t := by
  cases p with
  | move m => exact h.same m.edits.untouched.share
  | write => exact h.same rfl

theorem ShareInv.act {s t : State} (a : Act s t) (h : ShareInv s) : ShareInv t := by
  cases a with
  | session m => exact h.same m.edits.untouched.share
  | charge m => exact h.same m.edits.untouched.share
  | store m =>
    cases m with
    | issue | retire | void | rollover | account => exact h.same rfl
  | declaration m =>
    cases m with
    | declare | remove | matched => exact h.same rfl
    | layout => exact h.same (openGateIfMarked_al _).1
  | site m =>
    cases m with
    | limits => exact h.same (openGateIfMarked_al _).1
    | results n c =>
      unfold ShareInv
      rw [writeResults_share]
      exact sharesOf_sum _ _ _ _ _
    | grantReserve =>
      unfold grantReserve
      split <;> exact h.same rfl
    | finish =>
      unfold finishPass
      split <;> exact h.same rfl
    | port | drop | read | masks | acknowledge | fallback | battery | timing | shedPin | rsvReqPin | clock | tariff
      | blockSize | device | source | loop | records | refreshed => exact h.same rfl
  | lines new => exact (applyLines_linePieces new s).keep (fun p h => h.line p) h
  | rsvReq => exact (takeRsvReqLevel_linePieces s).keep (fun p h => h.line p) h

/-- Every step keeps the parts of every session's energy, given shares that sum to 1000. -/
theorem meterInv_kept {s t : State} (hshare : ShareInv s) (hmeter : MeterInv s) (hstep : step s = .next t) : MeterInv t := by
  have hkept : ShareInv t ∧ MeterInv t :=
    step_keeps (P := fun s => ShareInv s ∧ MeterInv s) (W := fun s => ShareInv s ∧ MeterInv s)
      (fun s h => h) (fun s rest h => h) (fun s h => h) (fun a h => ⟨h.1.act a, h.2.act a h.1⟩)
      (fun s h => ⟨h.1.same (by simp), h.2.same (.of_st (by simp))⟩) (fun s t h => ?_) hstep ⟨hshare, hmeter⟩
  · exact hkept.2
  · rw [exec_reset] at h
    cases h
    obtain ⟨-, -, hshare, -, -, -, -, -, -, -, -, -, hmeter, -⟩ := invariantsHoldAtReset
    exact ⟨hshare, hmeter⟩

end Sys2Proof.Machine
end

section
/-! # Bays, sessions and credits (second part of O60)

`LedgerInv` in three: what bays say of sessions (`BayLedger`), what credits and sources say of each other (`CreditLedger`), and which
sessions hold a source (`SourceLedger`). -/

namespace Sys2Proof.Machine

/-- A session may yet take a scan: it is not ending. -/
def SessionState.MayScan (st : SessionState) : Prop := st = .opening ∨ st.queued = true

/-- A bay's session and its receipt, and the scan slots (R56, R119). -/
structure BayLedger (s : State) : Prop where
  named : ∀ b k, (s.bay b).session = some k → (s.slot k).bay = b
    ∧ (((s.bay b).state = .occupied ∧ (s.slot k).state.live = true)
      ∨ ((s.bay b).state = .stopped ∧ (s.slot k).state = .settled))
  receipts : ∀ k, (s.slot k).state = .settled → ∃ r, (s.slot k).receipt = some r ∧ r.bay = (s.slot k).bay
  scans : ∀ b key n d, (s.bay b).scan = .pending key n d →
    ∃ k, (s.bay b).session = some k ∧ (s.slot k).state.MayScan ∧ (s.slot k).source = none

/-- The credits and the sources of the sessions (R119, R120). -/
structure CreditLedger (s : State) : Prop where
  holders : ∀ c ∈ s.cs.credits, c.state = .held → ∃ k, c.holder = some k ∧ (s.slot k).source = some (.credit c.key)
  sourceless : ∀ k, (s.slot k).source = none → (s.slot k).blockLeft = 0 ∧ (s.slot k).finalBlock = false
  issued : ∀ c ∈ s.cs.credits, c.state = .issued → c.holder = none ∧ 0 < c.remainingWh
  held : ∀ k key, (s.slot k).source = some (.credit key) →
    ∃ c ∈ s.cs.credits, c.key = key ∧ c.state = .held ∧ c.holder = some k
  energy : ∀ c ∈ s.cs.credits, c.remainingWh ≤ c.originalWh
    ∧ ∀ k, c.holder = some k → c.remainingWh + ceilDiv (s.slot k).blockLeft 1000 ≤ c.originalWh

/-- A session with a source is queued or ending. -/
def Slot.SourceFits (x : Slot) : Prop := x.source ≠ none → x.state.queued = true ∨ x.state = .ending

/-- Every session with a source is queued or ending. -/
def SourceLedger (s : State) : Prop := ∀ k, (s.slot k).SourceFits

theorem ledgerInv_iff (s : State) : LedgerInv s ↔ BayLedger s ∧ CreditLedger s ∧ SourceLedger s := by
  constructor
  · intro h
    exact ⟨⟨h.named, h.receipts, h.scans⟩, ⟨h.holders, h.sourceless, h.issued, h.held, h.energy⟩, h.sources⟩
  · rintro ⟨⟨hnamed, hreceipts, hscans⟩, ⟨hholders, hsourceless, hissued, hheld, henergy⟩, hsources⟩
    exact ⟨hnamed, hreceipts, hscans, hsources, hholders, hsourceless, hissued, hheld, henergy⟩

/-! ## What the bays say -/

/-- A session's change that its bay need not know of. -/
structure Slot.SeenSame (old new : Slot) : Prop where
  bay : new.bay = old.bay
  live : old.state.live = true → new.state.live = true
  settled : new.state = .settled ↔ old.state = .settled
  receipt : old.state = .settled → new.receipt = old.receipt
  mayScan : old.state.MayScan → old.source = none → new.state.MayScan ∧ new.source = none

/-- A bay's change that keeps its state and its session, and its scan slot unless it is emptied. -/
structure Bay.SeenSame (old new : Bay) : Prop where
  state : new.state = old.state
  session : new.session = old.session
  scan : new.scan = old.scan ∨ new.scan = .empty

theorem BayLedger.frame {s t : State} (h : BayLedger s) (hslots : ∀ k, (s.slot k).SeenSame (t.slot k))
    (hbays : ∀ b, (s.bay b).SeenSame (t.bay b)) : BayLedger t := by
  obtain ⟨hnamed, hreceipts, hscans⟩ := h
  refine ⟨fun b k hsession => ?_, fun k hstate => ?_, fun b key n d hscan => ?_⟩
  · rw [(hbays b).session] at hsession
    obtain ⟨hbay, hstates⟩ := hnamed b k hsession
    rw [(hslots k).bay, (hbays b).state, (hslots k).settled]
    refine ⟨hbay, hstates.imp_left fun ⟨hocc, hlive⟩ => ⟨hocc, (hslots k).live hlive⟩⟩
  · have hold := (hslots k).settled.mp hstate
    rw [(hslots k).receipt hold, (hslots k).bay]
    exact hreceipts k hold
  · rcases (hbays b).scan with hsame | hempty
    · obtain ⟨k, hsession, hopen, hsource⟩ := hscans b key n d (hsame ▸ hscan)
      exact ⟨k, by rw [(hbays b).session]; exact hsession, (hslots k).mayScan hopen hsource⟩
    · rw [hempty] at hscan
      cases hscan

theorem Slot.SeenSame.refl (x : Slot) : x.SeenSame x := ⟨rfl, id, Iff.rfl, fun _ => rfl, fun h g => ⟨h, g⟩⟩

theorem Bay.SeenSame.refl (y : Bay) : y.SeenSame y := ⟨rfl, rfl, .inl rfl⟩

/-- The bay and session tables as they were. -/
theorem BayLedger.same {s t : State} (h : BayLedger s) (hst : t.st.slots = s.st.slots) (hbays : t.bays = s.bays) :
    BayLedger t := by
  refine h.frame (fun k => ?_) fun b => ?_
  · simp only [State.slot, hst]
    exact .refl _
  · simp only [State.bay, hbays]
    exact .refl _

/-- One slot is written with a change that its bay need not know of. -/
theorem BayLedger.frame_slot {s t : State} {k : SlotId} (h : BayLedger s) (hothers : ∀ j, j ≠ k → t.slot j = s.slot j)
    (hbays : t.bays = s.bays) (hk : (s.slot k).SeenSame (t.slot k)) : BayLedger t := by
  refine h.frame (fun j => ?_) fun b => ?_
  · by_cases hj : j = k
    · rw [hj]
      exact hk
    · rw [hothers j hj]
      exact .refl _
  · simp only [State.bay, hbays]
    exact .refl _

/-- One bay is written with its state and its session. -/
theorem BayLedger.setBay {s : State} (h : BayLedger s) {b : BayId} {x : Bay} (hx : (s.bay b).SeenSame x) :
    BayLedger (s.setBay b x) := by
  refine h.frame (fun k => .refl _) fun c => ?_
  by_cases hc : c = b
  · rw [hc, bay_setBay_same]
    exact hx
  · rw [bay_setBay_ne _ _ hc]
    exact .refl _

/-- One bay gets another session, state or scan slot, and no session that another bay names changes. -/
theorem BayLedger.rebay {s t : State} (h : BayLedger s) (b : BayId) (hbays : ∀ c, c ≠ b → t.bay c = s.bay c)
    (hslots : ∀ c, c ≠ b → ∀ j, (s.bay c).session = some j → t.slot j = s.slot j)
    (hreceipts : ∀ j, (t.slot j).state = .settled → t.slot j = s.slot j
      ∨ ∃ r, (t.slot j).receipt = some r ∧ r.bay = (t.slot j).bay)
    (hnamed : ∀ j, (t.bay b).session = some j → (t.slot j).bay = b
      ∧ (((t.bay b).state = .occupied ∧ (t.slot j).state.live = true)
        ∨ ((t.bay b).state = .stopped ∧ (t.slot j).state = .settled)))
    (hscans : ∀ key n d, (t.bay b).scan = .pending key n d →
      ∃ k, (t.bay b).session = some k ∧ (t.slot k).state.MayScan ∧ (t.slot k).source = none) : BayLedger t := by
  refine ⟨fun c j hsession => ?_, fun j hstate => ?_, fun c key n d hscan => ?_⟩
  · by_cases hc : c = b
    · subst hc
      exact hnamed j hsession
    · rw [hbays c hc] at hsession ⊢
      rw [hslots c hc j hsession]
      exact h.named c j hsession
  · rcases hreceipts j hstate with hsame | hr
    · rw [hsame] at hstate ⊢
      exact h.receipts j hstate
    · exact hr
  · by_cases hc : c = b
    · subst hc
      exact hscans key n d hscan
    · rw [hbays c hc] at hscan ⊢
      obtain ⟨j, hsession, hopen, hsource⟩ := h.scans c key n d hscan
      rw [← hslots c hc j hsession] at hopen hsource
      exact ⟨j, hsession, hopen, hsource⟩

/-- A session that a bay names is at no other. -/
theorem BayLedger.named_ne {s : State} (h : BayLedger s) {c : BayId} {j k : SlotId} (hc : c ≠ (s.slot k).bay)
    (hsession : (s.bay c).session = some j) : j ≠ k := fun he => hc (by rw [← he, (h.named c j hsession).1])

/-- Only a bay in OCCUPIED has a scan slot that is PENDING. -/
theorem BayLedger.scan_empty {s : State} (h : BayLedger s) {b : BayId} (hb : (s.bay b).state ≠ .occupied) :
    (s.bay b).scan = .empty := by
  cases hscan : (s.bay b).scan with
  | empty => rfl
  | pending key n d =>
    obtain ⟨k, hsession, hopen, -⟩ := h.scans b key n d hscan
    rcases (h.named b k hsession).2 with ⟨hocc, -⟩ | ⟨-, hsettled⟩
    · exact absurd hocc hb
    · rw [hsettled] at hopen
      rcases hopen with h | h <;> cases h

/-- Only a bay in OCCUPIED or STOPPED names a session. -/
theorem BayLedger.session_none {s : State} (h : BayLedger s) {b : BayId} (hocc : (s.bay b).state ≠ .occupied)
    (hstopped : (s.bay b).state ≠ .stopped) : (s.bay b).session = none := by
  cases hsession : (s.bay b).session with
  | none => rfl
  | some k =>
    rcases (h.named b k hsession).2 with ⟨hs, -⟩ | ⟨hs, -⟩
    · exact absurd hs hocc
    · exact absurd hs hstopped

/-- A bay that has no live session is written with none, its scan slot EMPTY. -/
theorem BayLedger.vacated {s : State} (h : BayLedger s) {b : BayId} {x : Bay} (hsession : x.session = none)
    (hscan : x.scan = .empty) : BayLedger (s.setBay b x) := by
  refine h.rebay b (fun c hc => bay_setBay_ne _ _ hc) (fun _ _ _ _ => rfl) (fun _ _ => .inl rfl) (fun j hj => ?_)
    fun key n d hp => ?_
  · rw [bay_setBay_same, hsession] at hj
    cases hj
  · rw [bay_setBay_same, hscan] at hp
    cases hp

/-! ## What the credits say -/

theorem CreditLedger.frame {s t : State} (h : CreditLedger s) (hcredits : t.cs.credits = s.cs.credits)
    (hsource : ∀ k, (t.slot k).source = (s.slot k).source) (hblock : ∀ k, (t.slot k).blockLeft = (s.slot k).blockLeft)
    (hfinal : ∀ k, (t.slot k).finalBlock = (s.slot k).finalBlock) : CreditLedger t := by
  obtain ⟨hholders, hsourceless, hissued, hheld, henergy⟩ := h
  constructor <;> simp only [hcredits, hsource, hblock, hfinal]
  · exact hholders
  · exact hsourceless
  · exact hissued
  · exact hheld
  · exact henergy

theorem CreditLedger.same {s t : State} (h : CreditLedger s) (hst : t.st.slots = s.st.slots)
    (hcredits : t.cs.credits = s.cs.credits) : CreditLedger t :=
  h.frame hcredits (fun k => by simp only [State.slot, hst]) (fun k => by simp only [State.slot, hst])
    fun k => by simp only [State.slot, hst]

/-- One slot is written with its source and its block. -/
theorem CreditLedger.frame_slot {s t : State} {k : SlotId} (h : CreditLedger s) (hothers : ∀ j, j ≠ k → t.slot j = s.slot j)
    (hcredits : t.cs.credits = s.cs.credits) (hsource : (t.slot k).source = (s.slot k).source)
    (hblock : (t.slot k).blockLeft = (s.slot k).blockLeft) (hfinal : (t.slot k).finalBlock = (s.slot k).finalBlock) :
    CreditLedger t := by
  refine h.frame hcredits (fun j => ?_) (fun j => ?_) fun j => ?_ <;> by_cases hj : j = k
  · rw [hj, hsource]
  · rw [hothers j hj]
  · rw [hj, hblock]
  · rw [hothers j hj]
  · rw [hj, hfinal]
  · rw [hothers j hj]

/-- A session that holds no credit holds none. -/
theorem CreditLedger.free {s t : State} {k : SlotId} (h : CreditLedger s) (hothers : ∀ j, j ≠ k → t.slot j = s.slot j)
    (hcredits : t.cs.credits = s.cs.credits) (hold : ∀ key, (s.slot k).source ≠ some (.credit key))
    (hnew : ∀ key, (t.slot k).source ≠ some (.credit key))
    (hless : (t.slot k).source = none → (t.slot k).blockLeft = 0 ∧ (t.slot k).finalBlock = false) : CreditLedger t := by
  have hne : ∀ c ∈ s.cs.credits, ∀ j, c.holder = some j → j ≠ k := fun c hc j hj he => by
    cases hstate : c.state with
    | issued =>
      rw [(h.issued c hc hstate).1] at hj
      cases hj
    | held =>
      obtain ⟨i, hi, hsource⟩ := h.holders c hc hstate
      rw [hi] at hj
      cases hj
      exact hold _ (he ▸ hsource)
  refine ⟨fun c hc hstate => ?_, fun j hj => ?_, fun c hc => ?_, fun j key hj => ?_, fun c hc => ?_⟩
  · rw [hcredits] at hc
    obtain ⟨j, hholder, hsource⟩ := h.holders c hc hstate
    exact ⟨j, hholder, by rw [hothers j (hne c hc j hholder)]; exact hsource⟩
  · by_cases hjk : j = k
    · rw [hjk] at hj ⊢
      exact hless hj
    · rw [hothers j hjk] at hj ⊢
      exact h.sourceless j hj
  · rw [hcredits] at hc
    exact h.issued c hc
  · by_cases hjk : j = k
    · exact absurd (hjk ▸ hj) (hnew key)
    · rw [hothers j hjk] at hj
      rw [hcredits]
      exact h.held j key hj
  · rw [hcredits] at hc
    refine ⟨(h.energy c hc).1, fun j hj => ?_⟩
    rw [hothers j (hne c hc j hj)]
    exact (h.energy c hc).2 j hj

/-- The record of a key with the session it is linked to: gone with no source left, HELD as that session's source, or ISSUED. -/
def LinkedRecord (key : Nat) (k : SlotId) (t : State) : Prop :=
  ((∀ c ∈ t.cs.credits, c.key ≠ key) ∧ (t.slot k).source = none)
    ∨ ∃ c ∈ t.cs.credits, c.key = key ∧ (∀ d ∈ t.cs.credits, d.key = key → d = c) ∧ c.remainingWh ≤ c.originalWh
      ∧ ((c.state = .held ∧ c.holder = some k ∧ (t.slot k).source = some (.credit key)
          ∧ c.remainingWh + ceilDiv (t.slot k).blockLeft 1000 ≤ c.originalWh)
        ∨ (c.state = .issued ∧ c.holder = none ∧ 0 < c.remainingWh ∧ (t.slot k).source = none))

/-- The record of one key and the session it is linked to are written. -/
theorem CreditLedger.replace {s t : State} {k : SlotId} {key : Nat} (h : CreditLedger s)
    (hslots : ∀ j, j ≠ k → t.slot j = s.slot j)
    (hrest : ∀ c : Credit, c.key ≠ key → (c ∈ t.cs.credits ↔ c ∈ s.cs.credits))
    (hold : (s.slot k).source = none ∨ (s.slot k).source = some (.credit key))
    (hothers : ∀ j, j ≠ k → (s.slot j).source ≠ some (.credit key))
    (hless : (t.slot k).source = none → (t.slot k).blockLeft = 0 ∧ (t.slot k).finalBlock = false)
    (hnew : LinkedRecord key k t) : CreditLedger t := by
  have hlinked : ∀ c ∈ t.cs.credits, c.key = key → c.remainingWh ≤ c.originalWh
      ∧ ((c.state = .held ∧ c.holder = some k ∧ (t.slot k).source = some (.credit key)
          ∧ c.remainingWh + ceilDiv (t.slot k).blockLeft 1000 ≤ c.originalWh)
        ∨ (c.state = .issued ∧ c.holder = none ∧ 0 < c.remainingWh ∧ (t.slot k).source = none)) := by
    rintro c hc hkey
    rcases hnew with ⟨hgone, -⟩ | ⟨d, -, -, huniq, hlinked⟩
    · exact absurd hkey (hgone c hc)
    · rw [huniq c hc hkey]
      exact hlinked
  have hne : ∀ c ∈ s.cs.credits, c.key ≠ key → ∀ j, c.holder = some j → j ≠ k := fun c hc hkey j hj he => by
    cases hstate : c.state with
    | issued =>
      rw [(h.issued c hc hstate).1] at hj
      cases hj
    | held =>
      obtain ⟨i, hi, hsource⟩ := h.holders c hc hstate
      rw [hi] at hj
      cases hj
      rw [he] at hsource
      rcases hold with hnone | hcredit
      · rw [hnone] at hsource
        cases hsource
      · rw [hcredit] at hsource
        cases hsource
        exact hkey rfl
  refine ⟨fun c hc hstate => ?_, fun j hj => ?_, fun c hc hstate => ?_, fun j key' hj => ?_, fun c hc => ?_⟩
  · by_cases hkey : c.key = key
    · rcases (hlinked c hc hkey).2 with ⟨-, hholder, hsource, -⟩ | ⟨hissued, -⟩
      · exact ⟨k, hholder, by rw [hsource, hkey]⟩
      · rw [hissued] at hstate
        cases hstate
    · have hc := (hrest c hkey).mp hc
      obtain ⟨j, hholder, hsource⟩ := h.holders c hc hstate
      exact ⟨j, hholder, by rw [hslots j (hne c hc hkey j hholder)]; exact hsource⟩
  · by_cases hjk : j = k
    · rw [hjk] at hj ⊢
      exact hless hj
    · rw [hslots j hjk] at hj ⊢
      exact h.sourceless j hj
  · by_cases hkey : c.key = key
    · rcases (hlinked c hc hkey).2 with ⟨hheld, -⟩ | ⟨-, hholder, hpos, -⟩
      · rw [hheld] at hstate
        cases hstate
      · exact ⟨hholder, hpos⟩
    · exact h.issued c ((hrest c hkey).mp hc) hstate
  · by_cases hjk : j = k
    · rw [hjk] at hj ⊢
      rcases hnew with ⟨-, hnone⟩ | ⟨c, hc, hkey, -, -, ⟨hheld, hholder, hsource, -⟩ | ⟨-, -, -, hnone⟩⟩
      · rw [hnone] at hj
        cases hj
      · rw [hsource] at hj
        cases hj
        exact ⟨c, hc, hkey, hheld, hholder⟩
      · rw [hnone] at hj
        cases hj
    · rw [hslots j hjk] at hj
      obtain ⟨c, hc, hkey, hrest'⟩ := h.held j key' hj
      have hne' : c.key ≠ key := fun he => hothers j hjk (by rw [hj, ← hkey, he])
      exact ⟨c, (hrest c hne').mpr hc, hkey, hrest'⟩
  · by_cases hkey : c.key = key
    · obtain ⟨hle, hcase⟩ := hlinked c hc hkey
      refine ⟨hle, fun j hj => ?_⟩
      rcases hcase with ⟨-, hholder, -, henergy⟩ | ⟨-, hholder, -⟩
      · rw [hholder] at hj
        cases hj
        exact henergy
      · rw [hholder] at hj
        cases hj
    · have hc := (hrest c hkey).mp hc
      refine ⟨(h.energy c hc).1, fun j hj => ?_⟩
      rw [hslots j (hne c hc hkey j hj)]
      exact (h.energy c hc).2 j hj

/-- The credit table is written, and every HELD record stays, with its holder and no more energy. -/
theorem CreditLedger.rewrite {s : State} (h : CreditLedger s) (cs : List Credit)
    (hcs : ∀ c ∈ cs, (c.state = .issued ∧ c.holder = none ∧ 0 < c.remainingWh ∧ c.remainingWh ≤ c.originalWh)
      ∨ (c.state = .held ∧ ∃ d ∈ s.cs.credits, d.state = .held ∧ d.key = c.key ∧ d.holder = c.holder
        ∧ d.originalWh = c.originalWh ∧ c.remainingWh ≤ d.remainingWh))
    (hkept : ∀ d ∈ s.cs.credits, d.state = .held → ∃ c ∈ cs, c.state = .held ∧ c.key = d.key ∧ c.holder = d.holder) :
    CreditLedger (s.setCredits cs) := by
  refine ⟨fun c hc hstate => ?_, h.sourceless, fun c hc hstate => ?_, fun k key hk => ?_, fun c hc => ?_⟩
  · rcases hcs c hc with ⟨hissued, -⟩ | ⟨-, d, hd, hheld, hkey, hholder, -⟩
    · rw [hissued] at hstate
      cases hstate
    · rw [← hkey, ← hholder]
      exact h.holders d hd hheld
  · rcases hcs c hc with ⟨-, hholder, hpos, -⟩ | ⟨hheld, -⟩
    · exact ⟨hholder, hpos⟩
    · rw [hheld] at hstate
      cases hstate
  · obtain ⟨d, hd, hkey, hheld, hholder⟩ := h.held k key hk
    obtain ⟨c, hc, hcheld, hckey, hcholder⟩ := hkept d hd hheld
    exact ⟨c, hc, hckey.trans hkey, hcheld, hcholder.trans hholder⟩
  · rcases hcs c hc with ⟨-, hholder, -, hle⟩ | ⟨-, d, hd, -, -, hholder, horig, hle⟩
    · refine ⟨hle, fun k hk => ?_⟩
      rw [hholder] at hk
      cases hk
    · obtain ⟨hd1, hd2⟩ := h.energy d hd
      refine ⟨by omega, fun k hk => ?_⟩
      have := hd2 k (hholder.trans hk)
      change c.remainingWh + ceilDiv (s.slot k).blockLeft 1000 ≤ _
      omega

end Sys2Proof.Machine
end

section
/-! # What the moves of sessions and of the store do to the ledger -/

namespace Sys2Proof.Machine

/-! ## The records of one key (R109, R110) -/

theorem CreditInv.unique {s : State} (h : CreditInv s) {c d : Credit} (hc : c ∈ s.cs.credits) (hd : d ∈ s.cs.credits)
    (hkey : c.key = d.key) : c = d := by
  have hnodup : (s.cs.credits.map (·.key)).Nodup := h.1.imp fun hlt => Nat.ne_of_lt hlt
  exact List.inj_on_of_nodup_map hnodup hc hd hkey

theorem find_credit {key : Nat} {cs : List Credit} {c : Credit} (h : cs.find? (fun c => c.key == key) = some c) :
    c ∈ cs ∧ c.key = key :=
  ⟨List.mem_of_find?_eq_some h, by simpa using List.find?_some h⟩

theorem CreditInv.find {s : State} (h : CreditInv s) {c : Credit} (hc : c ∈ s.cs.credits) :
    s.cs.credits.find? (fun x => x.key == c.key) = some c := by
  cases hfound : s.cs.credits.find? (fun x => x.key == c.key) with
  | none =>
    rw [List.find?_eq_none] at hfound
    exact absurd (beq_self_eq_true c.key) (hfound c hc)
  | some d =>
    obtain ⟨hd, hkey⟩ := find_credit hfound
    rw [h.unique hd hc hkey]

theorem lookupCredit_mem {key : Nat} {s : State} {c : Credit} (h : lookupCredit key s = some c) :
    c ∈ s.cs.credits ∧ c.key = key := by
  unfold lookupCredit at h
  split at h
  · cases h
  · exact find_credit h

theorem mem_updateCredit {key : Nat} {f : Credit → Credit} (hf : ∀ c, (f c).key = c.key) {cs : List Credit} {d : Credit} :
    d ∈ updateCredit key f cs ↔ (d.key ≠ key ∧ d ∈ cs) ∨ (d.key = key ∧ ∃ c ∈ cs, c.key = key ∧ f c = d) := by
  simp only [updateCredit, List.mem_map]
  constructor
  · rintro ⟨c, hc, rfl⟩
    split
    · next hkey => exact .inr ⟨by rw [hf]; exact hkey, c, hc, hkey, rfl⟩
    · next hkey => exact .inl ⟨hkey, hc⟩
  · rintro (⟨hkey, hd⟩ | ⟨-, c, hc, hkey, rfl⟩)
    · exact ⟨d, hd, if_neg hkey⟩
    · exact ⟨c, hc, if_pos hkey⟩

theorem mem_updateCredit_ne {key : Nat} {f : Credit → Credit} (hf : ∀ c, (f c).key = c.key) {cs : List Credit} {d : Credit}
    (hd : d.key ≠ key) : d ∈ updateCredit key f cs ↔ d ∈ cs := by
  rw [mem_updateCredit hf]
  exact ⟨fun h => (h.resolve_right fun h => hd h.1).2, fun h => .inl ⟨hd, h⟩⟩

theorem updateCredit_updateCredit (key : Nat) (f g : Credit → Credit) (hf : ∀ c, (f c).key = c.key) (cs : List Credit) :
    updateCredit key g (updateCredit key f cs) = updateCredit key (fun c => g (f c)) cs := by
  simp only [updateCredit, List.map_map]
  refine List.map_congr_left fun c _ => ?_
  simp only [Function.comp_apply]
  split
  · next hkey => rw [if_pos (by rw [hf]; exact hkey)]
  · rfl

theorem mem_removeCredit {key : Nat} {cs : List Credit} {c : Credit} : c ∈ removeCredit key cs ↔ c ∈ cs ∧ c.key ≠ key := by
  simp [removeCredit]

/-- The record of a key after it alone is rewritten, linked to session k. -/
theorem linkedRecord_update {s t : State} {c : Credit} {f : Credit → Credit} {k : SlotId} (hcredits : CreditInv s)
    (hc : c ∈ s.cs.credits) (hf : ∀ c, (f c).key = c.key) (ht : t.cs.credits = updateCredit c.key f s.cs.credits)
    (hle : (f c).remainingWh ≤ (f c).originalWh)
    (hcase : ((f c).state = .held ∧ (f c).holder = some k ∧ (t.slot k).source = some (.credit c.key)
          ∧ (f c).remainingWh + ceilDiv (t.slot k).blockLeft 1000 ≤ (f c).originalWh)
        ∨ ((f c).state = .issued ∧ (f c).holder = none ∧ 0 < (f c).remainingWh ∧ (t.slot k).source = none)) :
    LinkedRecord c.key k t := by
  refine .inr ⟨f c, ?_, hf c, fun d hd hkey => ?_, hle, hcase⟩
  · rw [ht, mem_updateCredit hf]
    exact .inr ⟨hf c, c, hc, rfl, rfl⟩
  · rw [ht, mem_updateCredit hf] at hd
    rcases hd with ⟨hne, -⟩ | ⟨-, x, hx, hxkey, rfl⟩
    · exact absurd hkey hne
    · rw [hcredits.unique hx hc hxkey]

/-- No other session has the record of a session, or one that is ISSUED, as its source. -/
theorem CreditLedger.only {s : State} (h : CreditLedger s) (hcredits : CreditInv s) {c : Credit} (hc : c ∈ s.cs.credits)
    {k : SlotId} (hlink : c.state = .issued ∨ c.holder = some k) (j : SlotId) (hj : j ≠ k) :
    (s.slot j).source ≠ some (.credit c.key) := by
  intro hsource
  obtain ⟨d, hd, hkey, hheld, hholder⟩ := h.held j c.key hsource
  rw [hcredits.unique hd hc hkey] at hheld hholder
  rcases hlink with hissued | hk
  · rw [hissued] at hheld
    cases hheld
  · rw [hk] at hholder
    exact hj (Option.some.inj hholder).symm

/-- Whole Wh of a block, rounded down and up (R137, R119). -/
theorem div_le_ceilDiv (n : Nat) : n / 1000 ≤ ceilDiv n 1000 := by
  unfold ceilDiv
  omega

theorem ceilDiv_mul (w : Nat) : ceilDiv (w * 1000) 1000 = w := by
  unfold ceilDiv
  omega

theorem ceilDiv_mono {n m : Nat} (h : n ≤ m) : ceilDiv n 1000 ≤ ceilDiv m 1000 := by
  unfold ceilDiv
  omega

/-! ## The release of a session's holdings (R123, R137, R160) -/

/-- A slot with its source, its block and its final-block mark cleared. -/
def clearedSource (x : Slot) : Slot := { x with source := none, blockLeft := 0, finalBlock := false }

theorem releaseSource_credit {k : SlotId} {s : State} {key : Nat} (h : (s.slot k).source = some (.credit key)) :
    releaseSource k s = releaseCredit key ((s.slot k).blockLeft / 1000) (s.modSlot k clearedSource) := by
  simp only [releaseSource, h]
  rfl

theorem releaseSource_account {k : SlotId} {s : State} {i : AccountId} (h : (s.slot k).source = some (.account i)) :
    releaseSource k s = endHold k ((s.modSlot k clearedSource).modAccount i fun a =>
      { a with remainingWh := min a.allowanceWh (a.remainingWh + (s.slot k).blockLeft / 1000) }) := by
  simp only [releaseSource, h]
  rfl

theorem releaseSource_none {k : SlotId} {s : State} (h : (s.slot k).source = none) : releaseSource k s = s := by
  simp only [releaseSource, h]

theorem endHold_credits (k : SlotId) (s : State) : (endHold k s).cs.credits = s.cs.credits := by
  unfold endHold
  split
  · dsimp only
    split <;> rfl
  · rfl

theorem endHold_slot_ne {k j : SlotId} (s : State) (h : j ≠ k) : (endHold k s).slot j = s.slot j :=
  (At.endHold k (s.slot k).bay s).slots j h

theorem releaseSource_slot_ne {k j : SlotId} (s : State) (h : j ≠ k) : (releaseSource k s).slot j = s.slot j :=
  (At.releaseSource k (s.slot k).bay s).slots j h

/-- A released source leaves no source and no block. -/
theorem releaseSource_slot {k : SlotId} {s : State} {src : Source} (h : (s.slot k).source = some src) :
    ∃ hold, (releaseSource k s).slot k = { clearedSource (s.slot k) with accountHold := hold } := by
  cases src with
  | credit key =>
    rw [releaseSource_credit h]
    refine ⟨(s.slot k).accountHold, ?_⟩
    simp only [State.slot, releaseCredit_st]
    exact slot_modSlot_same s k clearedSource
  | account i =>
    rw [releaseSource_account h]
    refine ⟨false, ?_⟩
    rw [endHold_slot]
    change { (s.modSlot k clearedSource).slot k with accountHold := false } = _
    rw [slot_modSlot_same]

/-- The fate of a credit (R123) keeps the credits and the sources in agreement. -/
theorem CreditLedger.releaseCredit {s : State} (h : CreditLedger s) (hcredits : CreditInv s) {k : SlotId} {key : Nat}
    (hsource : (s.slot k).source = some (.credit key)) :
    CreditLedger (releaseCredit key ((s.slot k).blockLeft / 1000) (s.modSlot k clearedSource)) := by
  obtain ⟨c, hc, rfl, hheld, hholder⟩ := h.held k key hsource
  have hothers := h.only hcredits hc (k := k) (.inr hholder)
  have henergy := (h.energy c hc).2 k hholder
  have hblock := div_le_ceilDiv (s.slot k).blockLeft
  have hfind : (s.modSlot k clearedSource).cs.credits.find? (fun x => x.key == c.key) = some c := hcredits.find hc
  have hslot : (s.modSlot k clearedSource).slot k = clearedSource (s.slot k) := slot_modSlot_same _ _ _
  have hslots : ∀ j, j ≠ k → (s.modSlot k clearedSource).slot j = s.slot j := fun j hj => slot_modSlot_ne _ _ hj
  simp only [Machine.releaseCredit, hfind]
  split
  · next hpos =>
    refine h.replace (key := c.key) hslots (fun d hd => ?_) (.inr hsource) hothers (fun _ => ?_) ?_
    · exact mem_updateCredit_ne (cs := s.cs.credits)
        (f := fun c => { c with
          state := .issued, remainingWh := c.remainingWh + (s.slot k).blockLeft / 1000, holder := none }) (fun _ => rfl) hd
    · change ((s.modSlot k clearedSource).slot k).blockLeft = 0 ∧ ((s.modSlot k clearedSource).slot k).finalBlock = false
      rw [hslot]
      exact ⟨rfl, rfl⟩
    · refine linkedRecord_update hcredits hc (f := fun c => { c with
          state := .issued, remainingWh := c.remainingWh + (s.slot k).blockLeft / 1000, holder := none })
        (fun _ => rfl) rfl (by dsimp only; omega) (.inr ⟨rfl, rfl, hpos.1, ?_⟩)
      change ((s.modSlot k clearedSource).slot k).source = none
      rw [hslot]
      rfl
  · refine h.replace (key := c.key) hslots (fun d hd => ?_) (.inr hsource) hothers (fun _ => ?_) (.inl ⟨fun d hd => ?_, ?_⟩)
    · change d ∈ removeCredit c.key s.cs.credits ↔ _
      rw [mem_removeCredit]
      exact ⟨fun hm => hm.1, fun hm => ⟨hm, hd⟩⟩
    · change ((s.modSlot k clearedSource).slot k).blockLeft = 0 ∧ ((s.modSlot k clearedSource).slot k).finalBlock = false
      rw [hslot]
      exact ⟨rfl, rfl⟩
    · exact (mem_removeCredit.mp hd).2
    · change ((s.modSlot k clearedSource).slot k).source = none
      rw [hslot]
      rfl

theorem CreditLedger.releaseSource {s : State} (h : CreditLedger s) (hcredits : CreditInv s) (k : SlotId) :
    CreditLedger (releaseSource k s) := by
  cases hsource : (s.slot k).source with
  | none =>
    rw [releaseSource_none hsource]
    exact h
  | some src =>
    obtain ⟨hold, hslot⟩ := releaseSource_slot hsource
    cases src with
    | credit key =>
      rw [releaseSource_credit hsource]
      exact h.releaseCredit hcredits hsource
    | account i =>
      refine h.free (k := k) (fun j hj => releaseSource_slot_ne s hj) ?_ (fun key => by rw [hsource]; simp)
        (fun key => by rw [hslot]; simp [clearedSource]) fun _ => by rw [hslot]; exact ⟨rfl, rfl⟩
      rw [releaseSource_account hsource, endHold_credits]
      rfl

theorem CreditLedger.releaseHoldings {s : State} (h : CreditLedger s) (hcredits : CreditInv s) (k : SlotId) :
    CreditLedger (releaseHoldings k s) := by
  unfold Machine.releaseHoldings
  split
  · exact h.releaseSource hcredits k
  · exact h.frame_slot (k := k) (fun j hj => endHold_slot_ne s hj) (endHold_credits k s) (by rw [endHold_slot])
      (by rw [endHold_slot]) (by rw [endHold_slot])

/-! ## Settlement (R56) -/

/-- A settlement before the holdings are released. -/
def settledBay (k : SlotId) (cause : Option EndCause) (after : BayAfter) (s : State) : State :=
  settleBay (s.slot k).bay k after
    (if (s.slot k).state.queued then leaveQueue k (settleSlot k cause s) else settleSlot k cause s)

theorem settle_eq (k : SlotId) (cause : Option EndCause) (after : BayAfter) (s : State) :
    settle k cause after s = makeReceipt k (releaseHoldings k (settledBay k cause after s)) := rfl

theorem settleBay_cs (b : BayId) (k : SlotId) (after : BayAfter) (s : State) : (settleBay b k after s).cs = s.cs := by
  cases after <;> simp [settleBay, enterFault, enterBlocked, writeGrantSet]

theorem settledBay_cs (k : SlotId) (cause : Option EndCause) (after : BayAfter) (s : State) :
    (settledBay k cause after s).cs = s.cs := by
  unfold settledBay
  rw [settleBay_cs]
  split <;> simp [leaveQueue, settleSlot]

theorem settledBay_slot (k : SlotId) (cause : Option EndCause) (after : BayAfter) (s : State) :
    (settledBay k cause after s).slot k = settledSlot cause s.stamp (s.slot k) := by
  have hsettled : (settleSlot k cause s).slot k = settledSlot cause s.stamp (s.slot k) := by simp [settleSlot, settledSlot]
  have hframe : ∀ b t, (settleBay b k after t).slot k = t.slot k := fun b t => by simp only [State.slot, settleBay_st]
  unfold settledBay
  rw [hframe]
  split
  · unfold leaveQueue
    simp only [State.slot, requestPass_st]
    exact hsettled
  · exact hsettled

theorem settledBay_slot_ne {k j : SlotId} (cause : Option EndCause) (after : BayAfter) (s : State) (h : j ≠ k) :
    (settledBay k cause after s).slot j = s.slot j := by
  unfold settledBay
  refine ((At.settleBay k (s.slot k).bay k after _).slots j h).trans ?_
  split
  · exact ((At.settleSlot k (s.slot k).bay cause s).trans (At.leave k _ _)).slots j h
  · exact (At.settleSlot k (s.slot k).bay cause s).slots j h

theorem CreditLedger.settle {s : State} (h : CreditLedger s) (hcredits : CreditInv s) (k : SlotId) (cause : Option EndCause)
    (after : BayAfter) : CreditLedger (settle k cause after s) := by
  have hbay : CreditLedger (settledBay k cause after s) :=
    h.frame_slot (k := k) (fun j hj => settledBay_slot_ne cause after s hj)
      (congrArg CreditStore.credits (settledBay_cs k cause after s)) (by rw [settledBay_slot]; rfl)
      (by rw [settledBay_slot]; rfl) (by rw [settledBay_slot]; rfl)
  have hreleased := hbay.releaseHoldings (hcredits.same (congrArg CreditStore.credits (settledBay_cs k cause after s))) k
  rw [settle_eq]
  refine hreleased.frame_slot (k := k) (fun j hj => ?_) rfl ?_ ?_ ?_
  · exact (At.makeReceipt k (s.slot k).bay _).slots j hj
  all_goals
    unfold makeReceipt
    rw [countNotice_slot, slot_modSlot_same]

theorem BayLedger.settle {s : State} (h : BayLedger s) (k : SlotId) (cause : Option EndCause) (after : BayAfter) :
    BayLedger (settle k cause after s) := by
  have hat := At.settle k cause after s
  have hsettled := settle_settled k cause after s
  have hbay := settle_bay k cause after s
  refine h.rebay (s.slot k).bay hat.bays (fun c hc j hj => hat.slots j (h.named_ne hc hj)) (fun j _ => ?_) (fun j hj => ?_)
    fun key n d hscan => ?_
  · by_cases hjk : j = k
    · rw [hjk]
      exact .inr ⟨_, hsettled.receipt, rfl⟩
    · exact .inl (hat.slots j hjk)
  · rw [hbay] at hj ⊢
    cases after with
    | stopped =>
      cases hj
      exact ⟨hsettled.session.2.1, .inr ⟨rfl, hsettled.state⟩⟩
    | idle | fault | blocked => cases hj
  · rw [hsettled.bay.2.1] at hscan
    cases hscan

/-! ## The other moves of sessions -/

/-- A slot without a source holds no credit. -/
theorem Slot.no_credit {x : Slot} (h : x.source = none) (key : Nat) : x.source ≠ some (.credit key) := by simp [h]

theorem SourceLedger.source_none {s : State} (h : SourceLedger s) {k : SlotId} (hqueued : (s.slot k).state.queued = false)
    (hending : (s.slot k).state ≠ .ending) : (s.slot k).source = none := by
  by_contra hne
  rcases h k hne with hq | he
  · rw [hqueued] at hq
    cases hq
  · exact hending he

theorem SourceLedger.of_slot {s t : State} {k : SlotId} (h : SourceLedger s) (hothers : ∀ j, j ≠ k → t.slot j = s.slot j)
    (hk : (t.slot k).SourceFits) : SourceLedger t := fun j => by
  by_cases hj : j = k
  · rw [hj]
    exact hk
  · rw [hothers j hj]
    exact h j

theorem SourceLedger.same {s t : State} (h : SourceLedger s) (hst : t.st.slots = s.st.slots) : SourceLedger t := fun k => by
  simp only [State.slot, hst]
  exact h k

theorem LedgerInv.same {s t : State} (h : LedgerInv s) (hst : t.st.slots = s.st.slots) (hbays : t.bays = s.bays)
    (hcredits : t.cs.credits = s.cs.credits) : LedgerInv t := by
  obtain ⟨hb, hc, hs⟩ := (ledgerInv_iff s).mp h
  exact (ledgerInv_iff t).mpr ⟨hb.same hst hbays, hc.same hst hcredits, hs.same hst⟩

/-- One slot is written with its source, its block and what its bay knows of it. -/
theorem LedgerInv.of_slot {s t : State} {k : SlotId} (h : LedgerInv s) (hothers : ∀ j, j ≠ k → t.slot j = s.slot j)
    (hbays : t.bays = s.bays) (hcredits : t.cs.credits = s.cs.credits) (hseen : (s.slot k).SeenSame (t.slot k))
    (hsource : (t.slot k).source = (s.slot k).source) (hblock : (t.slot k).blockLeft = (s.slot k).blockLeft)
    (hfinal : (t.slot k).finalBlock = (s.slot k).finalBlock) (hfits : (t.slot k).SourceFits) : LedgerInv t := by
  obtain ⟨hb, hc, hs⟩ := (ledgerInv_iff s).mp h
  exact (ledgerInv_iff t).mpr ⟨hb.frame_slot hothers hbays hseen, hc.frame_slot hothers hcredits hsource hblock hfinal,
    hs.of_slot hothers hfits⟩

/-- A session whose slot is cleared, as it holds no source. -/
theorem CreditLedger.cleared {s t : State} {k : SlotId} (h : CreditLedger s) (hothers : ∀ j, j ≠ k → t.slot j = s.slot j)
    (hcredits : t.cs.credits = s.cs.credits) (hold : (s.slot k).source = none) (hnew : (t.slot k).source = none)
    (hblock : (t.slot k).blockLeft = 0) (hfinal : (t.slot k).finalBlock = false) : CreditLedger t :=
  h.free hothers hcredits (Slot.no_credit hold) (Slot.no_credit hnew) fun _ => ⟨hblock, hfinal⟩

theorem SessionState.mayScan_live {st : SessionState} (h : st.MayScan) : st.live = true := by
  rcases h with rfl | h
  · rfl
  · exact live_of_queued h

theorem SessionState.mayScan_of_live {st : SessionState} (h : st.live = true) (he : st ≠ .ending) : st.MayScan := by
  unfold SessionState.MayScan
  cases st <;> simp_all [SessionState.live, SessionState.queued]

theorem live_ne_settled {st : SessionState} (h : st.live = true) : st ≠ .settled := by
  rintro rfl
  cases h

/-- A live session stays live, and may take a scan if it could. -/
theorem Slot.SeenSame.of_live {x y : Slot} (hbay : y.bay = x.bay) (hx : x.state.live = true) (hy : y.state.live = true)
    (hscan : x.state.MayScan → x.source = none → y.state.MayScan ∧ y.source = none) : x.SeenSame y :=
  ⟨hbay, fun _ => hy, ⟨fun h => absurd h (live_ne_settled hy), fun h => absurd h (live_ne_settled hx)⟩,
    fun h => absurd h (live_ne_settled hx), hscan⟩

theorem LedgerInv.slotMarks {s : State} (h : LedgerInv s) {k : SlotId} {x : Slot} (hx : (s.slot k).SameLedger x) :
    LedgerInv (s.setSlot k x) := by
  refine h.of_slot (k := k) (fun _ hj => slot_setSlot_ne _ _ hj) rfl rfl ?_ ?_ ?_ ?_ ?_ <;> rw [slot_setSlot_same]
  · refine ⟨hx.bay, fun hl => by rw [hx.state]; exact hl, by rw [hx.state], fun _ => hx.receipt, fun hm hs => ?_⟩
    rw [hx.state, hx.source]
    exact ⟨hm, hs⟩
  · exact hx.source
  · exact hx.blockLeft
  · exact hx.finalBlock
  · unfold Slot.SourceFits
    rw [hx.source, hx.state]
    exact h.sources k

theorem LedgerInv.queuedState {s : State} (h : LedgerInv s) {k : SlotId} {x : Slot} (hold : (s.slot k).state.queued = true)
    (hnew : x.state.queued = true) (hx : (s.slot k).SameLedger { x with state := (s.slot k).state }) :
    LedgerInv (s.setSlot k x) := by
  refine h.of_slot (k := k) (fun _ hj => slot_setSlot_ne _ _ hj) rfl rfl ?_ ?_ ?_ ?_ ?_ <;> rw [slot_setSlot_same]
  · refine .of_live hx.bay (live_of_queued hold) (live_of_queued hnew) fun _ hs => ⟨.inr hnew, ?_⟩
    rw [← hs]
    exact hx.source
  · exact hx.source
  · exact hx.blockLeft
  · exact hx.finalBlock
  · exact fun _ => .inl hnew

/-- A session that may take a source is authorised if it is in OPENING, and holds its source from then on. -/
theorem LedgerInv.authorised {s : State} {k : SlotId} (hb : BayLedger s) (hc : CreditLedger s)
    (hs : ∀ j, j ≠ k → (s.slot j).SourceFits) (hk : (s.slot k).state.MayScan) : LedgerInv (authoriseIfOpening k s) := by
  rw [ledgerInv_iff]
  unfold authoriseIfOpening
  split
  · next hopening =>
    obtain ⟨st, cause, permit, hqueued, hslot⟩ := authorise_slot k s
    obtain ⟨hbays, hcs⟩ := authorise_tables k s
    have hothers : ∀ j, j ≠ k → (authorise k s).slot j = s.slot j := fun j hj => authorise_slot_ne s hj
    refine ⟨hb.frame_slot hothers hbays ?_, hc.frame_slot hothers (congrArg CreditStore.credits hcs) (by rw [hslot])
      (by rw [hslot]) (by rw [hslot]), fun j => ?_⟩
    · rw [hslot]
      exact .of_live rfl (by rw [hopening]; rfl) (live_of_queued hqueued) fun _ hsource => ⟨.inr hqueued, hsource⟩
    · by_cases hj : j = k
      · rw [hj, hslot]
        exact fun _ => .inl hqueued
      · rw [hothers j hj]
        exact hs j hj
  · next hopening =>
    refine ⟨hb, hc, fun j => ?_⟩
    by_cases hj : j = k
    · rw [hj]
      exact fun _ => .inl (hk.resolve_left hopening)
    · exact hs j hj

theorem LedgerInv.authorise {s : State} (h : LedgerInv s) {k : SlotId} (hstate : (s.slot k).state = .opening) :
    LedgerInv (authorise k s) := by
  obtain ⟨hb, hc, hs⟩ := (ledgerInv_iff s).mp h
  have := LedgerInv.authorised hb hc (k := k) (fun j _ => hs j) (.inl hstate)
  rwa [authoriseIfOpening, if_pos hstate] at this

theorem LedgerInv.ending {s : State} (h : LedgerInv s) {k : SlotId} (cause : EndCause)
    (hstate : (s.slot k).state.queued = true) : LedgerInv (endingBay k cause s) := by
  obtain ⟨hb, hc, hs⟩ := (ledgerInv_iff s).mp h
  have hat := endingBay_at k cause s
  have hslot := endingBay_slot k cause s
  have hbay := endingBay_bay k cause s
  have hlive := live_of_queued hstate
  refine (ledgerInv_iff _).mpr ⟨?_, ?_, hs.of_slot hat.slots ?_⟩
  · refine hb.rebay (s.slot k).bay hat.bays (fun c hc j hj => hat.slots j (hb.named_ne hc hj)) (fun j hj => .inl ?_)
      (fun j hj => ?_) fun key n d hscan => ?_
    · refine hat.slots j fun he => ?_
      rw [he, hslot] at hj
      cases hj
    · rw [hbay] at hj ⊢
      obtain ⟨hjbay, hcase⟩ := hb.named _ j hj
      by_cases hjk : j = k
      · subst hjk
        rw [hslot]
        refine ⟨rfl, hcase.imp (fun hc => ⟨hc.1, rfl⟩) fun hc => absurd hc.2 (live_ne_settled hlive)⟩
      · rw [hat.slots j hjk]
        exact ⟨hjbay, hcase⟩
    · rw [hbay] at hscan
      cases hscan
  · exact hc.frame_slot hat.slots (congrArg CreditStore.credits (endingBay_cs k cause s)) (by rw [hslot]) (by rw [hslot])
      (by rw [hslot])
  · rw [hslot]
    exact fun _ => .inr rfl

theorem LedgerInv.settle {s : State} (h : LedgerInv s) (hcredits : CreditInv s) (k : SlotId) (cause : Option EndCause)
    (after : BayAfter) : LedgerInv (settle k cause after s) := by
  obtain ⟨hb, hc, hs⟩ := (ledgerInv_iff s).mp h
  refine (ledgerInv_iff _).mpr ⟨hb.settle k cause after, hc.settle hcredits k cause after,
    hs.of_slot (At.settle k cause after s).slots fun hne => absurd (settle_settled k cause after s).source hne⟩

theorem Slot.reset_sourceFits : ({} : Slot).SourceFits := fun h => absurd rfl h

theorem LedgerInv.abandon {s : State} (h : LedgerInv s) {k : SlotId} (hstate : (s.slot k).state = .opening) :
    LedgerInv (abandon k s) := by
  obtain ⟨hb, hc, hs⟩ := (ledgerInv_iff s).mp h
  have hat := abandon_at k s
  have hslot := abandon_slot k s
  have hbay := abandon_bay k s
  have hsource : (s.slot k).source = none := hs.source_none (by rw [hstate]; rfl) (by rw [hstate]; simp)
  refine (ledgerInv_iff _).mpr ⟨?_, hc.cleared hat.slots rfl hsource (by rw [hslot]) (by rw [hslot]) (by rw [hslot]),
    hs.of_slot hat.slots (by rw [hslot]; exact Slot.reset_sourceFits)⟩
  have hvacant : ((Machine.abandon k s).bay (s.slot k).bay).session = none
      ∧ ((Machine.abandon k s).bay (s.slot k).bay).scan = .empty := by
    rw [hbay]
    split <;> exact ⟨rfl, rfl⟩
  refine hb.rebay (s.slot k).bay hat.bays (fun c hc j hj => hat.slots j (hb.named_ne hc hj)) (fun j hj => .inl ?_)
    (fun j hj => ?_) fun key n d hscan => ?_
  · refine hat.slots j fun he => ?_
    rw [he, hslot] at hj
    cases hj
  · rw [hvacant.1] at hj
    cases hj
  · rw [hvacant.2] at hscan
    cases hscan

theorem LedgerInv.opened {s : State} (h : LedgerInv s) {b : BayId} {k : SlotId}
    (hbay : (s.bay b).state = .idle ∨ (s.bay b).state = .waitingSlot) (hslot : (s.slot k).state = .free) :
    LedgerInv (openedState b k s) := by
  obtain ⟨hb, hc, hs⟩ := (ledgerInv_iff s).mp h
  have hnew : (openedState b k s).slot k = s.openedSlot b := slot_setSlot_same _ _ _
  have hothers : ∀ j, j ≠ k → (openedState b k s).slot j = s.slot j := fun j hj => slot_setSlot_ne _ _ hj
  have hbayb : (openedState b k s).bay b = { s.bay b with state := .occupied, session := some k, stopFlag := false } :=
    bay_modBay_same _ _ _
  have hsource : (s.slot k).source = none := hs.source_none (by rw [hslot]; rfl) (by rw [hslot]; simp)
  have hempty : (s.bay b).scan = .empty := hb.scan_empty (by rcases hbay with hbay | hbay <;> simp [hbay])
  refine (ledgerInv_iff _).mpr ⟨?_, hc.cleared hothers rfl hsource (by rw [hnew]; rfl) (by rw [hnew]; rfl) (by rw [hnew]; rfl),
    hs.of_slot hothers (by rw [hnew]; exact fun hne => absurd rfl hne)⟩
  refine hb.rebay b (fun c hc => bay_modBay_ne _ _ hc) (fun c _ j hj => hothers j fun he => ?_) (fun j hj => .inl ?_)
    (fun j hj => ?_) fun key n d hscan => ?_
  · rcases (hb.named c j hj).2 with ⟨-, hlive⟩ | ⟨-, hsettled⟩
    · rw [he, hslot] at hlive
      cases hlive
    · rw [he, hslot] at hsettled
      cases hsettled
  · refine hothers j fun he => ?_
    rw [he, hnew] at hj
    cases hj
  · rw [hbayb] at hj ⊢
    cases hj
    rw [hnew]
    exact ⟨rfl, .inl ⟨rfl, rfl⟩⟩
  · rw [hbayb] at hscan
    change (s.bay b).scan = _ at hscan
    rw [hempty] at hscan
    cases hscan

theorem LedgerInv.of_bays {s t : State} (h : LedgerInv s) (hst : t.st.slots = s.st.slots)
    (hcredits : t.cs.credits = s.cs.credits) (hb : BayLedger t) : LedgerInv t := by
  obtain ⟨-, hc, hs⟩ := (ledgerInv_iff s).mp h
  exact (ledgerInv_iff t).mpr ⟨hb, hc.same hst hcredits, hs.same hst⟩

theorem LedgerInv.bays {s : State} (h : LedgerInv s) : BayLedger s := ((ledgerInv_iff s).mp h).1

theorem LedgerInv.setBay {s : State} (h : LedgerInv s) {b : BayId} {x : Bay} (hx : (s.bay b).SeenSame x) :
    LedgerInv (s.setBay b x) := h.of_bays rfl rfl (h.bays.setBay hx)

/-- A bay without a live session is written with none. -/
theorem LedgerInv.vacated {s : State} (h : LedgerInv s) (hsessions : SessionInv s) {b : BayId} {x : Bay}
    (hfree : s.liveSlot b = none ∨ (s.bay b).state ≠ .occupied)
    (hsession : x.session = none ∨ (x.session = (s.bay b).session ∧ (s.bay b).state ≠ .occupied ∧ (s.bay b).state ≠ .stopped))
    (hscan : x.scan = (s.bay b).scan) : LedgerInv (s.setBay b x) := by
  refine h.of_bays rfl rfl (h.bays.vacated ?_ ?_)
  · rcases hsession with hnone | ⟨hsame, hocc, hstopped⟩
    · exact hnone
    · rw [hsame]
      exact h.bays.session_none hocc hstopped
  · rw [hscan]
    exact h.bays.scan_empty (hsessions.not_occupied hfree)

theorem LedgerInv.pending {s : State} (h : LedgerInv s) (key : Nat) {b : BayId} {k : SlotId} (hlive : s.liveSlot b = some k)
    (hstate : (s.slot k).state ≠ .ending) (hsource : (s.slot k).source = none) : LedgerInv (makePending key b s) := by
  have hqueried : LedgerInv (s.modBay b (queriedBay key s)) := by
    have hbay : (s.modBay b (queriedBay key s)).bay b = queriedBay key s (s.bay b) := bay_modBay_same _ _ _
    refine h.of_bays rfl rfl (h.bays.rebay b (fun c hc => bay_modBay_ne _ _ hc) (fun _ _ _ _ => rfl) (fun _ _ => .inl rfl)
      (fun j hj => ?_) fun key n d hscan => ⟨k, ?_, ?_, hsource⟩)
    · rw [hbay] at hj ⊢
      exact h.bays.named b j hj
    · rw [hbay]
      exact liveSlot_session hlive
    · change (s.slot k).state.MayScan
      exact SessionState.mayScan_of_live (liveSlot_live hlive) hstate
  exact hqueried.same rfl rfl rfl

theorem LedgerInv.collect {s : State} (h : LedgerInv s) {k : SlotId} (hstate : (s.slot k).state = .settled) :
    LedgerInv (takeReceiptAt k s).2 := by
  obtain ⟨hb, hc, hs⟩ := (ledgerInv_iff s).mp h
  have hsource : (s.slot k).source = none := hs.source_none (by rw [hstate]; rfl) (by rw [hstate]; simp)
  obtain ⟨r, hreceipt, hrbay⟩ := hb.receipts k hstate
  rw [takeReceiptAt_settled hstate, show ((s.slot k).keptReceipt k).bay = (s.slot k).bay by
    rw [Slot.keptReceipt, hreceipt]; exact hrbay]
  have hslot : (s.setSlot k {}).slot k = {} := slot_setSlot_same _ _ _
  have hothers : ∀ j, j ≠ k → (s.setSlot k {}).slot j = s.slot j := fun j hj => slot_setSlot_ne _ _ hj
  have hcredits : CreditLedger (s.setSlot k {}) :=
    hc.cleared hothers rfl hsource (by rw [hslot]) (by rw [hslot]) (by rw [hslot])
  have hsources : SourceLedger (s.setSlot k {}) := hs.of_slot hothers (by rw [hslot]; exact Slot.reset_sourceFits)
  have hreceipts : ∀ j, ((s.setSlot k {}).slot j).state = .settled → (s.setSlot k {}).slot j = s.slot j := fun j hj =>
    hothers j fun he => by
      rw [he, hslot] at hj
      cases hj
  rw [ledgerInv_iff]
  unfold dropReference
  split
  · next hc =>
    refine ⟨?_, hcredits.same rfl rfl, hsources.same rfl⟩
    have hbay : ((s.setSlot k {}).modBay (s.slot k).bay fun y => { y with session := none }).bay (s.slot k).bay =
        { s.bay (s.slot k).bay with session := none } := bay_modBay_same _ _ _
    have hempty : (s.bay (s.slot k).bay).scan = .empty := hb.scan_empty (by
      change (s.bay (s.slot k).bay).state = _ ∧ _ at hc
      rw [hc.1]
      simp)
    refine hb.rebay (s.slot k).bay (fun c hc => bay_modBay_ne _ _ hc) (fun c hc j hj => hothers j (hb.named_ne hc hj))
      (fun j hj => .inl (hreceipts j hj)) (fun j hj => ?_) fun key n d hscan => ?_
    · rw [hbay] at hj
      cases hj
    · rw [hbay] at hscan
      change (s.bay (s.slot k).bay).scan = _ at hscan
      rw [hempty] at hscan
      cases hscan
  · next hkept =>
    change ¬((s.bay (s.slot k).bay).state = .stopped ∧ (s.bay (s.slot k).bay).session = some k) at hkept
    have hunnamed : ∀ c j, (s.bay c).session = some j → j ≠ k := fun c j hj he => by
      subst he
      obtain ⟨rfl, hcase⟩ := hb.named c j hj
      rcases hcase with ⟨-, hlive⟩ | ⟨hstopped, -⟩
      · exact live_ne_settled hlive hstate
      · exact hkept ⟨hstopped, hj⟩
    refine ⟨?_, hcredits, hsources⟩
    refine hb.rebay (s.slot k).bay (fun _ _ => rfl) (fun c _ j hj => hothers j (hunnamed c j hj))
      (fun j hj => .inl (hreceipts j hj)) (fun j hj => ?_) fun key n d hscan => ?_
    · rw [hothers j (hunnamed _ j hj)]
      exact hb.named _ j hj
    · obtain ⟨j, hj, hrest⟩ := hb.scans _ key n d hscan
      exact ⟨j, hj, by rw [hothers j (hunnamed _ j hj)]; exact hrest⟩

theorem LedgerInv.move {s t : State} (m : SessionMove s t) (hsessions : SessionInv s) (hcredits : CreditInv s)
    (h : LedgerInv s) : LedgerInv t := by
  cases m with
  | pass => exact h.same (by simp) (by simp) (by simp)
  | notice => exact h.same rfl rfl rfl
  | slotMarks k x hledger => exact h.slotMarks hledger
  | bayMarks b x _ hledger => exact h.setBay ⟨hledger.state, hledger.session, .inl hledger.scan⟩
  | queuedState k x hold hnew hledger => exact h.queuedState hold hnew hledger
  | authorise k hstate => exact h.authorise hstate
  | ending k cause hstate => exact h.ending cause hstate
  | settle k cause after => exact h.settle hcredits k cause after
  | abandon k hstate => exact h.abandon hstate
  | opening b k hbay hslot => exact h.opened hbay hslot
  | vacate b x _ hfree _ hsession hscan => exact h.vacated hsessions hfree hsession hscan
  | emptyScan b => exact h.setBay ⟨rfl, rfl, .inr rfl⟩
  | pending key b k hlive hstate hsource => exact h.pending key hlive hstate hsource
  | collect k hstate => exact h.collect hstate

end Sys2Proof.Machine
end

section
/-! # Draws, the store's own moves, and every step (third part of O60) -/

namespace Sys2Proof.Machine

/-! ## What the ledger rests on -/

/-- The ledger with what it rests on: sessions and bays that name each other, and one record of each key. -/
structure LedgerAll (s : State) : Prop where
  sessions : SessionInv s
  credits : CreditInv s
  ledger : LedgerInv s

theorem LedgerAll.move {s t : State} (m : SessionMove s t) (h : LedgerAll s) : LedgerAll t :=
  ⟨h.sessions.move m, h.credits.edits m.edits, h.ledger.move m h.sessions h.credits⟩

theorem LedgerAll.moves {s t : State} (m : Moves s t) (h : LedgerAll s) : LedgerAll t := by
  induction m with
  | refl => exact h
  | tail _ m ih => exact ih.move m

theorem LedgerAll.same {s t : State} (h : LedgerAll s) (hst : t.st.slots = s.st.slots) (hbays : t.bays = s.bays)
    (hcredits : t.cs.credits = s.cs.credits) : LedgerAll t :=
  ⟨h.sessions.same hst hbays, h.credits.same hcredits, h.ledger.same hst hbays hcredits⟩

theorem SessionInv.pieces {s t : State} (p : Pieces s t) (h : SessionInv s) : SessionInv t := by
  induction p with
  | refl => exact h
  | tail _ p ih =>
    cases p with
    | move m => exact ih.move m
    | slot k x hstate hbay => exact ih.frame (.setSlot _ k x (by rw [hstate]) hbay)
    | store => exact ih.same rfl rfl

/-! ## A draw that finds energy (R133) -/

/-- A slot with a block of w Wh. -/
def drawnSlot (w : Nat) (final : Bool) (x : Slot) : Slot := { x with blockLeft := w * 1000, finalBlock := final }

theorem draw_taken {s : State} {k : SlotId} {src : Source} (hsource : (s.slot k).source = some src)
    (havail : 0 < s.available src) :
    ∃ w final, w ≤ s.available src ∧ draw k s = (takeFrom w s src).modSlot k (drawnSlot w final) := by
  refine ⟨min s.cs.blockSize (s.available src), s.available src == min s.cs.blockSize (s.available src), by omega, ?_⟩
  simp only [draw, hsource, if_pos havail]
  rfl

theorem draw_exhausted {s : State} {k : SlotId} {src : Source} (hsource : (s.slot k).source = some src)
    (havail : ¬0 < s.available src) : draw k s = exhaust k src s := by
  simp only [draw, hsource, if_neg havail]

theorem takeFrom_slot (w : Nat) (s : State) (src : Source) (j : SlotId) : (takeFrom w s src).slot j = s.slot j := by
  cases src <;> rfl

theorem takeFrom_bays (w : Nat) (s : State) (src : Source) : (takeFrom w s src).bays = s.bays := by
  cases src <;> rfl

theorem drawn_slot (w v : Nat) (final : Bool) (s : State) (src : Source) (k : SlotId) :
    ((takeFrom w s src).modSlot k (drawnSlot v final)).slot k = drawnSlot v final (s.slot k) := by
  rw [slot_modSlot_same, takeFrom_slot]

theorem drawn_slot_ne (w v : Nat) (final : Bool) (s : State) (src : Source) {j k : SlotId} (h : j ≠ k) :
    ((takeFrom w s src).modSlot k (drawnSlot v final)).slot j = s.slot j := by
  rw [slot_modSlot_ne _ _ h, takeFrom_slot]

theorem CreditInv.available {s : State} (h : CreditInv s) {c : Credit} (hc : c ∈ s.cs.credits) :
    s.available (.credit c.key) = c.remainingWh := by
  simp only [State.available, h.find hc]

theorem CreditLedger.drawn {s : State} (h : CreditLedger s) (hcredits : CreditInv s) {k : SlotId} {src : Source}
    (hsource : (s.slot k).source = some src) {w : Nat} (hw : w ≤ s.available src) (final : Bool) :
    CreditLedger ((takeFrom w s src).modSlot k (drawnSlot w final)) := by
  have hnew := drawn_slot w w final s src k
  have hothers : ∀ j, j ≠ k → ((takeFrom w s src).modSlot k (drawnSlot w final)).slot j = s.slot j :=
    fun j hj => drawn_slot_ne w w final s src hj
  have hkept : (((takeFrom w s src).modSlot k (drawnSlot w final)).slot k).source = some src := by
    rw [hnew]
    exact hsource
  have hless : (((takeFrom w s src).modSlot k (drawnSlot w final)).slot k).source = none →
      (((takeFrom w s src).modSlot k (drawnSlot w final)).slot k).blockLeft = 0
        ∧ (((takeFrom w s src).modSlot k (drawnSlot w final)).slot k).finalBlock = false := fun hnone => by
    rw [hkept] at hnone
    cases hnone
  cases src with
  | account i =>
    exact h.free hothers rfl (fun key => by rw [hsource]; simp) (fun key => by rw [hkept]; simp) hless
  | credit key =>
    obtain ⟨c, hc, rfl, hheld, hholder⟩ := h.held k key hsource
    rw [hcredits.available hc] at hw
    have hle := (h.energy c hc).1
    refine h.replace (key := c.key) hothers (fun d hd => ?_) (.inr hsource) (h.only hcredits hc (.inr hholder)) hless ?_
    · exact mem_updateCredit_ne (cs := s.cs.credits) (f := fun c => { c with remainingWh := c.remainingWh - w })
        (fun _ => rfl) hd
    · refine linkedRecord_update hcredits hc (f := fun c => { c with remainingWh := c.remainingWh - w }) (fun _ => rfl) rfl
        (by dsimp only; omega) (.inl ⟨hheld, hholder, hkept, ?_⟩)
      rw [hnew]
      change c.remainingWh - w + ceilDiv (w * 1000) 1000 ≤ c.originalWh
      rw [ceilDiv_mul]
      omega

/-! ## A draw that finds none (R135) -/

theorem LedgerInv.releaseSource {s : State} (h : LedgerInv s) (hcredits : CreditInv s) (k : SlotId) :
    LedgerInv (releaseSource k s) := by
  obtain ⟨hb, hc, hs⟩ := (ledgerInv_iff s).mp h
  have hledger := hc.releaseSource hcredits k
  cases hsource : (s.slot k).source with
  | none =>
    rw [releaseSource_none hsource]
    exact h
  | some src =>
    obtain ⟨hold, hslot⟩ := releaseSource_slot hsource
    have hothers : ∀ j, j ≠ k → (Machine.releaseSource k s).slot j = s.slot j := fun j hj => releaseSource_slot_ne s hj
    refine (ledgerInv_iff _).mpr ⟨hb.frame_slot hothers (releaseSource_bays k s) ?_, hledger, hs.of_slot hothers ?_⟩
    · rw [hslot]
      exact ⟨rfl, id, Iff.rfl, fun _ => rfl, fun hm _ => ⟨hm, rfl⟩⟩
    · rw [hslot]
      exact fun hne => absurd rfl hne

theorem LedgerAll.exhaust {s : State} (h : LedgerAll s) (k : SlotId) (src : Source) : LedgerAll (exhaust k src s) := by
  have hreleased : LedgerAll (releaseSource k s) :=
    ⟨h.sessions.pieces (releaseSource_pieces k s), h.credits.edits (releaseSource_edits k s),
      h.ledger.releaseSource h.credits k⟩
  have hcounted : LedgerAll (countExhausted (releaseSource k s) src) := by
    cases src with
    | credit key => exact hreleased
    | account i => exact hreleased.move (.notice _ _ _ _)
  unfold Machine.exhaust
  dsimp only
  split
  · next hqueued => exact hcounted.moves (enterEnding_moves _ hqueued.2)
  · exact hcounted

/-- A draw keeps the ledger. -/
theorem LedgerAll.draw {s : State} (h : LedgerAll s) (k : SlotId) : LedgerAll (draw k s) := by
  cases hsource : (s.slot k).source with
  | none =>
    have hsame : Machine.draw k s = s := by simp only [Machine.draw, hsource]
    rw [hsame]
    exact h
  | some src =>
    by_cases havail : 0 < s.available src
    · obtain ⟨hb, hc, hs⟩ := (ledgerInv_iff s).mp h.ledger
      refine ⟨h.sessions.pieces (draw_pieces k s), h.credits.edits (draw_edits k s), ?_⟩
      obtain ⟨w, final, hw, hdraw⟩ := draw_taken hsource havail
      rw [hdraw, ledgerInv_iff]
      have hothers : ∀ j, j ≠ k → ((takeFrom w s src).modSlot k (drawnSlot w final)).slot j = s.slot j :=
        fun j hj => drawn_slot_ne w w final s src hj
      refine ⟨hb.frame_slot hothers (takeFrom_bays w s src) ?_, hc.drawn h.credits hsource hw final, hs.of_slot hothers ?_⟩
      · rw [drawn_slot]
        exact ⟨rfl, id, Iff.rfl, fun _ => rfl, fun hm hn => ⟨hm, hn⟩⟩
      · rw [drawn_slot]
        exact hs k
    · rw [draw_exhausted hsource havail]
      exact h.exhaust k src

/-! ## Coverage (R146) -/

/-- Energy used from a block leaves no more of it. -/
theorem CreditLedger.used {s : State} (h : CreditLedger s) {k : SlotId} (covered take : Nat) :
    CreditLedger (s.modSlot k fun x => { x with covered := covered, blockLeft := x.blockLeft - take }) := by
  obtain ⟨hholders, hsourceless, hissued, hheld, henergy⟩ := h
  have hnew := slot_modSlot_same s k fun x => { x with covered := covered, blockLeft := x.blockLeft - take }
  have hslot : ∀ j, ((s.modSlot k fun x => { x with covered := covered, blockLeft := x.blockLeft - take }).slot j).source
        = (s.slot j).source
      ∧ ((s.modSlot k fun x => { x with covered := covered, blockLeft := x.blockLeft - take }).slot j).blockLeft
        ≤ (s.slot j).blockLeft
      ∧ ((s.modSlot k fun x => { x with covered := covered, blockLeft := x.blockLeft - take }).slot j).finalBlock
        = (s.slot j).finalBlock := fun j => by
    by_cases hj : j = k
    · rw [hj, hnew]
      exact ⟨rfl, Nat.sub_le _ _, rfl⟩
    · rw [slot_modSlot_ne _ _ hj]
      exact ⟨rfl, Nat.le_refl _, rfl⟩
  refine ⟨fun c hc hstate => ?_, fun j hj => ?_, hissued, fun j key hj => ?_, fun c hc => ?_⟩
  · obtain ⟨j, hj, hsource⟩ := hholders c hc hstate
    exact ⟨j, hj, (hslot j).1.trans hsource⟩
  · obtain ⟨hblock, hfinal⟩ := hsourceless j ((hslot j).1.symm.trans hj)
    have := (hslot j).2.1
    exact ⟨by omega, (hslot j).2.2.trans hfinal⟩
  · exact hheld j key ((hslot j).1.symm.trans hj)
  · refine ⟨(henergy c hc).1, fun j hj => ?_⟩
    have := (henergy c hc).2 j hj
    have := ceilDiv_mono (hslot j).2.1
    omega

theorem LedgerAll.used {s : State} (h : LedgerAll s) (k : SlotId) (covered take : Nat) :
    LedgerAll (s.modSlot k fun x => { x with covered := covered, blockLeft := x.blockLeft - take }) := by
  obtain ⟨hb, hc, hs⟩ := (ledgerInv_iff s).mp h.ledger
  refine ⟨h.sessions.frame (.setSlot s k _ rfl rfl), h.credits.same rfl, (ledgerInv_iff _).mpr ⟨?_, hc.used covered take, ?_⟩⟩
  · refine hb.frame_slot (k := k) (fun j hj => slot_modSlot_ne _ _ hj) rfl ?_
    rw [slot_modSlot_same]
    exact ⟨rfl, id, Iff.rfl, fun _ => rfl, fun hm hn => ⟨hm, hn⟩⟩
  · refine hs.of_slot (k := k) (fun j hj => slot_modSlot_ne _ _ hj) ?_
    rw [slot_modSlot_same]
    exact hs k

theorem LedgerAll.coverPart (k : SlotId) (fuel part : Nat) {s : State} (h : LedgerAll s) :
    LedgerAll (coverPart k fuel part s).2 := by
  induction fuel generalizing part s with
  | zero => exact h
  | succ n ih =>
    unfold Machine.coverPart
    split
    · exact h
    · dsimp only
      have hused := h.used k ((s.slot k).covered + min part (s.slot k).blockLeft) (min part (s.slot k).blockLeft)
      refine ih _ ?_
      split
      · exact hused.draw k
      · exact hused

theorem LedgerAll.coverAll {s : State} (h : LedgerAll s) (k : SlotId) (solar battery grid : Nat) :
    LedgerAll (coverAll k solar battery grid s).state := by
  unfold Machine.coverAll
  split
  · exact h
  · have hsolar := h.coverPart k (solar / 1000 + 2) solar
    dsimp only
    split
    · exact hsolar
    · exact (hsolar.coverPart k (battery / 1000 + 2) battery).coverPart k (grid / 1000 + 2) grid

/-! ## The charges -/

theorem LedgerAll.accrued {s : State} (h : LedgerAll s) (k : SlotId) (delta : Nat) : LedgerAll (accruedState k delta s) := by
  unfold accruedState
  refine LedgerAll.coverAll ?_ k _ _ _
  have hledger := fun x hx => h.ledger.slotMarks (k := k) (x := x) hx
  exact ⟨h.sessions.pieces (modSlot_pieces s k _ (fun _ => rfl) (fun _ => rfl) fun _ => ⟨rfl, rfl⟩), h.credits.same rfl,
    hledger _ ⟨rfl, rfl, rfl, rfl, rfl, rfl, rfl, rfl⟩⟩

/-- The ledger of a state in which session k of bay b has got a source and the scan slot of the bay has been emptied. -/
theorem LedgerInv.sourced {s t : State} (h : LedgerInv s) {b : BayId} {k : SlotId} (hlive : s.liveSlot b = some k)
    (hscan : (s.slot k).state.MayScan) (hothers : ∀ j, j ≠ k → t.slot j = s.slot j)
    (hbays : ∀ c, c ≠ b → t.bay c = s.bay c) (hstate : (t.slot k).state = (s.slot k).state)
    (hbay : (t.slot k).bay = (s.slot k).bay) (hb : (t.bay b).state = (s.bay b).state)
    (hsession : (t.bay b).session = (s.bay b).session) (hempty : (t.bay b).scan = .empty) (hledger : CreditLedger t) :
    LedgerInv (authoriseIfOpening k t) := by
  have hat := liveSlot_session hlive
  have hstays := SessionState.mayScan_live hscan
  obtain ⟨hkbay, -⟩ := h.named b k hat
  refine LedgerInv.authorised (h.bays.rebay b hbays (fun c hc j hj => hothers j fun he => ?_) (fun j hj => .inl ?_)
    (fun j hj => ?_) fun key n d hp => ?_) hledger (fun j hj => ?_) (by rw [hstate]; exact hscan)
  · rw [he] at hj
    exact hc ((h.named c k hj).1.symm.trans hkbay)
  · refine hothers j fun he => ?_
    rw [he, hstate] at hj
    exact live_ne_settled hstays hj
  · rw [hsession, hat] at hj
    cases hj
    rw [hstate, hbay, hb]
    exact h.named b k hat
  · rw [hempty] at hp
    cases hp
  · rw [hothers j hj]
    exact h.sources j

/-- The slot that an ISSUED record is joined to. -/
def joinedSlot (key : Nat) (x : Slot) : Slot := { x with source := some (.credit key), lastCreditKey := some key }

/-- The state in which an ISSUED record is joined to a session, before its first draw (R114). -/
def heldState (key : Nat) (k : SlotId) (s : State) : State :=
  (s.setCredits (updateCredit key (fun c => { c with state := .held, holder := some k }) s.cs.credits)).modSlot k
    (joinedSlot key)

theorem attach_eq (key : Nat) (k : SlotId) (b : BayId) (s : State) :
    attach key k b s = authoriseIfOpening k (emptyScan b (setMessage b .creditOk (draw k (heldState key k s)))) := rfl

theorem heldState_slot (key : Nat) (k : SlotId) (s : State) : (heldState key k s).slot k = joinedSlot key (s.slot k) :=
  slot_modSlot_same _ _ _

theorem heldState_slot_ne (key : Nat) {k j : SlotId} (s : State) (h : j ≠ k) : (heldState key k s).slot j = s.slot j :=
  slot_modSlot_ne _ _ h

theorem mem_heldState {key : Nat} {k : SlotId} {s : State} {c : Credit} (hc : c ∈ s.cs.credits) (hkey : c.key = key) :
    { c with state := .held, holder := some k } ∈ (heldState key k s).cs.credits := by
  exact (mem_updateCredit (f := fun c => { c with state := .held, holder := some k }) fun _ => rfl).mpr
    (.inr ⟨hkey, c, hc, hkey, rfl⟩)

theorem heldState_credits {s : State} (hcredits : CreditInv s) (key : Nat) (k : SlotId) : CreditInv (heldState key k s) := by
  refine hcredits.sublist ?_
  change ((updateCredit key (fun c => { c with state := .held, holder := some k }) s.cs.credits).map (·.key)).Sublist _
  rw [updateCredit_keys key (fun c => { c with state := .held, holder := some k }) fun _ => rfl]

theorem CreditLedger.joined {s : State} (h : CreditLedger s) (hcredits : CreditInv s) {c : Credit} (hc : c ∈ s.cs.credits)
    (hissued : c.state = .issued) {k : SlotId} (hsource : (s.slot k).source = none) : CreditLedger (heldState c.key k s) := by
  obtain ⟨hblock, hfinal⟩ := h.sourceless k hsource
  have hle := (h.energy c hc).1
  refine h.replace (key := c.key) (fun j hj => heldState_slot_ne c.key s hj) (fun d hd => ?_) (.inl hsource)
    (h.only hcredits hc (.inl hissued)) (fun hnone => ?_) ?_
  · exact mem_updateCredit_ne (cs := s.cs.credits) (f := fun c => { c with state := .held, holder := some k })
      (fun _ => rfl) hd
  · rw [heldState_slot] at hnone
    cases hnone
  · refine linkedRecord_update hcredits hc (f := fun c => { c with state := .held, holder := some k }) (fun _ => rfl) rfl hle
      (.inl ⟨rfl, rfl, ?_, ?_⟩)
    · rw [heldState_slot]
      rfl
    · rw [heldState_slot]
      change c.remainingWh + ceilDiv (s.slot k).blockLeft 1000 ≤ c.originalWh
      rw [hblock]
      exact hle

theorem LedgerAll.attach {s : State} (h : LedgerAll s) {key : Nat} {k : SlotId} {b : BayId} {c : Credit}
    (hfound : lookupCredit key s = some c) (hissued : c.state = .issued) (hlive : s.liveSlot b = some k)
    (hscan : (s.slot k).state.MayScan) (hsource : (s.slot k).source = none) : LedgerInv (attach key k b s) := by
  obtain ⟨hc, rfl⟩ := lookupCredit_mem hfound
  have hledger := ((ledgerInv_iff s).mp h.ledger).2.1
  have hjoined := hledger.joined h.credits hc hissued hsource
  have hcredits := heldState_credits h.credits c.key k
  have hslot := heldState_slot c.key k s
  have hnewsource : ((heldState c.key k s).slot k).source = some (.credit c.key) := by
    rw [hslot]
    rfl
  have havail : (heldState c.key k s).available (.credit c.key) = c.remainingWh :=
    hcredits.available (c := { c with state := .held, holder := some k }) (mem_heldState hc rfl)
  obtain ⟨w, final, hw, hdraw⟩ := draw_taken hnewsource (by rw [havail]; exact (hledger.issued c hc hissued).2)
  have hdrawn := hjoined.drawn hcredits hnewsource hw final
  have hk : ((Machine.draw k (heldState c.key k s)).slot k) = drawnSlot w final (joinedSlot c.key (s.slot k)) := by
    rw [hdraw, drawn_slot, hslot]
  have hbay : (emptyScan b (setMessage b .creditOk (Machine.draw k (heldState c.key k s)))).bay b
      = { s.bay b with scan := .empty, message := some { code := .creditOk, count := 3 } } := by
    rw [hdraw]
    simp only [emptyScan, setMessage, bay_modBay_same]
    rfl
  rw [attach_eq]
  refine h.ledger.sourced hlive hscan (fun j hj => ?_) (fun d hd => ?_) ?_ ?_ ?_ ?_ ?_ ?_
  · change (Machine.draw k (heldState c.key k s)).slot j = _
    rw [hdraw, drawn_slot_ne _ _ _ _ _ hj, heldState_slot_ne _ _ hj]
  · rw [hdraw]
    simp only [emptyScan, setMessage, bay_modBay_ne _ _ hd]
    rfl
  · change ((Machine.draw k (heldState c.key k s)).slot k).state = _
    rw [hk]
    rfl
  · change ((Machine.draw k (heldState c.key k s)).slot k).bay = _
    rw [hk]
    rfl
  · rw [hbay]
  · rw [hbay]
  · rw [hbay]
  · rw [hdraw]
    exact hdrawn.same rfl rfl

/-- A session that gets a credit may take a scan and has no source. -/
theorem LedgerInv.fits {s : State} (h : LedgerInv s) {key : Nat} {k : SlotId} {b : BayId} (hlive : s.liveSlot b = some k)
    (hfit : ((s.slot k).state ≠ .ending ∧ (s.slot k).source = none) ∨ (s.bay b).scan.key? = some key) :
    (s.slot k).state.MayScan ∧ (s.slot k).source = none := by
  rcases hfit with ⟨hstate, hsource⟩ | hpending
  · exact ⟨SessionState.mayScan_of_live (liveSlot_live hlive) hstate, hsource⟩
  · obtain ⟨n, d, hscan⟩ := ScanSlot.key?_eq_some_iff.mp hpending
    obtain ⟨j, hj, hmay, hsource⟩ := h.scans b key n d hscan
    rw [liveSlot_session hlive] at hj
    cases hj
    exact ⟨hmay, hsource⟩

/-! ## Tokens (R49) -/

/-- What a draw from an account does to the session that pays by it: it writes its source, its block and its hold. -/
structure AccountDrawn (k : SlotId) (i : AccountId) (s t : State) : Prop where
  slots : ∀ j, j ≠ k → t.slot j = s.slot j
  bays : t.bays = s.bays
  credits : t.cs.credits = s.cs.credits
  state : (t.slot k).state = (s.slot k).state
  bay : (t.slot k).bay = (s.slot k).bay
  source : (t.slot k).source = none ∨ (t.slot k).source = some (.account i)
  less : (t.slot k).source = none → (t.slot k).blockLeft = 0 ∧ (t.slot k).finalBlock = false

theorem draw_account {s : State} {k : SlotId} {i : AccountId} (hsource : (s.slot k).source = some (.account i))
    (hpayment : (s.slot k).payment = .account) : AccountDrawn k i s (draw k s) := by
  by_cases havail : 0 < s.available (.account i)
  · obtain ⟨w, final, -, hdraw⟩ := draw_taken hsource havail
    have hk := drawn_slot w w final s (.account i) k
    rw [hdraw]
    refine ⟨fun j hj => drawn_slot_ne _ _ _ _ _ hj, takeFrom_bays w s _, rfl, by rw [hk]; rfl, by rw [hk]; rfl, .inr ?_,
      fun hnone => ?_⟩
    · rw [hk]
      exact hsource
    · rw [hk] at hnone
      change (s.slot k).source = none at hnone
      rw [hsource] at hnone
      cases hnone
  · obtain ⟨hold, hk⟩ := releaseSource_slot hsource
    have hpays : ((countExhausted (releaseSource k s) (.account i)).slot k).payment = .account := by
      change ((releaseSource k s).slot k).payment = _
      rw [hk]
      exact hpayment
    have hdraw : draw k s = countNotice .accountExhausted i.val 0 (releaseSource k s) := by
      rw [draw_exhausted hsource havail, exhaust]
      exact if_neg (by rw [hpays]; simp)
    rw [hdraw]
    refine ⟨fun j hj => releaseSource_slot_ne s hj, releaseSource_bays k s, ?_, ?_, ?_, .inl ?_, fun _ => ?_⟩
    · change (releaseSource k s).cs.credits = _
      rw [releaseSource_account hsource, endHold_credits]
      rfl
    all_goals rw [countNotice_slot, hk]
    · rfl
    · rfl
    · rfl
    · exact ⟨rfl, rfl⟩

/-- The slot of a session whose token is accepted, before its source (R49). -/
def paidSlot (i : AccountId) (cls : AccountClass) (x : Slot) : Slot :=
  { x with payment := .account, accountIndex := some i, accountHold := true, cls := classUnder cls x.cls }

/-- The state in which a session pays by an account, before its source (R49). -/
def paidState (i : AccountId) (k : SlotId) (s : State) : State :=
  (s.modAccount i fun a => { a with holders := a.holders + 1 }).modSlot k (paidSlot i (s.account i).cls)

/-- The state after the first block of a session that pays by an account (R128). -/
def firstBlock (i : AccountId) (k : SlotId) (s : State) : State :=
  if 0 < (s.account i).allowanceWh then draw k ((paidState i k s).modSlot k fun x => { x with source := some (.account i) })
  else paidState i k s

theorem acceptToken_eq (i : AccountId) (k : SlotId) (b : BayId) (s : State) : acceptToken i k b s =
    authoriseIfOpening k (setMessage b .creditOk (emptyScan b (firstBlock i k s))) := rfl

theorem paidState_slot (i : AccountId) (k : SlotId) (s : State) :
    (paidState i k s).slot k = paidSlot i (s.account i).cls (s.slot k) := slot_modSlot_same _ _ _

theorem paidState_slot_ne (i : AccountId) {j k : SlotId} (s : State) (h : j ≠ k) : (paidState i k s).slot j = s.slot j :=
  slot_modSlot_ne _ _ h

theorem firstBlock_drawn {s : State} (h : CreditLedger s) {k : SlotId} (i : AccountId)
    (hsource : (s.slot k).source = none) : AccountDrawn k i s (firstBlock i k s) := by
  have hpaid := paidState_slot i k s
  unfold firstBlock
  split
  · have hsourced := slot_modSlot_same (paidState i k s) k fun x => { x with source := some (.account i) }
    rw [hpaid] at hsourced
    obtain ⟨hslots, hbays, hcredits, hstate, hbay, hnew, hless⟩ :=
      draw_account (i := i) (by rw [hsourced]) (by rw [hsourced]; rfl)
    refine ⟨fun j hj => ?_, hbays, hcredits, hstate.trans (by rw [hsourced]; rfl), hbay.trans (by rw [hsourced]; rfl), hnew, hless⟩
    rw [hslots j hj, slot_modSlot_ne _ _ hj, paidState_slot_ne i s hj]
  · refine ⟨fun j hj => paidState_slot_ne i s hj, rfl, rfl, by rw [hpaid]; rfl, by rw [hpaid]; rfl, .inl ?_, fun _ => ?_⟩
    · rw [hpaid]
      exact hsource
    · rw [hpaid]
      exact h.sourceless k hsource

theorem LedgerInv.token {s : State} (h : LedgerInv s) {k : SlotId} {b : BayId} (i : AccountId)
    (hlive : s.liveSlot b = some k) (hstate : (s.slot k).state = .opening) : LedgerInv (acceptToken i k b s) := by
  obtain ⟨-, hc, hs⟩ := (ledgerInv_iff s).mp h
  have hsource : (s.slot k).source = none := hs.source_none (by rw [hstate]; rfl) (by rw [hstate]; simp)
  have hdrawn := firstBlock_drawn hc i hsource
  have hbay : (setMessage b .creditOk (emptyScan b (firstBlock i k s))).bay b
      = { s.bay b with scan := .empty, message := some { code := .creditOk, count := 3 } } := by
    simp only [setMessage, emptyScan, bay_modBay_same]
    simp only [State.bay, hdrawn.bays]
  have hledger : CreditLedger (firstBlock i k s) := by
    refine hc.free hdrawn.slots hdrawn.credits (Slot.no_credit hsource) (fun key => ?_) hdrawn.less
    rcases hdrawn.source with hnone | haccount
    · exact Slot.no_credit hnone key
    · rw [haccount]
      simp
  rw [acceptToken_eq]
  refine h.sourced hlive (.inl hstate) hdrawn.slots (fun c hc => ?_) hdrawn.state hdrawn.bay ?_ ?_ ?_ (hledger.same rfl rfl)
  · simp only [setMessage, emptyScan, bay_modBay_ne _ _ hc]
    simp only [State.bay, hdrawn.bays]
  all_goals rw [hbay]

theorem LedgerAll.charge {s t : State} (m : ChargeMove s t) (h : LedgerAll s) : LedgerAll t := by
  refine ⟨h.sessions.pieces m.pieces, h.credits.edits m.edits, ?_⟩
  cases m with
  | attach key k b c hfound hissued hlive hfit =>
    obtain ⟨hscan, hsource⟩ := h.ledger.fits hlive hfit
    exact h.attach hfound hissued hlive hscan hsource
  | token i k b _ hlive hstate => exact h.ledger.token i hlive hstate
  | accrued k delta => exact (h.accrued k delta).ledger

/-! ## The store's own moves -/

theorem CreditLedger.issue {s : State} (h : CreditLedger s) {a : IssueArgs} (day : Nat) (hvalid : a.valid = true) :
    CreditLedger (s.setCredits (insertCredit (issuedCredit a day) s.cs.credits)) := by
  have hperm := insertCredit_perm (issuedCredit a day) s.cs.credits
  refine h.rewrite _ (fun c hc => ?_) fun d hd hheld => ⟨d, ?_, hheld, rfl, rfl⟩
  · rcases List.mem_cons.mp (hperm.mem_iff.mp hc) with rfl | hc
    · simp only [IssueArgs.valid, Bool.and_eq_true, decide_eq_true_eq] at hvalid
      exact .inl ⟨rfl, rfl, hvalid.1.1.1.1.1.2, Nat.le_refl _⟩
    · cases hstate : c.state with
      | issued => exact .inl ⟨rfl, (h.issued c hc hstate).1, (h.issued c hc hstate).2, (h.energy c hc).1⟩
      | held => exact .inr ⟨rfl, c, hc, hstate, rfl, rfl, rfl, Nat.le_refl _⟩
  · exact hperm.mem_iff.mpr (List.mem_cons_of_mem _ hd)

/-- A record as it stands, in the terms of `CreditLedger.rewrite`. -/
theorem CreditLedger.kept {s : State} (h : CreditLedger s) {c : Credit} (hc : c ∈ s.cs.credits) :
    (c.state = .issued ∧ c.holder = none ∧ 0 < c.remainingWh ∧ c.remainingWh ≤ c.originalWh)
      ∨ (c.state = .held ∧ ∃ d ∈ s.cs.credits, d.state = .held ∧ d.key = c.key ∧ d.holder = c.holder
        ∧ d.originalWh = c.originalWh ∧ c.remainingWh ≤ d.remainingWh) := by
  cases hstate : c.state with
  | issued => exact .inl ⟨rfl, (h.issued c hc hstate).1, (h.issued c hc hstate).2, (h.energy c hc).1⟩
  | held => exact .inr ⟨rfl, c, hc, hstate, rfl, rfl, rfl, Nat.le_refl _⟩

theorem CreditLedger.retire {s : State} (h : CreditLedger s) (hcredits : CreditInv s) {c : Credit} (hc : c ∈ s.cs.credits)
    (hissued : c.state = .issued) : CreditLedger (s.setCredits (removeCredit c.key s.cs.credits)) := by
  refine h.rewrite _ (fun d hd => h.kept (mem_removeCredit.mp hd).1) fun d hd hheld =>
    ⟨d, mem_removeCredit.mpr ⟨hd, fun hkey => ?_⟩, hheld, rfl, rfl⟩
  rw [hcredits.unique hd hc hkey, hissued] at hheld
  cases hheld

theorem Credit.voidHeld_kept (c : Credit) : c.voidHeld.state = c.state ∧ c.voidHeld.holder = c.holder
    ∧ c.voidHeld.originalWh = c.originalWh ∧ c.voidHeld.remainingWh ≤ c.remainingWh := by
  unfold Credit.voidHeld
  split
  · exact ⟨rfl, rfl, rfl, Nat.le_refl _⟩
  · exact ⟨rfl, rfl, rfl, Nat.zero_le _⟩

theorem CreditLedger.void {s : State} (h : CreditLedger s) (hcredits : CreditInv s) {c : Credit} (hc : c ∈ s.cs.credits)
    (hheld : c.state = .held) : CreditLedger (s.setCredits (updateCredit c.key Credit.voidHeld s.cs.credits)) := by
  refine h.rewrite _ (fun d hd => ?_) fun d hd hd_held => ?_
  · rcases (mem_updateCredit Credit.voidHeld_key).mp hd with ⟨-, hd⟩ | ⟨-, x, hx, hkey, rfl⟩
    · exact h.kept hd
    · obtain ⟨hstate, hholder, horiginal, hle⟩ := x.voidHeld_kept
      rw [hcredits.unique hx hc hkey] at *
      exact .inr ⟨hstate.trans hheld, c, hc, hheld, c.voidHeld_key.symm, hholder.symm, horiginal.symm, hle⟩
  · by_cases hkey : d.key = c.key
    · obtain ⟨hstate, hholder, -, -⟩ := d.voidHeld_kept
      exact ⟨d.voidHeld, (mem_updateCredit Credit.voidHeld_key).mpr
        (.inr ⟨d.voidHeld_key.trans hkey, d, hd, hkey, rfl⟩), hstate.trans hd_held, d.voidHeld_key, hholder⟩
    · exact ⟨d, (mem_updateCredit_ne Credit.voidHeld_key hkey).mpr hd, hd_held, rfl, rfl⟩

/-- A record that a rollover keeps is marked at most (R122). -/
theorem Credit.atRollover_kept {day : Nat} {c d : Credit} (h : Credit.atRollover day c = some d) : d.state = c.state
    ∧ d.holder = c.holder ∧ d.originalWh = c.originalWh ∧ d.remainingWh = c.remainingWh := by
  unfold Credit.atRollover at h
  split at h
  · split at h
    · cases h
    · cases h
      exact ⟨rfl, rfl, rfl, rfl⟩
  · cases h
    exact ⟨rfl, rfl, rfl, rfl⟩

theorem Credit.atRollover_held (day : Nat) {c : Credit} (h : c.state = .held) : ∃ d, Credit.atRollover day c = some d := by
  unfold Credit.atRollover
  rw [h]
  split <;> exact ⟨_, rfl⟩

theorem CreditLedger.rollover {s : State} (h : CreditLedger s) (day : Nat) :
    CreditLedger (s.setCredits (s.cs.credits.filterMap (Credit.atRollover day))) := by
  refine h.rewrite _ (fun d hd => ?_) fun c hc hheld => ?_
  · obtain ⟨c, hc, hroll⟩ := List.mem_filterMap.mp hd
    obtain ⟨hstate, hholder, horiginal, hremaining⟩ := Credit.atRollover_kept hroll
    rw [hstate, hholder, horiginal, hremaining, Credit.atRollover_key hroll]
    exact h.kept hc
  · obtain ⟨d, hroll⟩ := Credit.atRollover_held day hheld
    obtain ⟨hstate, hholder, -, -⟩ := Credit.atRollover_kept hroll
    exact ⟨d, List.mem_filterMap.mpr ⟨c, hc, hroll⟩, hstate.trans hheld, Credit.atRollover_key hroll, hholder⟩

theorem LedgerInv.of_credits {s t : State} (h : LedgerInv s) (hst : t.st.slots = s.st.slots) (hbays : t.bays = s.bays)
    (hc : CreditLedger t) : LedgerInv t := by
  obtain ⟨hb, -, hs⟩ := (ledgerInv_iff s).mp h
  exact (ledgerInv_iff t).mpr ⟨hb.same hst hbays, hc, hs.same hst⟩

theorem LedgerAll.store {s t : State} (m : StoreMove s t) (h : LedgerAll s) : LedgerAll t := by
  refine ⟨h.sessions.act (.store m), h.credits.store m, ?_⟩
  have hst : t.st.slots = s.st.slots := congrArg SessionTable.slots m.tables.1
  have hledger := ((ledgerInv_iff s).mp h.ledger).2.1
  refine h.ledger.of_credits hst m.tables.2.1 ?_
  cases m with
  | issue a hvalid => exact hledger.issue _ hvalid
  | retire key c hfound hissued =>
    obtain ⟨hc, rfl⟩ := lookupCredit_mem hfound
    exact hledger.retire h.credits hc hissued
  | void key c hfound hheld =>
    obtain ⟨hc, rfl⟩ := lookupCredit_mem hfound
    exact hledger.void h.credits hc hheld
  | rollover day => exact (hledger.rollover day).same rfl rfl
  | account => exact hledger.same rfl rfl

/-! ## The declarations -/

theorem LedgerInv.openGateIfMarked {s : State} (h : LedgerInv s) : LedgerInv (openGateIfMarked s) := by
  obtain ⟨-, hbays, hst, hcs, -⟩ := openGateIfMarked_tables s
  exact h.same (congrArg SessionTable.slots hst) hbays (congrArg CreditStore.credits hcs)

theorem LedgerInv.declaration {s t : State} (m : DeclarationMove s t) (h : LedgerInv s) : LedgerInv t := by
  have hdevice : ∀ e x, LedgerInv (s.setDevice e x) := fun e x => h.same rfl rfl rfl
  cases m with
  | declare b kind maximum width => exact (hdevice _ _).setBay ⟨rfl, rfl, .inr rfl⟩
  | remove b =>
    have hcleared := hdevice (Role.bay b).entry { kind := resetKind (Role.bay b).entry }
    exact hcleared.of_bays rfl rfl (hcleared.bays.vacated rfl rfl)
  | matched b r => exact h.setBay ⟨rfl, rfl, .inl rfl⟩
  | layout mode p =>
    refine LedgerInv.openGateIfMarked (h.of_bays rfl rfl (h.bays.frame (fun k => .refl _) fun b => ?_))
    simp only [State.bay, Vector.getElem_ofFn]
    exact ⟨rfl, rfl, .inl rfl⟩

/-! ## Every act, and every step -/

theorem LedgerAll.line {s t : State} (p : LinePiece s t) (h : LedgerAll s) : LedgerAll t := by
  cases p with
  | move m => exact h.move m
  | write => exact h.same rfl rfl rfl

theorem LedgerAll.act {s t : State} (a : Act s t) (h : LedgerAll s) : LedgerAll t := by
  cases a with
  | session m => exact h.move m
  | charge m => exact h.charge m
  | store m => exact h.store m
  | declaration m =>
    exact ⟨h.sessions.declaration m, h.credits.same (congrArg CreditStore.credits m.cs), h.ledger.declaration m⟩
  | site m => exact h.same (congrArg SessionTable.slots m.tables.1) m.tables.2.1 m.credits.1
  | lines new => exact (applyLines_linePieces new s).keep (fun p h => h.line p) h
  | rsvReq => exact (takeRsvReqLevel_linePieces s).keep (fun p h => h.line p) h

/-- Settles O60, by cases on the acts of the step: what the bays say, what the credits say, and which sessions hold a source. -/
theorem ledgerInvariantKept : Obligations.LedgerInvariantKept := by
  refine ⟨fun s t => meterInv_kept, fun s t hsessions hcredits hledger hstep => ?_⟩
  have hkept : LedgerAll t := by
    refine step_keeps (P := LedgerAll) (W := LedgerAll) (fun s h => h.same rfl rfl rfl) (fun s rest h => h.same rfl rfl rfl)
      (fun s h => h) (fun a h => h.act a) (fun s h => h.same (by simp) (by simp) (by simp)) (fun s t h => ?_) hstep
      ⟨hsessions, hcredits, hledger⟩
    rw [exec_reset] at h
    cases h
    obtain ⟨-, -, -, -, -, hcredits, -, -, -, hsessions, -, -, -, hledger⟩ := invariantsHoldAtReset
    exact ⟨hsessions.same rfl rfl, hcredits.same rfl, hledger.same rfl rfl rfl⟩
  exact hkept.ledger

end Sys2Proof.Machine
end

section
/-! # The site configuration: SITE LIMITS, FALLBACK LOAD, BATTERY, LAYOUT and TIMING (R1 to R11) -/

namespace Sys2Proof.Machine

/-! ## A request of another length (R1, check 1) -/

/-- A settings request of another length is a read or is refused. -/
theorem serve_settings {i : Instr} {f p : List Byte} {s : State} {act : State → Reply × State} {fields : State → List Field}
    (hp : PassSampled s) (h : Holds i f s)
    (hact : act s = settingsReply (if p.length = 0 then .ok else .badRequest) fields s) :
    serve i act s = .next (s.answered f (if p.length = 0 then .ok else .badRequest) (fields s) s) :=
  serve_unchanged hp h hact

/-- The first two checks of a settings request, for a length that is not the row's. -/
theorem settings_badLength {p : List Byte} {n : Nat} (hlen : p.length ≠ n) (fields : State → List Field) (s : State)
    (r : Reply × State) :
    (if p.length = 0 then settingsReply .ok fields s else if p.length ≠ n then settingsReply .badRequest fields s else r)
      = settingsReply (if p.length = 0 then .ok else .badRequest) fields s := by
  by_cases hempty : p.length = 0
  · rw [if_pos hempty, if_pos hempty]
  · rw [if_neg hempty, if_neg hempty, if_pos hlen]

/-- Both checks pass for a length above 0 that is the row's. -/
theorem settings_goodLength {p : List Byte} {n : Nat} (hlen : p.length = n) (hn : n ≠ 0) (x y r : Reply × State) :
    (if p.length = 0 then x else if p.length ≠ n then y else r) = r := by
  rw [if_neg (by omega), if_neg (by omega)]

theorem okOr_ne {α : Type} [DecidableEq α] [BEq α] [LawfulBEq α] (x y : α) : okOr (x != y) = if x = y then .ok else .okClamped := by
  by_cases h : x = y
  · simp [okOr, h]
  · simp [okOr, h]

/-! ## The opening of the gate (R9 to R11) -/

theorem openGateIfMarked_opens {s : State} (hgate : s.sc.gate = .closed) (hlimits : s.sc.limitsMark = true)
    (hlayout : s.sc.layoutMark = true) : openGateIfMarked s = evalAttn (requestPass { s with sc.gate := .opened }) :=
  if_pos ⟨hgate, hlimits, hlayout⟩

theorem openGateIfMarked_keeps {s : State} (h : s.sc.gate = .opened ∨ s.sc.limitsMark = false ∨ s.sc.layoutMark = false) :
    openGateIfMarked s = s := by
  refine if_neg fun ⟨hgate, hlimits, hlayout⟩ => ?_
  rcases h with h | h | h
  · rw [h] at hgate
    cases hgate
  · rw [h] at hlimits
    cases hlimits
  · rw [h] at hlayout
    cases hlayout

/-- The gate is OPEN once both marks are given (R9). -/
theorem openGateIfMarked_gate (s : State) : (openGateIfMarked s).sc =
    { s.sc with gate := if s.sc.limitsMark = true ∧ s.sc.layoutMark = true then .opened else s.sc.gate } := by
  unfold openGateIfMarked evalAttn
  split
  · next hc =>
    rw [if_pos hc.2]
    simp
  · next hc =>
    split
    · next hmarks =>
      cases hgate : s.sc.gate with
      | closed => exact absurd ⟨hgate, hmarks⟩ hc
      | opened => rw [← hgate]
    · rfl

theorem evalAttn_attn (s : State) : (evalAttn s).hp.attn = (evalAttn s).attnDue := rfl

theorem openGateIfMarked_attn {s : State} (hgate : s.sc.gate = .closed) (hlimits : s.sc.limitsMark = true)
    (hlayout : s.sc.layoutMark = true) : (openGateIfMarked s).hp.attn = (openGateIfMarked s).attnDue := by
  rw [openGateIfMarked_opens hgate hlimits hlayout]
  exact evalAttn_attn _

/-- An opening that happens asks for a pass (R10, R11). -/
theorem openGateIfMarked_asked {s t : State} (h : SamePass s t) (hgate : t.sc.gate = .closed)
    (hlimits : t.sc.limitsMark = true) (hlayout : t.sc.layoutMark = true) : PassAsked s (openGateIfMarked t) := by
  rw [openGateIfMarked_opens hgate hlimits hlayout]
  exact requestPass_asked (t := { t with sc.gate := .opened }) ⟨h.passState, h.snapshot⟩

/-- A pass request after an opening, whether it happens or not. -/
theorem openGateIfMarked_requestPass_asked {s t : State} (h : SamePass s t) :
    PassAsked s (requestPass (openGateIfMarked t)) := by
  by_cases hc : t.sc.gate = .closed ∧ t.sc.limitsMark = true ∧ t.sc.layoutMark = true
  · obtain ⟨hgate, hlimits, hlayout⟩ := hc
    exact (openGateIfMarked_asked h hgate hlimits hlayout).edits (requestPass_edits _)
  · rw [openGateIfMarked, if_neg hc]
    exact requestPass_asked h

theorem openGateIfMarked_results (s : State) : ResultsKept s (openGateIfMarked s) := by
  unfold openGateIfMarked evalAttn
  split <;> simp [ResultsKept]

/-- What the opening leaves outside SC, AL and ATTN. -/
theorem openGateIfMarked_outside (s : State) : (openGateIfMarked s).hp.notices = s.hp.notices
    ∧ (openGateIfMarked s).runTimer = s.runTimer ∧ (openGateIfMarked s).pending = s.pending
    ∧ (openGateIfMarked s).freeDraws = s.freeDraws := by
  unfold openGateIfMarked evalAttn
  split <;> simp

theorem ResultsKept.trans {s t u : State} (h : ResultsKept s t) (g : ResultsKept t u) : ResultsKept s u := by
  obtain ⟨hshare, hpermit, hinverters, hbattery, hload, hpass⟩ := h
  obtain ⟨gshare, gpermit, ginverters, gbattery, gload, gpass⟩ := g
  exact ⟨gshare.trans hshare, gpermit.trans hpermit, ginverters.trans hinverters, gbattery.trans hbattery,
    gload.trans hload, gpass.trans hpass⟩

theorem requestPass_results (s : State) : ResultsKept s (requestPass s) := (requestPass_untouched s).results

/-! ## SITE LIMITS (R2) -/

theorem exec_siteLimits (p : List Byte) (s : State) : exec (.siteLimits p) s = serve (.siteLimits p) (siteLimitsAct p) s := rfl

/-- The state in which SITE LIMITS has written its settings and given its mark. -/
def limitsWritten (p : List Byte) (s : State) : State :=
  { s with sc := { s.sc with
    importCap := (clampLimits (arg p 0 2) (arg p 2 2) (arg p 4 2)).1
    margin := (clampLimits (arg p 0 2) (arg p 2 2) (arg p 4 2)).2.1
    exportCap := (clampLimits (arg p 0 2) (arg p 2 2) (arg p 4 2)).2.2
    limitsMark := true } }

theorem siteLimitsAct_badLength {p : List Byte} (s : State) (hlen : p.length ≠ 6) :
    siteLimitsAct p s = settingsReply (if p.length = 0 then .ok else .badRequest) limitsFields s :=
  settings_badLength hlen _ _ _

theorem siteLimitsAct_written {p : List Byte} (s : State) (hlen : p.length = 6) : siteLimitsAct p s =
    (⟨okOr (clampLimits (arg p 0 2) (arg p 2 2) (arg p 4 2) != (arg p 0 2, arg p 2 2, arg p 4 2)),
        limitsFields (requestPass (openGateIfMarked (limitsWritten p s)))⟩,
      requestPass (openGateIfMarked (limitsWritten p s))) :=
  settings_goodLength hlen (by decide) _ _ _

theorem limitsFields_congr {s t : State} (himport : t.sc.importCap = s.sc.importCap) (hmargin : t.sc.margin = s.sc.margin)
    (hexport : t.sc.exportCap = s.sc.exportCap) : limitsFields t = limitsFields s := by
  simp only [limitsFields, himport, hmargin, hexport]

/-- Settles O9: the row's length decides between the read, the refusal and the write; the write clamps its three values and gives
its mark, and the gate and the pass request follow. -/
theorem siteLimitsApplied : Obligations.SiteLimitsApplied := by
  intro p f s hp h c m x
  simp only [exec_siteLimits]
  refine ⟨fun hlen => serve_settings hp h (siteLimitsAct_badLength s hlen), fun hlen => ?_⟩
  obtain ⟨hflc, hbays, hst, hcs, htc⟩ := openGateIfMarked_tables (limitsWritten p s)
  obtain ⟨hnotices, htimer, hpending, hdraws⟩ := openGateIfMarked_outside (limitsWritten p s)
  have hsc := openGateIfMarked_gate (limitsWritten p s)
  refine ⟨_, serve_completed h (siteLimitsAct_written s hlen), ?_, ?_, fun hgate hmark => ?_, ?_, ?_, ?_⟩
  · rw [completed_sc, answer_sc, requestPass_sc, hsc]
    simp only [limitsWritten, true_and]
    rfl
  · rw [completed_hp, answer_port _ _ s _ (by rw [requestPass_freeDraws]; exact hdraws), okOr_ne]
    have hfields : limitsFields (requestPass (openGateIfMarked (limitsWritten p s))) = limitsFields (limitsWritten p s) := by
      refine limitsFields_congr ?_ ?_ ?_ <;> rw [requestPass_sc, hsc]
    rw [hfields]
    simp only [clampLimits, Prod.mk.injEq]
    rfl
  · rw [completed_hp, completed_attnDue, answer_attn, answer_attnDue, requestPass_hp, requestPass_attnDue]
    exact openGateIfMarked_attn hgate rfl hmark
  · exact PassAsked.completed hp (openGateIfMarked_requestPass_asked (t := limitsWritten p s) ⟨rfl, rfl⟩)
  · refine ResultsKept.completed ?_
    exact (openGateIfMarked_results (limitsWritten p s)).trans (requestPass_results _)
  · constructor <;> simp only [completed_flc, completed_bays, completed_st, completed_cs, completed_tc, completed_hp,
      completed_runTimer, completed_pending, answer_flc, answer_bays, answer_st, answer_cs, answer_tc, answer_notices,
      answer_runTimer, answer_pending, requestPass_flc, requestPass_bays, requestPass_st, requestPass_cs, requestPass_tc,
      requestPass_hp, requestPass_runTimer, requestPass_pending]
    · exact hflc
    · exact hbays
    · exact hst
    · exact hcs
    · exact htc
    · exact hnotices
    · exact htimer
    · exact hpending

/-! ## FALLBACK LOAD (R3) and BATTERY (R4) -/

theorem exec_fallbackLoad (p : List Byte) (s : State) :
    exec (.fallbackLoad p) s = serve (.fallbackLoad p) (fallbackLoadAct p) s := rfl

theorem exec_battery (p : List Byte) (s : State) : exec (.battery p) s = serve (.battery p) (batteryAct p) s := rfl

theorem fallbackLoadAct_badLength {p : List Byte} (s : State) (hlen : p.length ≠ 2) :
    fallbackLoadAct p s = settingsReply (if p.length = 0 then .ok else .badRequest) fallbackFields s :=
  settings_badLength hlen _ _ _

theorem fallbackLoadAct_follow {p : List Byte} (s : State) (hlen : p.length = 2) (hasked : arg p 0 2 = 65535) :
    fallbackLoadAct p s = (⟨.ok, [u2 65535]⟩, { s with sc.fallback := .follow }) :=
  (settings_goodLength hlen (by decide) _ _ _).trans (if_pos hasked)

theorem fallbackLoadAct_fixed {p : List Byte} (s : State) (hlen : p.length = 2) (hasked : arg p 0 2 ≠ 65535) :
    fallbackLoadAct p s = (⟨okOr (20000 < arg p 0 2), [u2 (min 20000 (arg p 0 2))]⟩,
      { s with sc.fallback := .fixed (min 20000 (arg p 0 2)) }) :=
  (settings_goodLength hlen (by decide) _ _ _).trans (if_neg hasked)

theorem batteryAct_badLength {p : List Byte} (s : State) (hlen : p.length ≠ 12) :
    batteryAct p s = settingsReply (if p.length = 0 then .ok else .badRequest) batteryFields s :=
  settings_badLength hlen _ _ _

/-- The four values of a BATTERY, clamped (R4). -/
def clampBattery (p : List Byte) : Nat × Nat × Nat × Nat :=
  (min 1000000 (arg p 0 4), min (min 1000000 (arg p 4 4)) (min 1000000 (arg p 0 4)), min 5000 (arg p 8 2),
    min 5000 (arg p 10 2))

/-- The state in which BATTERY has written its settings. -/
def batteryWritten (p : List Byte) (s : State) : State :=
  { s with sc := { s.sc with
    eCap := (clampBattery p).1, eFloor := (clampBattery p).2.1, pDis := (clampBattery p).2.2.1
    pCh := (clampBattery p).2.2.2 } }

theorem batteryAct_written {p : List Byte} (s : State) (hlen : p.length = 12) : batteryAct p s =
    (⟨okOr (clampBattery p != (arg p 0 4, arg p 4 4, arg p 8 2, arg p 10 2)),
      batteryFields (requestPass (batteryWritten p s))⟩, requestPass (batteryWritten p s)) :=
  settings_goodLength hlen (by decide) _ _ _

/-- Settles O10: each row's length decides between the read, the refusal and the write; FALLBACK LOAD asks for no pass, BATTERY
for one. -/
theorem fallbackLoadAndBatteryApplied : Obligations.FallbackLoadAndBatteryApplied := by
  constructor
  · intro p f s hp h
    simp only [exec_fallbackLoad]
    refine ⟨fun hlen => ?_, fun hlen hasked => ?_, fun hlen hasked => ?_⟩
    · refine (serve_settings hp h (fallbackLoadAct_badLength s hlen)).trans ?_
      unfold fallbackFields
      cases s.sc.fallback <;> rfl
    · exact serve_answered _ h (fallbackLoadAct_follow s hlen hasked) rfl hp
    · rw [← okOr_above]
      exact serve_answered _ h (fallbackLoadAct_fixed s hlen hasked) rfl hp
  · intro p f s hp h cap floor dis ch
    simp only [exec_battery]
    refine ⟨fun hlen => serve_settings hp h (batteryAct_badLength s hlen), fun hlen => ?_⟩
    refine ⟨_, serve_completed h (batteryAct_written s hlen), ?_, ?_, ?_, ?_, ?_, ?_⟩
    · rw [completed_sc, answer_sc, requestPass_sc]
      rfl
    · rw [completed_hp, answer_port _ _ s _ (by rw [requestPass_freeDraws]; rfl), okOr_ne]
      simp only [batteryFields, requestPass_sc, clampBattery, Prod.mk.injEq]
      rfl
    · rw [completed_hp, answer_attn, requestPass_hp]
      rfl
    · exact PassAsked.completed hp (requestPass_asked (t := batteryWritten p s) ⟨rfl, rfl⟩)
    · refine ResultsKept.completed ?_
      exact requestPass_results (batteryWritten p s)
    · constructor <;> simp only [completed_flc, completed_bays, completed_st, completed_cs, completed_tc, completed_hp,
        completed_runTimer, completed_pending, answer_flc, answer_bays, answer_st, answer_cs, answer_tc, answer_notices,
        answer_runTimer, answer_pending, requestPass_flc, requestPass_bays, requestPass_st, requestPass_cs, requestPass_tc,
        requestPass_hp, requestPass_runTimer, requestPass_pending] <;> rfl

/-! ## LAYOUT (R5, R6) -/

theorem exec_layout (p : List Byte) (s : State) : exec (.layout p) s = serve (.layout p) (layoutAct p) s := rfl

theorem layoutAct_badLength {p : List Byte} (s : State) (hlen : p.length ≠ 9) :
    layoutAct p s = settingsReply (if p.length = 0 then .ok else .badRequest) layoutFields s :=
  settings_badLength hlen _ _ _

theorem layoutAct_badMode {p : List Byte} (s : State) (hlen : p.length = 9) (hmode : arg p 0 1 = 0 ∨ 4 < arg p 0 1) :
    layoutAct p s = settingsReply .outOfRange layoutFields s :=
  (settings_goodLength hlen (by decide) _ _ _).trans (if_pos hmode)

theorem bayInUse_iff (s : State) (b : BayId) :
    s.bayInUse b = true ↔ (s.liveSlot b).isSome = true ∨ 0 < (s.bay b).committed := by
  simp [State.bayInUse]

theorem any_bayInUse_iff (s : State) : (indices 48).any s.bayInUse = true ↔
    ∃ b, (s.liveSlot b).isSome = true ∨ 0 < (s.bay b).committed := by
  simp [indices, bayInUse_iff]

theorem layoutAct_inUse {p : List Byte} {s : State} (hlen : p.length = 9) (hlow : 1 ≤ arg p 0 1) (hhigh : arg p 0 1 ≤ 4)
    (hused : (indices 48).any s.bayInUse = true) : layoutAct p s = settingsReply .inUse layoutFields s :=
  (settings_goodLength hlen (by decide) _ _ _).trans ((if_neg (by omega)).trans (if_pos hused))

/-- The state in which LAYOUT has written its settings and every feeder field, and given its mark. -/
def layoutWritten (p : List Byte) (s : State) : State :=
  { s with
    sc := { s.sc with layoutMode := arg p 0 1, feederLimits := layoutLimits (arg p 0 1) p, layoutMark := true }
    bays := Vector.ofFn fun b => { s.bay b with feeder := feederOf (arg p 0 1) b } }

theorem layoutAct_written {p : List Byte} {s : State} (hlen : p.length = 9) (hlow : 1 ≤ arg p 0 1) (hhigh : arg p 0 1 ≤ 4)
    (hfree : ¬(indices 48).any s.bayInUse = true) : layoutAct p s =
      (⟨okOr (layoutClamps (arg p 0 1) p), layoutFields (openGateIfMarked (layoutWritten p s))⟩,
        openGateIfMarked (layoutWritten p s)) :=
  (settings_goodLength hlen (by decide) _ _ _).trans ((if_neg (by omega)).trans (if_neg hfree))

theorem layoutWritten_bay (p : List Byte) (s : State) (b : BayId) :
    (layoutWritten p s).bay b = { s.bay b with feeder := feederOf (arg p 0 1) b } := by
  simp [layoutWritten, State.bay]

theorem layoutClamps_iff (mode : Nat) (p : List Byte) : layoutClamps mode p = true ↔
    ∃ i, modeUses mode i = true ∧ 10000 < arg p (1 + 2 * i.val) 2 := by
  simp [layoutClamps, indices]

theorem layoutFields_congr {s t : State} (hmode : t.sc.layoutMode = s.sc.layoutMode)
    (hlimits : t.sc.feederLimits = s.sc.feederLimits) : layoutFields t = layoutFields s := by
  simp only [layoutFields, hmode, hlimits]

/-- Settles O11: the checks of R6 in their order; an applied layout rewrites every feeder field and gives its mark, with which the
gate opens or not. -/
theorem layoutApplied : Obligations.LayoutApplied := by
  intro p f s hp h mode limit settings
  simp only [exec_layout]
  refine ⟨fun hlen => serve_settings hp h (layoutAct_badLength s hlen),
    fun hlen hmode => serve_unchanged hp h (layoutAct_badMode s hlen hmode),
    fun hlen hlow hhigh hused => serve_unchanged hp h (layoutAct_inUse hlen hlow hhigh ((any_bayInUse_iff s).mpr hused)),
    fun hlen hlow hhigh hfree => ?_⟩
  have hunused : ¬(indices 48).any s.bayInUse = true := by
    rw [any_bayInUse_iff]
    rintro ⟨b, hb⟩
    obtain ⟨hlive, hcommitted⟩ := hfree b
    rw [hlive, hcommitted] at hb
    simp at hb
  obtain ⟨hflc, hbays, hst, hcs, htc⟩ := openGateIfMarked_tables (layoutWritten p s)
  obtain ⟨hnotices, htimer, hpending, hdraws⟩ := openGateIfMarked_outside (layoutWritten p s)
  have hsc := openGateIfMarked_gate (layoutWritten p s)
  refine ⟨_, serve_completed h (layoutAct_written hlen hlow hhigh hunused), ?_, fun b => ?_, ?_, fun hgate hmark => ⟨?_, ?_⟩,
    fun hkept => ?_, ResultsKept.completed ?_, ?_, ?_, ?_, ?_, ?_, ?_, ?_⟩
  · rw [completed_sc, answer_sc, hsc]
    simp only [layoutWritten, and_true]
    rfl
  · rw [completed_bay, answer_bay, ← layoutWritten_bay]
    simp only [State.bay, hbays]
  · rw [completed_hp, answer_port _ _ s _ hdraws, layoutFields_congr (s := layoutWritten p s) (by rw [hsc]) (by rw [hsc])]
    have hstatus : okOr (layoutClamps (arg p 0 1) p)
        = if ∃ i, modeUses mode i = true ∧ 10000 < arg p (1 + 2 * i.val) 2 then .okClamped else .ok := by
      simp only [okOr, layoutClamps_iff]
      rfl
    rw [hstatus]
    simp only [layoutFields, layoutWritten, layoutLimits, Vector.getElem_ofFn]
    rfl
  · exact PassAsked.completed hp (openGateIfMarked_asked (t := layoutWritten p s) ⟨rfl, rfl⟩ hgate hmark rfl)
  · rw [completed_hp, completed_attnDue, answer_attn, answer_attnDue]
    exact openGateIfMarked_attn hgate hmark rfl
  · rw [openGateIfMarked_keeps (s := layoutWritten p s) (hkept.imp_right .inl)]
    rw [completed_of_same (t := answer f _ (layoutWritten p s)) hp rfl]
    exact ⟨rfl, rfl⟩
  · exact openGateIfMarked_results (layoutWritten p s)
  · rw [completed_flc, answer_flc, hflc]
    rfl
  · rw [completed_st, answer_st, hst]
    rfl
  · rw [completed_cs, answer_cs, hcs]
    rfl
  · rw [completed_tc, answer_tc, htc]
    rfl
  · rw [completed_hp, answer_notices, hnotices]
    rfl
  · rw [completed_runTimer, answer_runTimer, htimer]
    rfl
  · rw [completed_pending, answer_pending, hpending]
    rfl

/-! ## TIMING (R7, R8) -/

theorem exec_timing (p : List Byte) (s : State) : exec (.timing p) s = serve (.timing p) (timingAct p) s := rfl

theorem timingAct_badLength {p : List Byte} (s : State) (hlen : p.length ≠ 17) :
    timingAct p s = settingsReply (if p.length = 0 then .ok else .badRequest) timingFields s :=
  settings_badLength hlen _ _ _

theorem loopRateOf_code (rate : LoopRate) : loopRateOf rate.code = some rate := by
  cases rate <;> rfl

theorem loopRateOf_none {n : Nat} (h : 2 < n) : loopRateOf n = none := by
  unfold loopRateOf
  split
  · omega
  · omega
  · omega
  · rfl

theorem timingAct_badRate {p : List Byte} (s : State) (hlen : p.length = 17) (hrate : 2 < arg p 10 1) :
    timingAct p s = settingsReply .outOfRange timingFields s := by
  refine (settings_goodLength hlen (by decide) _ _ _).trans ?_
  rw [loopRateOf_none hrate]

theorem timingAct_written {p : List Byte} (s : State) (rate : LoopRate) (hlen : p.length = 17)
    (hrate : arg p 10 1 = rate.code) : timingAct p s =
      (⟨okOr (clampTiming (timingAsked p rate) != timingAsked p rate),
          timingFields { s with sc.timing := clampTiming (timingAsked p rate) }⟩,
        { s with sc.timing := clampTiming (timingAsked p rate) }) := by
  refine (settings_goodLength hlen (by decide) _ _ _).trans ?_
  rw [hrate, loopRateOf_code]

/-- Settles O12: the length and the loop rate decide; the parameters are clamped each by its own range, and the answer says whether
one was changed. -/
theorem timingApplied : Obligations.TimingApplied := by
  intro p f s hp h fields
  simp only [exec_timing]
  refine ⟨fun hlen => serve_settings hp h (timingAct_badLength s hlen),
    fun hlen hrate => serve_unchanged hp h (timingAct_badRate s hlen hrate), fun rate hlen hrate => ?_⟩
  have hclamped : clampTiming (timingAsked p rate) = {
      tAck := max 1 (min 60 (arg p 0 2)), tLost := max 10 (min 600 (arg p 2 2))
      tAuth := max 30 (min 600 (arg p 4 2)), tEnd := max 5 (min 120 (arg p 6 2))
      tQuery := max 5 (min 120 (arg p 8 2)), loopRate := rate, pollGap := min 1000 (arg p 11 2)
      acAllowance := max 2 (min 50 (arg p 13 1)), dcAllowance := max 2 (min 50 (arg p 14 1))
      sourceAllowance := max 2 (min 50 (arg p 15 1)), missThreshold := max 1 (min 15 (arg p 16 1)) } := by
    simp only [clampTiming, timingAsked, clamp, Nat.zero_max]
  have hanswer := serve_answered _ h (timingAct_written s rate hlen hrate) rfl hp
  rw [okOr_ne, hclamped] at hanswer
  refine ⟨_, ?_, ?_, hanswer⟩
  · split
    · exact .inl rfl
    · exact .inr rfl
  · simp only [timingAsked, Timing.mk.injEq, true_and]
    constructor
    · intro hok
      by_contra hne
      rw [if_neg hne] at hok
      cases hok
    · exact fun heq => if_pos heq

end Sys2Proof.Machine
end

section
/-! # CLOCK with the midnight advance, and TARIFF (R149 to R152) -/

namespace Sys2Proof.Machine

/-! ## The day rollover (R122, R138, R150) -/

theorem filterMap_atRollover (day : Nat) (cs : List Credit) :
    cs.filterMap (Credit.atRollover day) = creditsAfter day cs := by
  refine List.filterMap_congr fun c _ => ?_
  unfold Credit.atRollover
  cases c.state <;> rfl

theorem rollover_eq (day : Nat) (s : State) : rollover day s =
    { s with cs := { s.cs with
      credits := creditsAfter day s.cs.credits
      accounts := accountsAfter s.cs.accounts } } := by
  unfold rollover
  rw [filterMap_atRollover]
  rfl

/-! ## CLOCK (R151) -/

theorem exec_clock (p : List Byte) (s : State) : exec (.clock p) s = serve (.clock p) (clockAct p) s := rfl

theorem exec_dayRollover (s : State) : exec .dayRollover s = execDayRollover s := rfl

theorem setClock_eq (day second : Nat) (s : State) : setClock day second s =
    { s with
      tc := { s.tc with day := day, second := second, millis := 0 }
      cs := if s.tc.day < day then
          { s.cs with credits := creditsAfter day s.cs.credits, accounts := accountsAfter s.cs.accounts }
        else s.cs } := by
  unfold setClock
  dsimp only
  split
  · exact rollover_eq day _
  · rfl

theorem clockAct_read {p : List Byte} (s : State) (hlen : p.length = 0) : clockAct p s = settingsReply .ok clockFields s :=
  if_pos hlen

theorem clockAct_badLength {p : List Byte} (s : State) (hempty : p.length ≠ 0) (hlen : p.length ≠ 6) :
    clockAct p s = refuse .badRequest s := (if_neg hempty).trans (if_pos hlen)

theorem clockAct_outOfRange {p : List Byte} (s : State) (hlen : p.length = 6) (hsecond : 86399 < arg p 2 4) :
    clockAct p s = refuse .outOfRange s :=
  (settings_goodLength hlen (by decide) _ _ _).trans (if_pos hsecond)

theorem clockAct_written {p : List Byte} (s : State) (hlen : p.length = 6) (hsecond : arg p 2 4 ≤ 86399) :
    clockAct p s = (⟨.ok, clockFields (setClock (arg p 0 2) (arg p 2 4) s)⟩, setClock (arg p 0 2) (arg p 2 4) s) :=
  (settings_goodLength hlen (by decide) _ _ _).trans (if_neg (by omega))

/-- Settles O18: CLOCK sets the day and the time with one rollover for a later day, and DAY_ROLLOVER is the midnight advance with
its rollover. -/
theorem clockWritten : Obligations.ClockWritten := by
  refine ⟨fun p f s hp h => ?_, fun s hp hsecond hmillis => ?_⟩
  · simp only [exec_clock]
    refine ⟨fun hlen => serve_unchanged hp h (clockAct_read s hlen),
      fun hempty hlen => serve_refused hp h (clockAct_badLength s hempty hlen),
      fun hlen hsecond => serve_refused hp h (clockAct_outOfRange s hlen hsecond), fun hlen hsecond => ?_⟩
    have hact := clockAct_written s hlen hsecond
    rw [setClock_eq] at hact
    exact serve_answered _ h hact rfl hp
  · rw [exec_dayRollover, execDayRollover, if_pos (dayOver_iff.mpr ⟨hsecond, hmillis⟩), midnight]
    refine (done_of_sampled ?_).trans ?_
    · exact hp
    · rw [rollover_eq]

/-! ## TARIFF (R152) -/

theorem exec_tariff (p : List Byte) (s : State) : exec (.tariff p) s = serve (.tariff p) (tariffAct p) s := rfl

theorem tariffAct_read {p : List Byte} (s : State) (hlen : p.length = 0) :
    tariffAct p s = settingsReply .ok tariffFields s := if_pos hlen

theorem tariffAct_badLength {p : List Byte} (s : State) (hempty : p.length ≠ 0) (hlen : p.length ≠ 18) :
    tariffAct p s = refuse .badRequest s := (if_neg hempty).trans (if_pos hlen)

theorem any_bandRefused_iff (p : List Byte) : (indices 4).any (bandRefused p) = true ↔
    ∃ n : BandId, askedStart p n ≠ 65535 ∧ (1439 < askedStart p n ∨ 9999 < askedPrice p n) := by
  simp [indices, bandRefused, unusedStart]

theorem tariffAct_outOfRange {p : List Byte} (s : State) (hlen : p.length = 18)
    (hbad : (indices 4).any (bandRefused p) = true ∨ 9999 < arg p 16 2) : tariffAct p s = refuse .outOfRange s :=
  (settings_goodLength hlen (by decide) _ _ _).trans (if_pos hbad)

/-- The tariff clock after an accepted TARIFF. -/
def tariffTaken (p : List Byte) (t : TariffClock) : TariffClock :=
  { t with bands := Vector.ofFn (storedBand p), canopyPrice := arg p 16 2 }

theorem tariffAct_written {p : List Byte} (s : State) (hlen : p.length = 18)
    (hgood : ¬((indices 4).any (bandRefused p) = true ∨ 9999 < arg p 16 2)) :
    tariffAct p s = (⟨.ok, tariffFields { s with tc := tariffTaken p s.tc }⟩, { s with tc := tariffTaken p s.tc }) :=
  (settings_goodLength hlen (by decide) _ _ _).trans (if_neg hgood)

theorem toList_of_four {α : Type} (v : Vector α 4) : v.toList = [v[0], v[1], v[2], v[3]] := by
  refine List.ext_getElem (by simp) fun n hn _ => ?_
  have hlt : n < 4 := by simpa using hn
  interval_cases n <;> simp

/-- Settles O19: the length, the bands and the canopy price decide; an applied table stores an unused band with price 0. -/
theorem tariffWritten : Obligations.TariffWritten := by
  intro p f s hp h start price band fields
  simp only [exec_tariff]
  have hfields : ∀ u : State, tariffFields u = fields u.tc := fun u => by
    have hband : ∀ n : BandId, bandFields (u.tc.bands[n.val]) = band u.tc n := fun n => by
      simp only [bandFields, unusedStart, band]
      cases (u.tc.bands[n.val]).start <;> rfl
    rw [tariffFields, toList_of_four]
    simp only [fields, ← hband, List.flatMap_cons, List.flatMap_nil, List.append_nil, List.append_assoc]
    cases u.tc.bandNow <;> rfl
  refine ⟨fun hlen => ?_, fun hempty hlen => serve_refused hp h (tariffAct_badLength s hempty hlen),
    fun hlen hbad => ?_, fun hlen hgood hprice => ?_⟩
  · rw [← hfields]
    exact serve_unchanged hp h (tariffAct_read s hlen)
  · exact serve_refused hp h (tariffAct_outOfRange s hlen (hbad.imp_left (any_bandRefused_iff p).mpr))
  · have hok : ¬((indices 4).any (bandRefused p) = true ∨ 9999 < arg p 16 2) := by
      rw [any_bandRefused_iff]
      rintro (⟨n, hused, hbad⟩ | hbad)
      · have := (hgood n).resolve_left hused
        change 1439 < start n ∨ 9999 < price n at hbad
        omega
      · omega
    have hanswer := serve_answered _ h (tariffAct_written s hlen hok) rfl hp
    rw [hfields] at hanswer
    exact hanswer

end Sys2Proof.Machine
end

section
/-! # Blocks: their size, the draw, exhaustion and the release (R123, R132 to R137) -/

namespace Sys2Proof.Machine

/-! ## BLOCK SIZE (R132) -/

theorem exec_blockSize (p : List Byte) (s : State) : exec (.blockSize p) s = serve (.blockSize p) (blockSizeAct p) s := rfl

theorem blockSizeAct_read {p : List Byte} (s : State) (hlen : p.length = 0) :
    blockSizeAct p s = settingsReply .ok blockSizeFields s := if_pos hlen

theorem blockSizeAct_badLength {p : List Byte} (s : State) (hempty : p.length ≠ 0) (hlen : p.length ≠ 2) :
    blockSizeAct p s = refuse .badRequest s := (if_neg hempty).trans (if_pos hlen)

theorem blockSizeAct_outOfRange {p : List Byte} (s : State) (hlen : p.length = 2)
    (hbad : arg p 0 2 < 100 ∨ 5000 < arg p 0 2) : blockSizeAct p s = refuse .outOfRange s :=
  (settings_goodLength hlen (by decide) _ _ _).trans (if_pos hbad)

theorem blockSizeAct_written {p : List Byte} (s : State) (hlen : p.length = 2) (hlow : 100 ≤ arg p 0 2)
    (hhigh : arg p 0 2 ≤ 5000) :
    blockSizeAct p s = (⟨.ok, [u2 (arg p 0 2)]⟩, { s with cs.blockSize := arg p 0 2 }) :=
  (settings_goodLength hlen (by decide) _ _ _).trans (if_neg (by omega))

/-! ## The draw (R133) -/

/-- A draw from a source with energy, as its own definition gives it. -/
theorem draw_energy {s : State} {k : SlotId} {src : Source} (hsource : (s.slot k).source = some src)
    (havail : 0 < s.available src) : draw k s =
      (takeFrom (min s.cs.blockSize (s.available src)) s src).modSlot k
        (drawnSlot (min s.cs.blockSize (s.available src))
          (s.available src == min s.cs.blockSize (s.available src))) := by
  simp only [draw, hsource, if_pos havail]
  rfl

theorem available_account {s : State} {i : AccountId} (h : (s.account i).enabled = true) :
    s.available (.account i) = (s.account i).remainingWh := if_pos h

/-- A credit's update by its key is the update of its record. -/
theorem CreditInv.update {s : State} (h : CreditInv s) {c : Credit} (hc : c ∈ s.cs.credits) (f g : Credit → Credit)
    (hfg : f c = g c) :
    updateCredit c.key f s.cs.credits = s.cs.credits.map fun x => if x.key = c.key then g x else x := by
  refine List.map_congr_left fun x hx => ?_
  split
  · next hkey => rw [h.unique hx hc hkey, hfg]
  · rfl

theorem beq_nat_decide (n m : Nat) : (n == m) = decide (n = m) := rfl

/-! ## Exhaustion (R135) -/

theorem exhaust_eq (k : SlotId) (src : Source) (s : State) : exhaust k src s =
    if ((countExhausted (releaseSource k s) src).slot k).payment = .unpaid
        ∧ ((countExhausted (releaseSource k s) src).slot k).state.queued = true then
      enterEnding k .creditExhausted (countExhausted (releaseSource k s) src)
    else countExhausted (releaseSource k s) src := rfl

theorem countExhausted_slot (s : State) (src : Source) (j : SlotId) : (countExhausted s src).slot j = s.slot j := by
  cases src <;> rfl

/-- A released source leaves the session's place, its payment and its state. -/
theorem releaseSource_kept (k : SlotId) (s : State) : ((releaseSource k s).slot k).payment = (s.slot k).payment
    ∧ ((releaseSource k s).slot k).state = (s.slot k).state ∧ ((releaseSource k s).slot k).bay = (s.slot k).bay := by
  cases hsource : (s.slot k).source with
  | none =>
    rw [releaseSource_none hsource]
    exact ⟨rfl, rfl, rfl⟩
  | some src =>
    obtain ⟨hold, hslot⟩ := releaseSource_slot hsource
    rw [hslot]
    exact ⟨rfl, rfl, rfl⟩

/-- How a session goes on that a draw has left without a source (R135, steps 3 and 4). -/
def GoesOn (k : SlotId) (s u t : State) : Prop :=
  ((s.slot k).payment = .unpaid → (s.slot k).state.queued = true →
      (s.bayOnline (s.slot k).bay = true → EndingEntered k (s.slot k).bay .creditExhausted u t)
        ∧ (s.bayOnline (s.slot k).bay = false → EndingLost k (s.slot k).bay u t))
    ∧ ((s.slot k).payment ≠ .unpaid ∨ (s.slot k).state.queued = false → t = u)

theorem exhaust_goesOn (k : SlotId) (src : Source) (s : State) :
    GoesOn k s (countExhausted (releaseSource k s) src) (exhaust k src s) := by
  have honline : ∀ b, (countExhausted (releaseSource k s) src).bayOnline b = s.bayOnline b := fun b => by
    have hflc := ((releaseSource_edits k s).trans (countExhausted_edits _ src)).untouched.flc
    simp only [State.bayOnline, State.bayDevice, State.device, hflc]
  obtain ⟨hpayment, hstate, hbay⟩ := releaseSource_kept k s
  rw [← countExhausted_slot (releaseSource k s) src] at hpayment hstate hbay
  refine ⟨fun hunpaid hqueued => ?_, fun hpaid => ?_⟩
  · rw [exhaust_eq, if_pos ⟨hpayment.trans hunpaid, by rw [hstate]; exact hqueued⟩, ← honline, ← hbay]
    exact ⟨enterEnding_entered k .creditExhausted _, enterEnding_lost k .creditExhausted _ (by rw [hstate]; exact hqueued)⟩
  · rw [exhaust_eq, if_neg]
    rintro ⟨hunpaid, hqueued⟩
    rw [hpayment] at hunpaid
    rw [hstate] at hqueued
    rcases hpaid with hpaid | hpaid
    · exact hpaid hunpaid
    · rw [hqueued] at hpaid
      cases hpaid

/-! ## The release (R123, R128, R137) -/

theorem setSlot_setSlot (s : State) (k : SlotId) (x y : Slot) : (s.setSlot k x).setSlot k y = s.setSlot k y := by
  simp only [State.setSlot, Vector.set_set]

theorem setAccount_setAccount (s : State) (i : AccountId) (x y : Account) :
    (s.setAccount i x).setAccount i y = s.setAccount i y := by
  simp only [State.setAccount, Vector.set_set]

/-- The end of a hold on an account (R128). -/
theorem endHold_held {s : State} {k : SlotId} {i : AccountId} (hhold : (s.slot k).accountHold = true)
    (hindex : (s.slot k).accountIndex = some i) : endHold k s =
      (s.setSlot k { s.slot k with accountHold := false }).setAccount i
        { s.account i with holders := (s.account i).holders - 1 } := by
  refine (if_pos hhold).trans ?_
  split
  · next j hj =>
    rw [hindex] at hj
    cases hj
    rfl
  · next hnone =>
    rw [hindex] at hnone
    cases hnone

theorem endHold_none {s : State} {k : SlotId} (hhold : (s.slot k).accountHold = false) : endHold k s = s :=
  if_neg (by rw [hhold]; decide)

/-- The release of an account that a session holds: its block returned, its hold ended (R128, R137). -/
theorem releaseSource_account_held {s : State} {k : SlotId} {i : AccountId} (hsource : (s.slot k).source = some (.account i))
    (hhold : (s.slot k).accountHold = true) (hindex : (s.slot k).accountIndex = some i) : releaseSource k s =
      (s.setSlot k { clearedSource (s.slot k) with accountHold := false }).setAccount i { s.account i with
        remainingWh := min (s.account i).allowanceWh ((s.account i).remainingWh + (s.slot k).blockLeft / 1000)
        holders := (s.account i).holders - 1 } := by
  rw [releaseSource_account hsource]
  have hslot : ((s.modSlot k clearedSource).modAccount i fun a =>
      { a with remainingWh := min a.allowanceWh (a.remainingWh + (s.slot k).blockLeft / 1000) }).slot k
        = clearedSource (s.slot k) := slot_setSlot_same _ _ _
  rw [endHold_held (i := i) (by rw [hslot]; exact hhold) (by rw [hslot]; exact hindex), hslot, account_modAccount_same]
  change ((((s.setSlot k _).setSlot k _).setAccount i _).setAccount i _) = _
  rw [setAccount_setAccount, setSlot_setSlot]
  rfl

theorem releaseHoldings_source {s : State} {k : SlotId} (h : (s.slot k).source ≠ none) :
    releaseHoldings k s = releaseSource k s := by
  unfold releaseHoldings
  split
  · rfl
  · next hnone => exact absurd hnone h

theorem releaseHoldings_hold {s : State} {k : SlotId} (h : (s.slot k).source = none) : releaseHoldings k s = endHold k s := by
  simp only [releaseHoldings, h]

/-- Settles O21: the size and its range; the draw from a source with energy; what R135 makes of one without; and the release. -/
theorem blocksDrawnAndReleased : Obligations.BlocksDrawnAndReleased := by
  refine ⟨rfl, fun p f s hp h => ?_, fun k s hcredits => ⟨?_, ?_⟩, fun k s hcredits => ?_, fun k s hcredits => ?_⟩
  · simp only [exec_blockSize]
    exact ⟨fun hlen => serve_unchanged hp h (blockSizeAct_read s hlen),
      fun hempty hlen => serve_refused hp h (blockSizeAct_badLength s hempty hlen),
      fun hlen hbad => serve_refused hp h (blockSizeAct_outOfRange s hlen hbad),
      fun hlen hlow hhigh => serve_answered _ h (blockSizeAct_written s hlen hlow hhigh) rfl hp⟩
  · intro c hc hsource hremaining w
    have havail := hcredits.available hc
    rw [draw_energy hsource (by rw [havail]; exact hremaining), havail, beq_nat_decide]
    rfl
  · intro i hsource henabled hremaining a w
    have havail := available_account henabled
    rw [draw_energy hsource (by rw [havail]; exact hremaining), havail, beq_nat_decide]
    rfl
  · intro x ends
    have hgoes : ∀ u, GoesOn k s u (draw k s) → ends u := fun u h => h
    refine ⟨fun hnone => ?_, fun c hc hsource hempty => ?_, fun i hsource hempty => ?_⟩
    · simp only [draw, show (s.slot k).source = none from hnone]
    · refine hgoes _ ?_
      rw [draw_exhausted hsource (by rw [hcredits.available hc, hempty]; decide)]
      exact exhaust_goesOn k (.credit c.key) s
    · have hunavailable : ¬0 < s.available (.account i) := by
        simp only [State.available]
        rcases hempty with hdisabled | hzero
        · rw [hdisabled]
          simp
        · rw [hzero, ite_self]
          decide
      refine ⟨countExhausted (releaseSource k s) (.account i), counted_countNotice _ _ _ _, countNotice_attn _ _ _ _, ?_,
        rfl, rfl, ?_, ?_, hgoes _ ?_⟩
      · exact (releaseSource_edits k s).untouched.port
      · exact releaseSource_bays k s
      · exact releaseSource_al k s
      · rw [draw_exhausted hsource hunavailable]
        exact exhaust_goesOn k (.account i) s
  · intro x r released
    refine ⟨fun c hc hsource => ?_, fun i hsource hindex => ?_, fun hsource => releaseHoldings_source hsource,
      fun hnone hhold => ?_, fun i hnone hhold hindex => ?_⟩
    · have hrelease : releaseSource k s = releaseCredit c.key r (s.setSlot k released) := releaseSource_credit hsource
      have hfind : (s.setSlot k released).cs.credits.find? (fun y => y.key == c.key) = some c := hcredits.find hc
      rw [hrelease]
      simp only [releaseCredit, hfind]
      refine ⟨fun hpos hvoided hexpired => ?_, fun hretired => ?_⟩
      · rw [if_pos ⟨hpos, hvoided, hexpired⟩]
        exact congrArg (s.setSlot k released).setCredits (hcredits.update hc
          (fun c => { c with state := .issued, remainingWh := c.remainingWh + r, holder := none })
          (fun z => { z with state := .issued, remainingWh := c.remainingWh + r, holder := none }) rfl)
      · rw [if_neg]
        · rfl
        · rintro ⟨hpos, hvoided, hexpired⟩
          rw [hvoided, hexpired] at hretired
          rcases hretired with hzero | hmark | hmark
          · omega
          · cases hmark
          · cases hmark
    · intro a back
      have hrelease : releaseSource k s = endHold k ((s.setSlot k released).setAccount i { a with remainingWh := back }) :=
        releaseSource_account hsource
      have hslot : ((s.setSlot k released).setAccount i { a with remainingWh := back }).slot k = released :=
        slot_setSlot_same _ _ _
      rw [hrelease]
      exact ⟨fun hhold => hrelease.symm.trans (releaseSource_account_held hsource hhold hindex),
        fun hhold => endHold_none (by rw [hslot]; exact hhold)⟩
    · rw [releaseHoldings_hold hnone, endHold_none hhold]
    · rw [releaseHoldings_hold hnone]
      exact endHold_held hhold hindex

end Sys2Proof.Machine
end

section
/-! # DECLARE BAY and DECLARE SOURCE with their removals (R17, R19 to R22, R38) -/

namespace Sys2Proof.Machine

/-! ## A command that ends in a pass request and an answer -/

/-- What a state keeps through a pass request, an answer and the completion of the command. -/
structure Passed (v t : State) : Prop where
  sc : t.sc = v.sc
  flc : t.flc = v.flc
  bays : t.bays = v.bays
  st : t.st = v.st
  cs : t.cs = v.cs
  tc : t.tc = v.tc
  notices : t.hp.notices = v.hp.notices
  attn : t.hp.attn = v.hp.attn
  dropped : t.hp.dropped = v.hp.dropped
  runTimer : t.runTimer = v.runTimer
  pending : t.pending = v.pending
  results : ResultsKept v t

theorem passed (f : List Byte) (r : Reply) (v : State) : Passed v (completed (answer f r (requestPass v))) := by
  constructor
  case results =>
    refine ResultsKept.completed ?_
    exact requestPass_results v
  all_goals simp

/-! ## The poll list (R22, R38) -/

theorem pollList_nil_iff (s : State) : s.pollList = [] ↔ ∀ e, (s.device e).declared = false := by
  simp [State.pollList, indices, List.filter_eq_nil_iff]

/-- A device that joins the poll list writes where the cycle starts and when, and that only into an empty list. -/
theorem joinPollList_eq (e : Entry) (s : State) : ∃ start gap,
    joinPollList e s = { s with flc := { s.flc with start := start, gapFrom := gap } }
      ∧ ((∀ e, (s.device e).declared = false) → start = some e ∧ gap = s.runTimer)
      ∧ ((∃ e, (s.device e).declared = true) → start = s.flc.start ∧ gap = s.flc.gapFrom) := by
  unfold joinPollList
  split
  · next hempty =>
    rw [pollList_nil_iff] at hempty
    refine ⟨some e, s.runTimer, rfl, fun _ => ⟨rfl, rfl⟩, fun ⟨d, hd⟩ => ?_⟩
    rw [hempty d] at hd
    cases hd
  · next hsome =>
    rw [pollList_nil_iff] at hsome
    exact ⟨s.flc.start, s.flc.gapFrom, rfl, fun hnone => absurd hnone hsome, fun _ => ⟨rfl, rfl⟩⟩

/-- A device that is declared is in the poll list, and does not join it again. -/
theorem joinPollList_of_declared {e : Entry} {s : State} (h : (s.device e).declared = true) : joinPollList e s = s := by
  refine if_neg fun hempty => ?_
  rw [pollList_nil_iff] at hempty
  rw [hempty e] at h
  cases h

/-- A device that leaves the poll list: its entry, the mark of its exchange, and where the cycle starts. -/
theorem clearDevice_eq (e : Entry) (s : State) : ∃ start, clearDevice e s =
    { s.setDevice e { kind := resetKind e } with
      flc := { (s.setDevice e { kind := resetKind e }).flc with
        exchange := s.flc.exchange.markRemoved e, start := start } } := by
  unfold clearDevice
  dsimp only
  split
  · exact ⟨none, rfl⟩
  · exact ⟨s.flc.start, rfl⟩

/-! ## The checks of DECLARE BAY (R19) -/

theorem exec_declareBay (p : List Byte) (s : State) : exec (.declareBay p) s = serve (.declareBay p) (declareBayAct p) s := rfl

theorem exec_removeBay (p : List Byte) (s : State) : exec (.removeBay p) s = serve (.removeBay p) (declareBayAct p) s := rfl

theorem declareBayAct_badLength {p : List Byte} (s : State) (hlen : p.length ≠ 5) :
    declareBayAct p s = refuse .badRequest s := if_pos hlen

theorem declareBayAct_outOfRange {p : List Byte} (s : State) (hlen : p.length = 5) (hbay : 47 < arg p 0 1) :
    declareBayAct p s = refuse .outOfRange s := by
  have hindex : index? 48 (arg p 0 1) = none := index?_none.mpr hbay
  simp [declareBayAct, hlen, hindex]

theorem declaredKindOf_code (kind : BayKind) : declaredKindOf kind.code = some (some kind) := by
  cases kind <;> rfl

theorem declaredKindOf_none {n : Nat} (h : 3 < n) : declaredKindOf n = none := by
  unfold declaredKindOf
  split
  · omega
  · omega
  · omega
  · omega
  · rfl

theorem declaredKindOf_bay {n : Nat} (h : n < 3) : ∃ kind : BayKind, n = kind.code := by
  interval_cases n
  · exact ⟨.ac1, rfl⟩
  · exact ⟨.ac3, rfl⟩
  · exact ⟨.dc, rfl⟩

theorem validWidth_iff (w : Nat) : validWidth w = true ↔ w = 16 ∨ w = 20 ∨ w = 24 ∨ w = 32 := by
  simp [validWidth, or_assoc]

/-- What DECLARE BAY answers of a bay that is named, by the kind it carries. -/
theorem declareBayAct_bay {p : List Byte} {b : BayId} (s : State) (hlen : p.length = 5) (hbay : arg p 0 1 = b.val) :
    declareBayAct p s = match declaredKindOf (arg p 1 1) with
      | none => (⟨.outOfRange, bayDeclarationFields s b⟩, s)
      | some none =>
        if s.bayInUse b then (⟨.inUse, bayDeclarationFields s b⟩, s)
        else (⟨.ok, bayDeclarationFields (removeBayAt b s) b⟩, removeBayAt b s)
      | some (some kind) =>
        if !validWidth (arg p 4 1) then (⟨.outOfRange, bayDeclarationFields s b⟩, s)
        else if s.bayInUse b then (⟨.inUse, bayDeclarationFields s b⟩, s)
        else
          (⟨okOr (clamp kind.minSteps kind.maxBound (arg p 2 2) != arg p 2 2),
              bayDeclarationFields (declareBayAt b kind (clamp kind.minSteps kind.maxBound (arg p 2 2)) (arg p 4 1) s) b⟩,
            declareBayAt b kind (clamp kind.minSteps kind.maxBound (arg p 2 2)) (arg p 4 1) s) := by
  have hindex : index? 48 (arg p 0 1) = some b := index?_some.mpr hbay
  simp only [declareBayAct, hlen, hindex, ne_eq, not_true, if_false] <;> rfl

theorem not_bayInUse {s : State} {b : BayId} (hlive : s.liveSlot b = none) (hcommitted : (s.bay b).committed = 0) :
    s.bayInUse b = false := by
  simp [State.bayInUse, hlive, hcommitted]

/-- The state after an accepted declaration of a bay, but for the poll list (R19). -/
def declaredBay (b : BayId) (kind : BayKind) (maximum width : Nat) (s : State) : State :=
  (s.setDevice (Role.bay b).entry { s.device (Role.bay b).entry with
    declared := true, kind := kind.device, declaredMax := maximum }).setBay b { s.bay b with
      declared := true, kind := kind, maxSteps := maximum, minSteps := kind.minSteps, meterWidth := width
      feeder := feederOf s.sc.layoutMode b, identity := .unchecked, scan := .empty }

theorem declareBayAt_eq (b : BayId) (kind : BayKind) (maximum width : Nat) (s : State) : ∃ start gap,
    declareBayAt b kind maximum width s =
        { declaredBay b kind maximum width s with
          flc := { (declaredBay b kind maximum width s).flc with start := start, gapFrom := gap } }
      ∧ ((∀ e, (s.device e).declared = false) → start = some (Role.bay b).entry ∧ gap = s.runTimer)
      ∧ ((∃ e, (s.device e).declared = true) → start = s.flc.start ∧ gap = s.flc.gapFrom) := by
  obtain ⟨start, gap, hjoin, hnone, hsome⟩ := joinPollList_eq (Role.bay b).entry s
  have hjoined : (if (s.device (Role.bay b).entry).declared then s else joinPollList (Role.bay b).entry s)
      = joinPollList (Role.bay b).entry s := by
    split
    · next hd => exact (joinPollList_of_declared hd).symm
    · rfl
  refine ⟨start, gap, ?_, hnone, hsome⟩
  unfold declareBayAt
  dsimp only
  rw [hjoined, hjoin]
  rfl

/-- Settles O16: the checks of R19 in their order; a declaration writes the bay's two records, a removal resets them. -/
theorem baysDeclaredAndRemoved : Obligations.BaysDeclaredAndRemoved := by
  refine ⟨?_, ?_, ?_, ?_⟩
  · intro p f b kind s hp h hlen hbay hkind hwidth maximum entry
    simp only [exec_declareBay]
    have hact := declareBayAct_bay s hlen hbay
    have hvalid : validWidth (arg p 4 1) = true := (validWidth_iff _).mpr hwidth
    rw [hkind, declaredKindOf_code] at hact
    simp only [hvalid, Bool.not_true, Bool.false_eq_true, if_false] at hact
    refine ⟨fun hused => ?_, fun hlive hcommitted => ?_⟩
    · rw [if_pos ((bayInUse_iff s b).mpr hused)] at hact
      exact serve_unchanged hp h hact
    · rw [if_neg (by rw [not_bayInUse hlive hcommitted]; decide)] at hact
      obtain ⟨start, gap, hdeclared, hnone, hsome⟩ := declareBayAt_eq b kind maximum (arg p 4 1) s
      rw [show clamp kind.minSteps kind.maxBound (arg p 2 2) = maximum from rfl, hdeclared, okOr_ne] at hact
      refine ⟨_, serve_answered _ h hact rfl hp, bay_setBay_same _ _ _, device_setDevice_same _ _ _,
        fun c hc => bay_setBay_ne _ _ hc, fun e he => device_setDevice_ne _ _ he, hnone, hsome, rfl, rfl, rfl, rfl, rfl, rfl,
        rfl, rfl, rfl, rfl⟩
  · intro p f s hp h
    simp only [exec_declareBay]
    refine ⟨fun hlen => serve_refused hp h (declareBayAct_badLength s hlen),
      fun hlen hbay => serve_refused hp h (declareBayAct_outOfRange s hlen hbay), fun b hlen hbay hbad => ?_⟩
    have hact := declareBayAct_bay s hlen hbay
    rcases hbad with hkind | ⟨hkind, h16, h20, h24, h32⟩
    · rw [declaredKindOf_none hkind] at hact
      exact serve_unchanged hp h hact
    · obtain ⟨kind, hcode⟩ := declaredKindOf_bay hkind
      have hwidth : validWidth (arg p 4 1) = false := by
        rw [← Bool.not_eq_true, validWidth_iff]
        omega
      rw [hcode, declaredKindOf_code] at hact
      simp only [hwidth, Bool.not_false, if_true] at hact
      exact serve_unchanged hp h hact
  · intro p f s hp h hlen hbay
    rw [exec_removeBay]
    exact serve_refused hp h (declareBayAct_outOfRange s hlen hbay)
  · intro p f b s hp h hlen hbay hkind entry
    simp only [exec_removeBay]
    have hact := declareBayAct_bay s hlen hbay
    rw [hkind, show declaredKindOf 3 = some none from rfl] at hact
    dsimp only at hact
    refine ⟨fun hused => ?_, fun hlive hcommitted hundeclared => ?_, fun hlive hcommitted hdeclared => ?_⟩
    · rw [if_pos ((bayInUse_iff s b).mpr hused)] at hact
      exact serve_unchanged hp h hact
    · have hnothing : removeBayAt b s = s := if_neg (by rw [show (s.bayDevice b).declared = false from hundeclared]; decide)
      rw [if_neg (by rw [not_bayInUse hlive hcommitted]; decide), hnothing] at hact
      exact serve_unchanged hp h hact
    · obtain ⟨start, hcleared⟩ := clearDevice_eq (Role.bay b).entry s
      have hremoved : removeBayAt b s =
          (clearDevice (Role.bay b).entry s).setBay b { feeder := feederOf s.sc.layoutMode b } := if_pos hdeclared
      have hreset : resetKind (Role.bay b).entry = .ac1 := if_pos b.isLt
      rw [if_neg (by rw [not_bayInUse hlive hcommitted]; decide), hremoved, hcleared, hreset] at hact
      exact ⟨_, serve_answered _ h hact rfl hp, bay_setBay_same _ _ _, device_setDevice_same _ _ _,
        fun c hc => bay_setBay_ne _ _ hc, fun e he => device_setDevice_ne _ _ he, rfl, rfl, rfl, rfl, rfl, rfl, rfl, rfl, rfl,
        rfl⟩

end Sys2Proof.Machine
end

section
/-! # DECLARE SOURCE and the removal of a source (R17, R21, R88, R89) -/

namespace Sys2Proof.Machine

/-! ## The addresses of the sources (R21) -/

theorem sourceAt_canopy (k : InverterId) : sourceAt (48 + k.val) = some (.canopy k) := by
  have hrange : 48 ≤ 48 + k.val ∧ 48 + k.val < 54 := ⟨by omega, by omega⟩
  rw [sourceAt, dif_pos hrange]
  simp

theorem sourceAt_none_iff (a : Nat) : sourceAt a = none ↔ (a < 48 ∨ 53 < a) ∧ a ≠ 56 ∧ a ≠ 60 := by
  unfold sourceAt
  split
  · simp
    omega
  · split
    · simp
      omega
    · split
      · simp
        omega
      · simp
        omega

theorem sourceAt_canopy_iff (a : Nat) (k : InverterId) : sourceAt a = some (.canopy k) ↔ a = 48 + k.val := by
  constructor
  · unfold sourceAt
    split
    · intro h
      cases h
      dsimp only
      omega
    · split
      · intro h
        cases h
      · split <;> intro h <;> cases h
  · rintro rfl
    exact sourceAt_canopy k

theorem sourceAt_battery_iff (a : Nat) : sourceAt a = some .battery ↔ a = 56 := by
  constructor
  · unfold sourceAt
    split
    · intro h
      cases h
    · split
      · exact fun _ => ‹_›
      · split <;> intro h <;> cases h
  · rintro rfl
    rfl

theorem sourceAt_meter_iff (a : Nat) : sourceAt a = some .meter ↔ a = 60 := by
  constructor
  · unfold sourceAt
    split
    · intro h
      cases h
    · split
      · intro h
        cases h
      · split
        · exact fun _ => ‹_›
        · intro h
          cases h
  · rintro rfl
    rfl

theorem sourceAt_ne_bay (a : Nat) (b : BayId) : sourceAt a ≠ some (.bay b) := by
  unfold sourceAt
  split
  · simp
  · split
    · simp
    · split <;> simp

/-! ## The checks of DECLARE SOURCE (R21) -/

theorem declareSourceAct_badLength {p : List Byte} (s : State) (h1 : p.length ≠ 1) (h4 : p.length ≠ 4) :
    declareSourceAct p s = refuse .badRequest s := if_pos ⟨h1, h4⟩

theorem declareSourceAct_outOfRange {p : List Byte} (s : State) (hlen : p.length = 1 ∨ p.length = 4)
    (hsource : sourceAt (arg p 0 1) = none) : declareSourceAct p s = refuse .outOfRange s := by
  rw [declareSourceAct, if_neg (by omega), hsource]

theorem declareSourceAct_read {p : List Byte} {r : Role} (s : State) (hlen : p.length = 1)
    (hsource : sourceAt (arg p 0 1) = some r) : declareSourceAct p s = (⟨.ok, sourceReplyFields s r⟩, s) := by
  rw [declareSourceAct, if_neg (by omega), hsource]
  exact if_pos hlen

theorem declareSourceAct_declares {p : List Byte} {r : Role} (s : State) (hlen : p.length = 4)
    (hsource : sourceAt (arg p 0 1) = some r) (hmark : arg p 1 1 = 0) : declareSourceAct p s =
      (⟨okOr (appliedRating r (arg p 2 2) != arg p 2 2),
          sourceReplyFields (declareSourceAt r (appliedRating r (arg p 2 2)) s) r⟩,
        declareSourceAt r (appliedRating r (arg p 2 2)) s) := by
  rw [declareSourceAct, if_neg (by omega), hsource]
  dsimp only
  rw [if_neg (by omega), if_pos hmark]

theorem declareSourceAct_removes {p : List Byte} {r : Role} (s : State) (hlen : p.length = 4)
    (hsource : sourceAt (arg p 0 1) = some r) (hmark : arg p 1 1 = 1) :
    declareSourceAct p s = (⟨.ok, sourceReplyFields (removeSourceAt r s) r⟩, removeSourceAt r s) := by
  rw [declareSourceAct, if_neg (by omega), hsource]
  dsimp only
  rw [if_neg (by omega), if_neg (by omega), if_pos hmark]

theorem declareSourceAct_badMark {p : List Byte} (s : State) (hlen : p.length = 4) (hmark : 1 < arg p 1 1) :
    declareSourceAct p s = refuse .outOfRange s := by
  cases hsource : sourceAt (arg p 0 1) with
  | none => exact declareSourceAct_outOfRange s (.inr hlen) hsource
  | some r =>
    rw [declareSourceAct, if_neg (by omega), hsource]
    dsimp only
    rw [if_neg (by omega), if_neg (by omega), if_neg (by omega)]

/-! ## The declaration (R21) -/

/-- A state in which a source is declared, before its record takes the rating. -/
def preparedSource (r : Role) (s : State) : State :=
  (if (s.device r.entry).declared then s else startSource r s).modDevice r.entry fun d => { d with declared := true }

theorem setDevice_self (s : State) (e : Entry) : s.setDevice e (s.device e) = s := by
  simp only [State.setDevice, State.device, Vector.set_getElem_self]

theorem setDevice_setDevice (s : State) (e : Entry) (x y : Device) : (s.setDevice e x).setDevice e y = s.setDevice e y := by
  simp only [State.setDevice, Vector.set_set]

/-- A source declared before keeps its records. -/
theorem preparedSource_declared {r : Role} {s : State} (h : (s.device r.entry).declared = true) : preparedSource r s = s := by
  have hsame : { s.device r.entry with declared := true } = s.device r.entry := by
    rw [← h]
  rw [preparedSource, if_pos h, State.modDevice, hsame, setDevice_self]

/-- A source not declared before starts from its reset values (R21). -/
theorem preparedSource_new {r : Role} {s : State} (h : (s.device r.entry).declared = false) : ∃ start gap,
    preparedSource r s =
      { clearSource r (s.setDevice r.entry { kind := resetKind r.entry, declared := true }) with
        flc := { (s.setDevice r.entry { kind := resetKind r.entry, declared := true }).flc with
          start := start, gapFrom := gap } } := by
  obtain ⟨start, gap, hjoin, -⟩ := joinPollList_eq r.entry (clearSource r (s.setDevice r.entry { kind := resetKind r.entry }))
  refine ⟨start, gap, ?_⟩
  rw [preparedSource, if_neg (by rw [h]; decide), startSource, hjoin]
  cases r <;>
    simp only [clearSource, State.modDevice, State.setDevice, State.device, State.setInverter, Vector.getElem_set_self,
      Vector.set_set]

/-- A prepared source: its device entry, and what is left outside FLC and AL's source records. -/
structure PreparedSource (r : Role) (s v : State) : Prop where
  device : v.device r.entry =
    if (s.device r.entry).declared then s.device r.entry else { kind := resetKind r.entry, declared := true }
  devices : ∀ e, e ≠ r.entry → v.device e = s.device e
  pass : SamePass s v
  sc : v.sc = s.sc
  bays : v.bays = s.bays
  st : v.st = s.st
  cs : v.cs = s.cs
  tc : v.tc = s.tc
  hp : v.hp = s.hp
  freeDraws : v.freeDraws = s.freeDraws
  share : v.al.share = s.al.share
  lastPass : v.al.lastPass = s.al.lastPass

/-- AL's source records are reset when a source is declared anew, and stay otherwise (R21). -/
theorem preparedSource_spec (r : Role) (s : State) : PreparedSource r s (preparedSource r s)
    ∧ (preparedSource r s).al = if (s.device r.entry).declared then s.al else (clearSource r s).al := by
  cases hdeclared : (s.device r.entry).declared with
  | true =>
    rw [preparedSource_declared hdeclared]
    exact ⟨⟨by rw [hdeclared]; rfl, fun _ _ => rfl, .refl s, rfl, rfl, rfl, rfl, rfl, rfl, rfl, rfl, rfl⟩, rfl⟩
  | false =>
    obtain ⟨start, gap, hnew⟩ := preparedSource_new hdeclared
    rw [hnew]
    have hal : (clearSource r (s.setDevice r.entry { kind := resetKind r.entry, declared := true })).al
        = (clearSource r s).al := by cases r <;> rfl
    refine ⟨⟨?_, fun e he => device_setDevice_ne _ _ he, ?_, ?_, ?_, ?_, ?_, ?_, ?_, ?_, ?_, ?_⟩, hal⟩
    · rw [hdeclared]
      exact device_setDevice_same _ _ _
    · cases r <;> exact ⟨rfl, rfl⟩
    all_goals cases r <;> rfl

/-- The source record of a role takes the rating (R21, R88, R89). -/
def ratedSource (r : Role) (rating : Nat) (was : Bool) (v : State) : State :=
  match r with
  | .canopy k => declareInverter k rating was v
  | .battery => declareBattery was v
  | .meter | .bay _ => v

theorem declareSourceAt_eq (r : Role) (rating : Nat) (s : State) : declareSourceAt r rating s =
    requestPass (ratedSource r rating (s.device r.entry).declared (preparedSource r s)) := by
  cases r <;> rfl

theorem sourceReplyFields_congr {s t : State} (r : Role) (hflc : t.flc = s.flc) (hresults : ResultsKept s t) :
    sourceReplyFields t r = sourceReplyFields s r := by
  obtain ⟨-, -, hinverters, hbattery, hload, -⟩ := hresults
  cases r <;> simp only [sourceReplyFields, sourceFields, State.device, State.inverter, hflc, hinverters, hbattery, hload]

/-- A state after an accepted declaration or removal of a source, completed: it is asked for a pass, and answers with its records. -/
structure SourceAnswered (r : Role) (f : List Byte) (st : Status) (s v t : State) : Prop where
  passed : Passed v t
  asked : PassRequested s t
  port : t.hp.port = answeredPort f st (sourceReplyFields t r) s

theorem source_answered {i : Instr} {f : List Byte} {s v : State} {r : Role} {st : Status} {act : State → Reply × State}
    (hp : PassSampled s) (h : Holds i f s) (hact : act s = (⟨st, sourceReplyFields (requestPass v) r⟩, requestPass v))
    (hsame : SamePass s v) (hdraws : v.freeDraws = s.freeDraws) :
    ∃ t, serve i act s = .next t ∧ SourceAnswered r f st s v t := by
  have hpassed := passed f ⟨st, sourceReplyFields (requestPass v) r⟩ v
  refine ⟨_, serve_completed h hact, hpassed, PassAsked.completed hp (requestPass_asked hsame), ?_⟩
  have hfields := sourceReplyFields_congr r hpassed.flc hpassed.results
  rw [completed_hp, answer_port _ _ s _ (by rw [requestPass_freeDraws]; exact hdraws), hfields,
    sourceReplyFields_congr r (requestPass_flc v) (requestPass_results v)]

theorem inverter_modInverter_same (s : State) (k : InverterId) (f : Inverter → Inverter) :
    (s.modInverter k f).inverter k = f (s.inverter k) := inverter_setInverter_same _ _ _

/-- The record of a canopy inverter after its declaration (R21, R88). -/
theorem ratedCanopy_record {s : State} (k : InverterId) (rating : Nat) :
    ((ratedSource (.canopy k) rating (s.device (Role.canopy k).entry).declared (preparedSource (.canopy k) s)).inverter k).rating
        = rating
      ∧ ((s.device (Role.canopy k).entry).declared = true → (s.inverter k).rating = rating →
        (ratedSource (.canopy k) rating (s.device (Role.canopy k).entry).declared (preparedSource (.canopy k) s)).inverter k
          = s.inverter k)
      ∧ ((s.device (Role.canopy k).entry).declared = false ∨ (s.inverter k).rating ≠ rating →
        ((ratedSource (.canopy k) rating (s.device (Role.canopy k).entry).declared
            (preparedSource (.canopy k) s)).inverter k).limit = rating
          ∧ ((ratedSource (.canopy k) rating (s.device (Role.canopy k).entry).declared
            (preparedSource (.canopy k) s)).inverter k).lastPower
            = if (s.device (Role.canopy k).entry).declared then min (s.inverter k).lastPower rating else 0) := by
  obtain ⟨-, hal⟩ := preparedSource_spec (.canopy k) s
  have hold : (preparedSource (.canopy k) s).inverter k =
      if (s.device (Role.canopy k).entry).declared then s.inverter k else {} := by
    rw [State.inverter, hal]
    split
    · rfl
    · exact inverter_setInverter_same s k {}
  rw [show ∀ was, (ratedSource (.canopy k) rating was (preparedSource (.canopy k) s)).inverter k = _ from
    fun was => inverter_modInverter_same _ _ _, hold]
  cases hdeclared : (s.device (Role.canopy k).entry).declared with
  | true =>
    simp only [if_true, true_and]
    split
    · next hsame =>
      exact ⟨hsame, fun _ _ => rfl, fun hne => absurd hsame (hne.resolve_left (by decide))⟩
    · next hne =>
      exact ⟨rfl, fun _ hsame => absurd hsame hne, fun _ => ⟨rfl, rfl⟩⟩
  | false =>
    simp only [Bool.false_eq_true, if_false, false_and]
    exact ⟨trivial, fun hf => hf.elim, fun _ => ⟨trivial, Nat.zero_min _⟩⟩

theorem ratedCanopy_ne {s : State} {k j : InverterId} (rating : Nat) (was : Bool) (hj : j ≠ k) :
    (ratedSource (.canopy k) rating was (preparedSource (.canopy k) s)).inverter j = s.inverter j := by
  obtain ⟨-, hal⟩ := preparedSource_spec (.canopy k) s
  refine (inverter_setInverter_ne _ _ hj).trans ?_
  rw [State.inverter, hal]
  split
  · rfl
  · exact inverter_setInverter_ne _ _ hj

/-- The records of a source leave what its preparation leaves. -/
theorem ratedSource_prepared (r : Role) (rating : Nat) (was : Bool) {s v : State} (h : PreparedSource r s v) :
    PreparedSource r s (ratedSource r rating was v) := by
  obtain ⟨hdevice, hdevices, hpass, hsc, hbays, hst, hcs, htc, hhp, hdraws, hshare, hlast⟩ := h
  cases r with
  | bay | meter | canopy => exact ⟨hdevice, hdevices, ⟨hpass.1, hpass.2⟩, hsc, hbays, hst, hcs, htc, hhp, hdraws, hshare, hlast⟩
  | battery =>
    unfold ratedSource declareBattery
    dsimp only
    split <;> exact ⟨hdevice, hdevices, ⟨hpass.1, hpass.2⟩, hsc, hbays, hst, hcs, htc, hhp, hdraws, hshare, hlast⟩

/-- What an accepted declaration of a source leaves besides the source's records. -/
structure SourceDeclared (r : Role) (f : List Byte) (st : Status) (s t : State) : Prop where
  device : t.device r.entry =
    if (s.device r.entry).declared then s.device r.entry else { kind := resetKind r.entry, declared := true }
  devices : ∀ e, e ≠ r.entry → t.device e = s.device e
  port : t.hp.port = answeredPort f st (sourceReplyFields t r) s
  asked : PassRequested s t
  share : t.al.share = s.al.share
  lastPass : t.al.lastPass = s.al.lastPass
  sc : t.sc = s.sc
  bays : t.bays = s.bays
  st : t.st = s.st
  cs : t.cs = s.cs
  tc : t.tc = s.tc
  notices : t.hp.notices = s.hp.notices

/-- A declaration of a source: the records that AL takes over are those of `ratedSource`. -/
theorem declareSource_declares {f p : List Byte} {s : State} {r : Role} (hp : PassSampled s)
    (h : Holds (.declareSource p) f s) (hlen : p.length = 4) (hsource : sourceAt (arg p 0 1) = some r)
    (hmark : arg p 1 1 = 0) : ∃ t, exec (.declareSource p) s = .next t
      ∧ SourceDeclared r f (okOr (appliedRating r (arg p 2 2) != arg p 2 2)) s t
      ∧ ResultsKept (ratedSource r (appliedRating r (arg p 2 2)) (s.device r.entry).declared (preparedSource r s)) t := by
  obtain ⟨hdevice, hdevices, hpass, hsc, hbays, hst, hcs, htc, hhp, hdraws, hshare, hlast⟩ :=
    ratedSource_prepared r (appliedRating r (arg p 2 2)) (s.device r.entry).declared (preparedSource_spec r s).1
  have hact := declareSourceAct_declares s hlen hsource hmark
  rw [declareSourceAt_eq] at hact
  obtain ⟨t, hexec, hpassed, hasked, hport⟩ := source_answered hp h hact hpass hdraws
  have hdev : ∀ e, t.device e = _ := fun e => congrArg (fun x : FieldLoop => x.devices[e.val]) hpassed.flc
  obtain ⟨hshare', -, -, -, -, hlast'⟩ := hpassed.results
  exact ⟨t, hexec, ⟨(hdev _).trans hdevice, fun e he => (hdev e).trans (hdevices e he), hport, hasked,
    hshare'.trans hshare, hlast'.trans hlast, hpassed.sc.trans hsc, hpassed.bays.trans hbays, hpassed.st.trans hst,
    hpassed.cs.trans hcs, hpassed.tc.trans htc, hpassed.notices.trans (by rw [hhp])⟩, hpassed.results⟩

/-! ## The removal (R17, R21, R38) -/

/-- A source whose entry and record are at their reset values, the reserve granted where the battery leaves it waiting (R17). -/
def removedSource (r : Role) (s : State) : State :=
  if r = .battery then grantReserve (clearSource r (clearDevice r.entry s)) else clearSource r (clearDevice r.entry s)

theorem removeSourceAt_eq {r : Role} {s : State} (h : (s.device r.entry).declared = true) :
    removeSourceAt r s = requestPass (removedSource r s) := if_pos h

/-- A removed source: its device entry, its exchange, and what is left. -/
structure RemovedSource (r : Role) (s v : State) : Prop where
  device : v.device r.entry = { kind := resetKind r.entry }
  devices : ∀ e, e ≠ r.entry → v.device e = s.device e
  exchange : v.flc.exchange = s.flc.exchange.markRemoved r.entry
  pass : SamePass s v
  bays : v.bays = s.bays
  st : v.st = s.st
  cs : v.cs = s.cs
  tc : v.tc = s.tc
  hp : v.hp = s.hp
  freeDraws : v.freeDraws = s.freeDraws
  al : v.al = (clearSource r s).al
  sc : v.sc = if r = .battery then { s.sc with reserve := if s.sc.reserve = .claimed then .granted else s.sc.reserve } else s.sc

theorem grantReserve_eq (s : State) : grantReserve s =
    { s with sc.reserve := if s.sc.reserve = .claimed then .granted else s.sc.reserve } := by
  unfold grantReserve
  split <;> rfl

theorem removedSource_spec (r : Role) (s : State) : RemovedSource r s (removedSource r s) := by
  obtain ⟨start, hcleared⟩ := clearDevice_eq r.entry s
  unfold removedSource
  rw [hcleared, grantReserve_eq]
  have hdevice := device_setDevice_same s r.entry { kind := resetKind r.entry }
  have hdevices : ∀ e, e ≠ r.entry → (s.setDevice r.entry { kind := resetKind r.entry }).device e = s.device e :=
    fun e he => device_setDevice_ne _ _ he
  cases r with
  | battery =>
    exact ⟨hdevice, hdevices, rfl, ⟨rfl, rfl⟩, rfl, rfl, rfl, rfl, rfl, rfl, rfl, rfl⟩
  | bay b =>
    simp only [reduceCtorEq, if_false]
    exact ⟨hdevice, hdevices, rfl, ⟨rfl, rfl⟩, rfl, rfl, rfl, rfl, rfl, rfl, rfl, rfl⟩
  | canopy k =>
    simp only [reduceCtorEq, if_false]
    exact ⟨hdevice, hdevices, rfl, ⟨rfl, rfl⟩, rfl, rfl, rfl, rfl, rfl, rfl, rfl, rfl⟩
  | meter =>
    simp only [reduceCtorEq, if_false]
    exact ⟨hdevice, hdevices, rfl, ⟨rfl, rfl⟩, rfl, rfl, rfl, rfl, rfl, rfl, rfl, rfl⟩

theorem okOr_rating (asked : Nat) : okOr (clamp 1 2000 asked != asked) =
    if max 1 (min 2000 asked) = asked then .ok else .okClamped := okOr_ne _ _

/-- The battery's record after its declaration (R21, R89). -/
theorem ratedBattery_record (rating : Nat) (s : State) :
    ((s.device Role.battery.entry).declared = false →
      (ratedSource .battery rating (s.device Role.battery.entry).declared (preparedSource .battery s)).al.battery.setpoint = 0
        ∧ (ratedSource .battery rating (s.device Role.battery.entry).declared (preparedSource .battery s)).al.battery.soe = 0
        ∧ (ratedSource .battery rating (s.device Role.battery.entry).declared (preparedSource .battery s)).al.battery.applied = 0)
      ∧ ((s.device Role.battery.entry).declared = true →
        (ratedSource .battery rating (s.device Role.battery.entry).declared (preparedSource .battery s)).al.battery
          = s.al.battery) := by
  obtain ⟨-, hal⟩ := preparedSource_spec .battery s
  refine ⟨fun hd => ?_, fun hd => ?_⟩
  · rw [hd] at hal ⊢
    simp only [ratedSource, declareBattery, Bool.false_eq_true, if_false] at hal ⊢
    rw [hal]
    exact ⟨trivial, rfl, rfl⟩
  · rw [hd] at hal ⊢
    simp only [ratedSource, declareBattery, if_true] at hal ⊢
    rw [hal]

/-- AL's records that the declaration of the battery or of the meter leaves. -/
theorem ratedSource_others {r : Role} (hr : r = .battery ∨ r = .meter) (rating : Nat) (was : Bool) (s : State) :
    (ratedSource r rating was (preparedSource r s)).al.inverters = s.al.inverters
      ∧ (r = .battery → (ratedSource r rating was (preparedSource r s)).al.storeLoad = s.al.storeLoad)
      ∧ (r = .meter → (ratedSource r rating was (preparedSource r s)).al.battery = s.al.battery
        ∧ (ratedSource r rating was (preparedSource r s)).al.storeLoad
          = if (s.device Role.meter.entry).declared then s.al.storeLoad else 0) := by
  obtain ⟨-, hal⟩ := preparedSource_spec r s
  rcases hr with rfl | rfl
  · have hkept : (ratedSource .battery rating was (preparedSource .battery s)).al.inverters
          = (preparedSource .battery s).al.inverters
        ∧ (ratedSource .battery rating was (preparedSource .battery s)).al.storeLoad
          = (preparedSource .battery s).al.storeLoad := by
      unfold ratedSource declareBattery
      dsimp only
      split <;> exact ⟨rfl, rfl⟩
    rw [hkept.1, hkept.2, hal]
    refine ⟨?_, fun _ => ?_, fun h => (by cases h)⟩ <;> split <;> rfl
  · refine ⟨?_, fun h => (by cases h), fun _ => ⟨?_, ?_⟩⟩ <;> simp only [ratedSource, hal] <;> split <;> rfl

/-- The records of a canopy inverter's declaration leave the battery's and the meter's. -/
theorem ratedCanopy_others (k : InverterId) (rating : Nat) (was : Bool) (s : State) :
    (ratedSource (.canopy k) rating was (preparedSource (.canopy k) s)).al.battery = s.al.battery
      ∧ (ratedSource (.canopy k) rating was (preparedSource (.canopy k) s)).al.storeLoad = s.al.storeLoad := by
  obtain ⟨-, hal⟩ := preparedSource_spec (.canopy k) s
  change (preparedSource (.canopy k) s).al.battery = _ ∧ (preparedSource (.canopy k) s).al.storeLoad = _
  rw [hal]
  split <;> exact ⟨rfl, rfl⟩

/-- Settles O17: an accepted declaration or removal writes the source's entry and record and asks for a pass; every other request
is a read or is refused. -/
theorem sourcesDeclaredAndRemoved : Obligations.SourcesDeclaredAndRemoved := by
  refine ⟨?_, ?_, ?_, ?_, ?_, ?_, ?_⟩
  · intro p f s hp h hlen hmark
    refine ⟨fun k hk => ?_, fun hbattery => ?_, fun hmeter => ?_⟩
    · intro rating entry
      obtain ⟨t, hexec, hd, hshare, hpermit, hinverters, hbattery, hload, hlast⟩ :=
        declareSource_declares (r := .canopy k) hp h hlen (by rw [hk]; exact sourceAt_canopy k) hmark
      have hinv : ∀ j, t.inverter j = _ := fun j => congrArg (fun x : Vector Inverter 6 => x[j.val]) hinverters
      obtain ⟨hrating, hkept, hnew⟩ := ratedCanopy_record (s := s) k rating
      obtain ⟨hb, hl⟩ := ratedCanopy_others k rating (s.device (Role.canopy k).entry).declared s
      have hrated : (t.inverter k).rating = rating := by
        rw [hinv]
        exact hrating
      have hreset : resetKind (Role.canopy k).entry = .canopy := by
        rw [resetKind, if_neg (by simp [Role.entry]), if_pos (by simp [Role.entry]; omega)]
      refine ⟨t, hexec, ?_, hd.devices, ?_, fun h1 h2 => ?_, fun h1 => ?_, fun j hj => ?_, ?_, hd.asked, hbattery.trans hb,
        hload.trans hl, hd.share, hd.lastPass, hd.sc, hd.bays, hd.st, hd.cs, hd.tc, hd.notices⟩
      · rw [← hreset]
        exact hd.device
      · exact hrated
      · rw [hinv]
        exact hkept h1 h2
      · rw [hinv]
        exact hnew h1
      · rw [hinv]
        exact ratedCanopy_ne _ _ hj
      · have hfields : sourceReplyFields t (.canopy k) =
            deviceFields (t.device entry) ++ [u2 rating, u2 (t.inverter k).lastPower, u2 (t.inverter k).limit] := by
          rw [sourceReplyFields, sourceFields, hrated]
          rfl
        rw [hd.port, hfields]
        exact congrArg (fun st => answeredPort f st _ s) (okOr_rating _)
    · obtain ⟨t, hexec, hd, hshare, hpermit, hinverters, hbat, hload, hlast⟩ :=
        declareSource_declares (r := .battery) hp h hlen (by rw [hbattery]; rfl) hmark
      obtain ⟨hnew, hkept⟩ := ratedBattery_record (arg p 2 2) s
      obtain ⟨hi, hl, -⟩ := ratedSource_others (.inl rfl) (arg p 2 2) (s.device Role.battery.entry).declared s
      refine ⟨t, hexec, hd.device, hd.devices, fun h1 => ?_, fun h1 => hbat.trans (hkept h1), ?_, hd.asked,
        hinverters.trans hi, hload.trans (hl rfl), hd.sc, hd.bays, hd.st, hd.cs, hd.tc, hd.notices⟩
      · rw [hbat]
        exact hnew h1
      · rw [hd.port, okOr_ne]
        exact congrArg (fun st => answeredPort f st _ s) (if_pos rfl)
    · obtain ⟨t, hexec, hd, hshare, hpermit, hinverters, hbat, hload, hlast⟩ :=
        declareSource_declares (r := .meter) hp h hlen (by rw [hmeter]; rfl) hmark
      obtain ⟨hi, -, hm⟩ := ratedSource_others (.inr rfl) (arg p 2 2) (s.device Role.meter.entry).declared s
      obtain ⟨hb, hl⟩ := hm rfl
      refine ⟨t, hexec, hd.device, hd.devices, hload.trans hl, ?_, hd.asked, hbat.trans hb, hinverters.trans hi, hd.share,
        hd.lastPass, hd.sc, hd.bays, hd.st, hd.cs, hd.tc, hd.notices⟩
      rw [hd.port, okOr_ne]
      exact congrArg (fun st => answeredPort f st _ s) (if_pos rfl)
  · intro p f r s hp h hlen hsource
    exact serve_unchanged hp h (declareSourceAct_read s hlen hsource)
  · intro p f s hp h
    exact ⟨fun h1 h4 => serve_refused hp h (declareSourceAct_badLength s h1 h4),
      fun hlen hsource => serve_refused hp h (declareSourceAct_outOfRange s hlen hsource),
      fun hlen hmark => serve_refused hp h (declareSourceAct_badMark s hlen hmark)⟩
  · exact fun a => ⟨sourceAt_none_iff a, sourceAt_canopy_iff a, sourceAt_battery_iff a, sourceAt_meter_iff a, sourceAt_ne_bay a⟩
  · intro p f s hp h hlen hsource
    exact serve_refused hp h (declareSourceAct_outOfRange s (.inr hlen) hsource)
  · intro p f r s hp h hlen hmark hsource hdeclared
    have hact := declareSourceAct_removes s hlen hsource hmark
    rw [show removeSourceAt r s = s from if_neg (by rw [hdeclared]; decide)] at hact
    exact serve_unchanged hp h hact
  · intro p f r s hp h hlen hmark hsource hdeclared
    have hact := declareSourceAct_removes s hlen hsource hmark
    rw [removeSourceAt_eq hdeclared] at hact
    obtain ⟨hdevice, hdevices, hexchange, hpass, hbays, hst, hcs, htc, hhp, hdraws, hal, hsc⟩ := removedSource_spec r s
    obtain ⟨t, hexec, hpassed, hasked, hport⟩ := source_answered hp h hact hpass hdraws
    obtain ⟨hshare, hpermit, hinverters, hbattery, hload, hlast⟩ := hpassed.results
    rw [hal] at hshare hpermit hinverters hbattery hload hlast
    have hdev : ∀ e, t.device e = _ := fun e => congrArg (fun x : FieldLoop => x.devices[e.val]) hpassed.flc
    have hinv : ∀ j, t.inverter j = _ := fun j => congrArg (fun x : Vector Inverter 6 => x[j.val]) hinverters
    have hsame : (clearSource r s).al.share = s.al.share ∧ (clearSource r s).al.lastPass = s.al.lastPass := by
      cases r <;> exact ⟨rfl, rfl⟩
    refine ⟨t, hexec, (hdev _).trans hdevice, fun e he => (hdev e).trans (hdevices e he),
      (congrArg FieldLoop.exchange hpassed.flc).trans hexchange, fun k hk => ?_, fun hr => ?_, fun hr => ?_, fun hr => ?_,
      fun hr => ?_, fun hr => ?_, hasked, hshare.trans hsame.1, hlast.trans hsame.2, hpassed.bays.trans hbays,
      hpassed.st.trans hst, hpassed.cs.trans hcs, hpassed.tc.trans htc, hpassed.notices.trans (by rw [hhp]), hport⟩
    · subst hk
      exact ⟨(hinv k).trans (inverter_setInverter_same s k {}), fun j hj => (hinv j).trans (inverter_setInverter_ne s {} hj)⟩
    · subst hr
      exact ⟨hbattery, by rw [hpassed.sc, hsc, if_pos rfl]⟩
    · subst hr
      exact hload
    · rw [hpassed.sc, hsc, if_neg hr, hbattery]
      refine ⟨?_, rfl⟩
      cases r with
      | battery => exact absurd rfl hr
      | bay | canopy | meter => rfl
    · rw [hload]
      cases r with
      | meter => exact absurd rfl hr
      | bay | canopy | battery => rfl
    · rw [hinverters]
      rcases hr with rfl | rfl <;> rfl

end Sys2Proof.Machine
end

section
/-! # SHED and RSV_REQ taken (R12, R14, R16, R89, R103, R104) -/

namespace Sys2Proof.Machine

/-! ## Pass requests before others (R69) -/

/-- AL's pass is as it was in s, or a pass has been asked for since. -/
def PassPrior (s t : State) : Prop := SamePass s t ∨ PassAsked s t

theorem PassPrior.refl (s : State) : PassPrior s s := .inl (.refl s)

theorem PassPrior.request {s t : State} (h : PassPrior s t) : PassAsked s (requestPass t) := by
  rcases h with h | h
  · exact requestPass_asked h
  · exact h.edits (requestPass_edits t)

/-- A write that leaves the gate and the fields of the pass. -/
theorem PassAsked.frame {s t u : State} (h : PassAsked s t) (hpart : passPart u = passPart t) : PassAsked s u := by
  simp only [passPart, Prod.mk.injEq] at hpart
  obtain ⟨hgate, hstate, hsnapshot, hagain, hpending, hrefresh⟩ := hpart
  unfold PassAsked at *
  rw [hgate, hstate, hsnapshot, hrefresh, hagain, hpending]
  exact h

theorem PassPrior.requestIf {s t : State} (h : PassPrior s t) (c : Bool) : PassPrior s (requestPassIf c t) := by
  cases c
  · exact h
  · exact .inr h.request

/-- A small edit but a pass request leaves the pass. -/
theorem PassPrior.setSlot {s t : State} (h : PassPrior s t) (k : SlotId) (x : Slot) : PassPrior s (t.setSlot k x) := by
  rcases h with h | h
  · exact .inl ⟨h.passState, h.snapshot⟩
  · exact .inr (h.edit (.slot t k x))

/-! ## One write of every slot, with a pass request where a run permit changes -/

/-- A fold leaves what each of its steps leaves. -/
theorem foldl_frame {α β : Type} {step : State → α → State} (f : State → β) (hf : ∀ t a, f (step t a) = f t) (l : List α)
    (s : State) : f (l.foldl step s) = f s := by
  induction l generalizing s with
  | nil => rfl
  | cons a l ih => exact (ih _).trans (hf s a)

/-- A slot is rewritten, with a pass request where its run permit changes (R102, R104). -/
def permitStep (g : Slot → Slot) (t : State) (k : SlotId) : State :=
  requestPassIf ((g (t.slot k)).runPermit != (t.slot k).runPermit) (t.setSlot k (g (t.slot k)))

/-- Slots rewritten one after the other. -/
def permitSweep (g : Slot → Slot) (l : List SlotId) (s : State) : State := l.foldl (permitStep g) s

theorem permitStep_slot (g : Slot → Slot) (t : State) (k : SlotId) : (permitStep g t k).slot k = g (t.slot k) := by
  simp [permitStep]

theorem permitStep_slot_ne (g : Slot → Slot) (t : State) {k j : SlotId} (h : j ≠ k) :
    (permitStep g t k).slot j = t.slot j := by
  simp [permitStep, slot_setSlot_ne t _ h]

theorem permitSweep_slot (g : Slot → Slot) {l : List SlotId} (hl : l.Nodup) (s : State) (j : SlotId) :
    (permitSweep g l s).slot j = if j ∈ l then g (s.slot j) else s.slot j := by
  induction l generalizing s with
  | nil => rfl
  | cons k l ih =>
    obtain ⟨hk, hl⟩ := List.nodup_cons.mp hl
    change (permitSweep g l (permitStep g s k)).slot j = _
    rw [ih hl]
    by_cases hj : j = k
    · subst hj
      rw [if_neg hk, permitStep_slot, if_pos (List.mem_cons_self ..)]
    · simp only [permitStep_slot_ne g s hj, List.mem_cons, hj, false_or]

theorem permitSweep_all (g : Slot → Slot) (s : State) (j : SlotId) :
    (permitSweep g (indices 64) s).slot j = g (s.slot j) := by
  have hnodup : (indices 64).Nodup := List.nodup_finRange 64
  have hmem : j ∈ indices 64 := List.mem_finRange j
  rw [permitSweep_slot g hnodup, if_pos hmem]

theorem permitSweep_edits (g : Slot → Slot) (l : List SlotId) (s : State) : Edits s (permitSweep g l s) :=
  foldl_edits _ (fun t k => (setSlot_edits t k _).trans (requestPassIf_edits _ _)) l s

/-- What a sweep of slots leaves besides what every chain of edits leaves. -/
structure SlotsAlone (s t : State) : Prop where
  bays : t.bays = s.bays
  cs : t.cs = s.cs
  hp : t.hp = s.hp
  queue : t.al.queue = s.al.queue
  sequence : t.st.sequence = s.st.sequence
  arrival : t.st.arrival = s.st.arrival

theorem SlotsAlone.refl (s : State) : SlotsAlone s s := ⟨rfl, rfl, rfl, rfl, rfl, rfl⟩

theorem SlotsAlone.trans {s t u : State} (h : SlotsAlone s t) (g : SlotsAlone t u) : SlotsAlone s u :=
  ⟨g.1.trans h.1, g.2.trans h.2, g.3.trans h.3, g.4.trans h.4, g.5.trans h.5, g.6.trans h.6⟩

theorem permitSweep_alone (g : Slot → Slot) (l : List SlotId) (s : State) : SlotsAlone s (permitSweep g l s) := by
  constructor
  · exact foldl_frame State.bays (fun t k => by simp [permitStep]) l s
  · exact foldl_frame State.cs (fun t k => by simp [permitStep]) l s
  · exact foldl_frame State.hp (fun t k => by simp [permitStep]) l s
  · exact foldl_frame (fun t => t.al.queue) (fun t k => by simp [permitStep]) l s
  · exact foldl_frame (fun t => t.st.sequence) (fun t k => by simp [permitStep]) l s
  · exact foldl_frame (fun t => t.st.arrival) (fun t k => by simp [permitStep]) l s

/-- A sweep that changes no run permit leaves AL. -/
theorem permitSweep_al {g : Slot → Slot} {l : List SlotId} (hl : l.Nodup) {s : State}
    (h : ∀ j ∈ l, (g (s.slot j)).runPermit = (s.slot j).runPermit) : (permitSweep g l s).al = s.al := by
  induction l generalizing s with
  | nil => rfl
  | cons k l ih =>
    obtain ⟨hk, hl⟩ := List.nodup_cons.mp hl
    have hstep : (permitStep g s k).al = s.al := by
      have hsame : ((g (s.slot k)).runPermit != (s.slot k).runPermit) = false := by
        rw [h k (List.mem_cons_self ..)]
        exact bne_self_eq_false _
      rw [permitStep, hsame]
      rfl
    refine (ih hl fun j hj => ?_).trans hstep
    have hjk : j ≠ k := fun he => hk (he ▸ hj)
    rw [permitStep_slot_ne g s hjk]
    exact h j (List.mem_cons_of_mem _ hj)

theorem PassPrior.sweep {s t : State} (h : PassPrior s t) (g : Slot → Slot) (l : List SlotId) :
    PassPrior s (permitSweep g l t) := by
  induction l generalizing t with
  | nil => exact h
  | cons k l ih => exact ih ((h.setSlot k _).requestIf _)

/-- A sweep that changes a run permit asks for a pass. -/
theorem permitSweep_asked {g : Slot → Slot} {l : List SlotId} (hl : l.Nodup) {s t : State} (hprior : PassPrior s t)
    (h : ∃ j ∈ l, (g (t.slot j)).runPermit ≠ (t.slot j).runPermit) : PassAsked s (permitSweep g l t) := by
  induction l generalizing t with
  | nil =>
    obtain ⟨j, hj, -⟩ := h
    cases hj
  | cons k l ih =>
    obtain ⟨hk, hl⟩ := List.nodup_cons.mp hl
    by_cases hchange : (g (t.slot k)).runPermit = (t.slot k).runPermit
    · refine ih hl ((hprior.setSlot k _).requestIf _) ?_
      obtain ⟨j, hj, hne⟩ := h
      rcases List.mem_cons.mp hj with rfl | hj
      · exact absurd hchange hne
      · have hjk : j ≠ k := fun he => hk (he ▸ hj)
        refine ⟨j, hj, ?_⟩
        rw [permitStep_slot_ne g t hjk]
        exact hne
    · have hstep : PassAsked s (permitStep g t k) := by
        have hne : ((g (t.slot k)).runPermit != (t.slot k).runPermit) = true := bne_iff_ne.mpr hchange
        rw [permitStep, hne]
        exact (hprior.setSlot k _).request
      exact hstep.edits (permitSweep_edits g l _)

/-! ## Shed onset and end (R103, R104) -/

/-- A slot after a shed onset of some classes (R103). -/
def onsetSlot (classes : SessionClass → Bool) (x : Slot) : Slot :=
  if (x.state = .waiting ∨ x.state = .charging) ∧ classes x.cls = true then
    { x with state := .suspended, suspendCause := some .shed, runPermit := false }
  else x

/-- A slot after a shed end of some classes under AUTO (R104). -/
def endSlot (classes : SessionClass → Bool) (x : Slot) : Slot :=
  if x.state = .suspended ∧ x.suspendCause = some .shed ∧ classes x.cls = true then
    { x with state := .waiting, suspendCause := none, runPermit := true }
  else x

theorem setSlot_self (s : State) (k : SlotId) : s.setSlot k (s.slot k) = s := by
  simp only [State.setSlot, State.slot, Vector.set_getElem_self]

theorem permitStep_same {g : Slot → Slot} {t : State} {k : SlotId} (h : g (t.slot k) = t.slot k) : permitStep g t k = t := by
  rw [permitStep, h, bne_self_eq_false, setSlot_self]
  rfl

theorem permitStep_suspends {g : Slot → Slot} {t : State} {k : SlotId} (cause : SuspendCause) (h : g (t.slot k) =
    { t.slot k with state := .suspended, suspendCause := some cause, runPermit := false }) :
    permitStep g t k = suspendSlot k cause t := by
  rw [permitStep, h, suspendSlot]
  cases (t.slot k).runPermit <;> rfl

theorem permitStep_resumes {g : Slot → Slot} {t : State} {k : SlotId} (h : g (t.slot k) =
    { t.slot k with state := .waiting, suspendCause := none, runPermit := true }) :
    permitStep g t k = resumeSlot k t := by
  rw [permitStep, h, resumeSlot]
  cases (t.slot k).runPermit <;> rfl

theorem shedOnset_eq (classes : SessionClass → Bool) (s : State) :
    shedOnset classes s = permitSweep (onsetSlot classes) (indices 64) s := by
  unfold shedOnset permitSweep
  congr 1
  funext t k
  by_cases hc : ((t.slot k).state = .waiting ∨ (t.slot k).state = .charging) ∧ classes (t.slot k).cls = true
  · rw [if_pos hc.1, if_pos hc.2]
    exact (permitStep_suspends .shed (if_pos hc)).symm
  · rw [permitStep_same (g := onsetSlot classes) (if_neg hc)]
    split
    · next hstate => exact if_neg fun hclass => hc ⟨hstate, hclass⟩
    · rfl

theorem shedEnd_eq (classes : SessionClass → Bool) (s : State) : shedEnd classes s =
    if s.sc.lines.resumeMode = .auto then permitSweep (endSlot classes) (indices 64) s else s := by
  unfold shedEnd
  split
  · next hmode => rw [hmode, if_neg (by decide)]
  · next hmode =>
    rw [hmode, if_pos rfl]
    unfold permitSweep
    congr 1
    funext t k
    split
    · next hc => exact (permitStep_resumes (if_pos hc)).symm
    · next hc => exact (permitStep_same (g := endSlot classes) (if_neg hc)).symm

/-- What a sweep of the slots that changes a slot by `g` leaves. -/
structure SlotsSwept (g : Slot → Slot) (s t : State) : Prop where
  slots : ∀ k, t.slot k = g (s.slot k)
  edits : Edits s t
  alone : SlotsAlone s t

theorem shedOnset_swept (classes : SessionClass → Bool) (s : State) :
    SlotsSwept (onsetSlot classes) s (shedOnset classes s) := by
  rw [shedOnset_eq]
  exact ⟨permitSweep_all _ s, permitSweep_edits _ _ s, permitSweep_alone _ _ s⟩

/-- A slot after a shed end of some classes under a resume mode (R104). -/
def endSlotUnder (mode : ResumeMode) (classes : SessionClass → Bool) (x : Slot) : Slot :=
  if mode = .auto then endSlot classes x else x

theorem shedEnd_swept (classes : SessionClass → Bool) (s : State) :
    SlotsSwept (endSlotUnder s.sc.lines.resumeMode classes) s (shedEnd classes s) := by
  rw [shedEnd_eq]
  unfold endSlotUnder
  split
  · exact ⟨permitSweep_all _ s, permitSweep_edits _ _ s, permitSweep_alone _ _ s⟩
  · exact ⟨fun _ => rfl, .refl s, .refl s⟩

/-- A slot after a line change of SHED. -/
def shedSlot (active : Bool) (lines : LineSettings) (x : Slot) : Slot :=
  if active then onsetSlot lines.scope.has x else endSlotUnder lines.resumeMode lines.scope.has x

theorem Counted.of_hp {k : NoticeKind} {a key : Nat} {s t u : State} (h : Counted k a key t u) (hhp : t.hp = s.hp) :
    Counted k a key s u := by
  have hnotice : ∀ j, t.notice j = s.notice j := fun j => by simp only [State.notice, hhp]
  simp only [Counted, hnotice] at h
  exact h

/-- A line change of SHED: the sessions, one LINE_CHANGE, and a pass request (R14). -/
structure ShedChanged (s t : State) : Prop where
  slots : ∀ k, t.slot k = shedSlot s.shedActive s.sc.lines (s.slot k)
  edits : Edits s t
  counted : Counted .lineChange 0 0 s t
  attn : t.hp.attn = t.attnDue
  asked : ∀ r, PassPrior r s → PassAsked r t
  bays : t.bays = s.bays
  cs : t.cs = s.cs
  queue : t.al.queue = s.al.queue
  sequence : t.st.sequence = s.st.sequence
  arrival : t.st.arrival = s.st.arrival

theorem shedChanged_spec (s : State) : ShedChanged s (shedChanged s) := by
  have hswept : SlotsSwept (shedSlot s.shedActive s.sc.lines) s
      (if s.shedActive then shedOnset s.sc.lines.scope.has s else shedEnd s.sc.lines.scope.has s) := by
    cases hactive : s.shedActive with
    | true => exact shedOnset_swept _ s
    | false => exact shedEnd_swept _ s
  have hprior : ∀ r, PassPrior r s →
      PassPrior r (if s.shedActive then shedOnset s.sc.lines.scope.has s else shedEnd s.sc.lines.scope.has s) := by
    intro r hr
    split
    · rw [shedOnset_eq]
      exact hr.sweep _ _
    · rw [shedEnd_eq]
      split
      · exact hr.sweep _ _
      · exact hr
  unfold shedChanged
  dsimp only
  generalize (if s.shedActive then shedOnset s.sc.lines.scope.has s else shedEnd s.sc.lines.scope.has s) = u at hswept hprior
  obtain ⟨hslots, hedits, hbays, hcs, hhp, hqueue, hsequence, harrival⟩ := hswept
  refine ⟨fun k => ?_, (hedits.trans (requestPass_edits u)).trans (countNotice_edits _ _ _ _), ?_, countNotice_attn _ _ _ _,
    fun r hr => (hprior r hr).request.edits (countNotice_edits _ _ _ _), ?_, ?_, ?_, ?_, ?_⟩
  · rw [countNotice_slot, requestPass_slot]
    exact hslots k
  · exact (counted_countNotice .lineChange 0 0 _).of_hp ((requestPass_hp u).trans hhp)
  · rw [countNotice_bays, requestPass_bays, hbays]
  · rw [countNotice_cs, requestPass_cs, hcs]
  · rw [countNotice_al, requestPass_queue, hqueue]
  · rw [countNotice_st, requestPass_st, hsequence]
  · rw [countNotice_st, requestPass_st, harrival]

/-! ## SHED taken (R12, R14) -/

theorem exec_linePinChange (line : Line) (level : Level) (s : State) :
    exec (.linePinChange line level) s = execLinePinChange line level s := rfl

theorem exec_lineQualified (line : Line) (s : State) : exec (.lineQualified line) s = execLineQualified line s := rfl

theorem qualified_of {p : Pin} {now : Nat} (hlevel : p.level ≠ p.taken) (hsince : p.since + 20 ≤ now) :
    p.qualified now = true := by
  simp [Pin.qualified, qualifyMillis, hlevel, hsince]

/-- A pin whose level differs from the level taken changes the line state when it is taken. -/
theorem taken_flips {p : Pin} (hlevel : p.level ≠ p.taken) (active : Level) : (p.level == active) = !(p.taken == active) := by
  cases hl : p.level <;> cases ht : p.taken
  · rw [hl, ht] at hlevel
    exact absurd rfl hlevel
  · cases active <;> rfl
  · cases active <;> rfl
  · rw [hl, ht] at hlevel
    exact absurd rfl hlevel

/-- Settles O14: a level change begins its time again; SHED taken is a line change, which sweeps the sessions. -/
theorem shedLineTaken : Obligations.ShedLineTaken := by
  refine ⟨fun level s hp => ⟨?_, ?_⟩, fun s hp hlevel hsince => ?_⟩
  · rw [exec_linePinChange]
    exact done_of_sampled (s := { s with sc.shedPin := s.sc.shedPin.moved level s.runTimer }) hp
  · rw [exec_linePinChange]
    exact done_of_sampled (s := { s with sc.rsvReqPin := s.sc.rsvReqPin.moved level s.runTimer }) hp
  · have hflips : State.shedActive { s with sc.shedPin := { s.sc.shedPin with taken := s.sc.shedPin.level } }
        = !s.shedActive := taken_flips hlevel s.sc.lines.shedActive
    have htaken : takeShedLevel s =
        shedChanged { s with sc.shedPin := { s.sc.shedPin with taken := s.sc.shedPin.level } } := by
      refine if_neg ?_
      rw [hflips]
      cases s.shedActive <;> decide
    obtain ⟨hslots, hedits, hcounted, hattn, hasked, hbays, hcs, -, -, -⟩ :=
      shedChanged_spec { s with sc.shedPin := { s.sc.shedPin with taken := s.sc.shedPin.level } }
    have hexec : exec (.lineQualified .shed) s =
        .next (completed (shedChanged { s with sc.shedPin := { s.sc.shedPin with taken := s.sc.shedPin.level } })) := by
      rw [exec_lineQualified, ← htaken]
      exact if_pos (qualified_of hlevel hsince)
    have hsame := hedits.untouched
    refine ⟨_, hexec, (completed_sc _).trans hsame.sc, ?_, fun k => ?_, ?_, PassAsked.completed hp (hasked s (.inl ⟨rfl, rfl⟩)),
      ResultsKept.completed ?_, ?_, ?_, (completed_flc _).trans hsame.flc, (completed_bays _).trans hbays,
      (completed_cs _).trans hcs, (completed_tc _).trans hsame.tc, (completed_runTimer _).trans hsame.runTimer,
      (completed_pending _).trans hsame.pending⟩
    · rw [completed_shedActive, ← hflips, State.shedActive, hsame.sc]
      rfl
    · rw [completed_slot, hslots, hflips]
      change shedSlot (!s.shedActive) s.sc.lines (s.slot k) = _
      unfold shedSlot endSlotUnder onsetSlot endSlot
      cases s.shedActive with
      | false => simp only [Bool.not_false, if_true, true_and, Bool.false_eq_true, false_and, if_false]
      | true =>
        simp only [Bool.not_true, Bool.false_eq_true, if_false, false_and, true_and, Bool.true_eq_false]
        split
        · next hmode => simp only [hmode, true_and]
        · next hmode => simp only [hmode, false_and, if_false]
    · exact Counted.completed (hcounted.of_hp rfl)
    · exact hsame.results
    · rw [completed_hp, completed_attnDue]
      exact hattn
    · rw [completed_hp]
      exact hsame.port

/-! ## RSV_REQ taken (R16, R89) -/

/-- The reserve after a claim, by what it was and whether there is a battery to wait for (R16). -/
def claimedReserve (absent : Bool) (r : Reserve) : Reserve :=
  if absent then (if r = .free ∨ r = .claimed then .granted else r) else (if r = .free then .claimed else r)

/-- The state of a claim before its pass request. -/
def claimedState (s : State) : State :=
  { s with
    sc := { s.sc with reserve := claimedReserve s.batteryAbsent s.sc.reserve }
    al := { s.al with battery := { s.al.battery with
      setpoint := 0, fresh := s.al.battery.fresh || s.al.passState == .running } } }

theorem claimReserve_eq (s : State) :
    claimReserve s = countNotice .lineChange 1 0 (requestPass (claimedState s)) := by
  have hstate : (if s.batteryAbsent then
        grantReserve (zeroSetpoint (if s.sc.reserve = .free then { s with sc.reserve := .claimed } else s))
      else zeroSetpoint (if s.sc.reserve = .free then { s with sc.reserve := .claimed } else s)) = claimedState s := by
    unfold claimedState claimedReserve
    cases s.batteryAbsent with
    | true =>
      simp only [if_true, grantReserve_eq]
      by_cases hfree : s.sc.reserve = .free
      · simp only [hfree, if_true, true_or]
        rfl
      · simp only [hfree, if_false, false_or]
        rfl
    | false =>
      simp only [Bool.false_eq_true, if_false]
      by_cases hfree : s.sc.reserve = .free
      · simp only [hfree, if_true]
        rfl
      · simp only [hfree, if_false]
        rfl
  unfold claimReserve
  dsimp only
  rw [hstate]

/-- The state of a line change of RSV_REQ before its pass request (R16). -/
def rsvReqState (s : State) : State := if s.rsvReqActive then claimedState s else { s with sc.reserve := .free }

theorem rsvReqChanged_eq (s : State) :
    rsvReqChanged s = countNotice .lineChange 1 0 (requestPass (rsvReqState s)) := by
  unfold rsvReqChanged rsvReqState
  split
  · exact claimReserve_eq s
  · rfl

theorem rsvReqState_pass {r s : State} (h : PassPrior r s) : PassPrior r (rsvReqState s) := by
  have hpart : passPart (rsvReqState s) = passPart s := by
    unfold rsvReqState
    split <;> rfl
  rcases h with h | h
  · refine .inl ?_
    unfold rsvReqState
    split <;> exact ⟨h.passState, h.snapshot⟩
  · exact .inr (h.frame hpart)

/-- A line change of RSV_REQ: the reserve and the setpoint held, one LINE_CHANGE, and a pass request. -/
structure RsvReqChanged (s t : State) : Prop where
  sc : t.sc = (rsvReqState s).sc
  battery : t.al.battery = (rsvReqState s).al.battery
  counted : Counted .lineChange 1 0 s t
  attn : t.hp.attn = t.attnDue
  asked : ∀ r, PassPrior r s → PassAsked r t
  port : t.hp.port = s.hp.port ∧ t.hp.dropped = s.hp.dropped ∧ t.hp.miso = s.hp.miso
  results : t.al.share = s.al.share ∧ t.al.permit = s.al.permit ∧ t.al.inverters = s.al.inverters
    ∧ t.al.storeLoad = s.al.storeLoad ∧ t.al.lastPass = s.al.lastPass
  queue : t.al.queue = s.al.queue
  flc : t.flc = s.flc
  bays : t.bays = s.bays
  st : t.st = s.st
  cs : t.cs = s.cs
  tc : t.tc = s.tc
  runTimer : t.runTimer = s.runTimer
  pending : t.pending = s.pending
  freeDraws : t.freeDraws = s.freeDraws

theorem rsvReqChanged_spec (s : State) : RsvReqChanged s (rsvReqChanged s) := by
  rw [rsvReqChanged_eq]
  have hedits := (requestPass_edits (rsvReqState s)).trans (countNotice_edits .lineChange 1 0 _)
  have hsame := hedits.untouched
  have hstate : ∀ {β : Type} (f : State → β), f (claimedState s) = f s → f { s with sc.reserve := .free } = f s →
      f (rsvReqState s) = f s := fun f hclaim hrelease => by
    unfold rsvReqState
    split
    · exact hclaim
    · exact hrelease
  refine ⟨hsame.sc, hsame.battery, ?_, countNotice_attn _ _ _ _,
    fun r hr => (rsvReqState_pass hr).request.edits (countNotice_edits _ _ _ _), ⟨?_, ?_, ?_⟩, ⟨?_, ?_, ?_, ?_, ?_⟩, ?_, ?_, ?_,
    ?_, ?_, ?_, ?_, ?_, ?_⟩
  · exact (counted_countNotice .lineChange 1 0 _).of_hp ((requestPass_hp _).trans (hstate State.hp rfl rfl))
  · exact hsame.port.trans (hstate (fun u => u.hp.port) rfl rfl)
  · exact hsame.dropped.trans (hstate (fun u => u.hp.dropped) rfl rfl)
  · exact hsame.miso.trans (hstate (fun u => u.hp.miso) rfl rfl)
  · exact hsame.share.trans (hstate (fun u => u.al.share) rfl rfl)
  · exact hsame.permit.trans (hstate (fun u => u.al.permit) rfl rfl)
  · exact hsame.inverters.trans (hstate (fun u => u.al.inverters) rfl rfl)
  · exact hsame.storeLoad.trans (hstate (fun u => u.al.storeLoad) rfl rfl)
  · exact hsame.lastPass.trans (hstate (fun u => u.al.lastPass) rfl rfl)
  · rw [countNotice_al, requestPass_queue]
    exact hstate (fun u => u.al.queue) rfl rfl
  · exact hsame.flc.trans (hstate State.flc rfl rfl)
  · rw [countNotice_bays, requestPass_bays]
    exact hstate State.bays rfl rfl
  · rw [countNotice_st, requestPass_st]
    exact hstate State.st rfl rfl
  · rw [countNotice_cs, requestPass_cs]
    exact hstate State.cs rfl rfl
  · exact hsame.tc.trans (hstate State.tc rfl rfl)
  · exact hsame.runTimer.trans (hstate State.runTimer rfl rfl)
  · exact hsame.pending.trans (hstate State.pending rfl rfl)
  · exact hsame.freeDraws.trans (hstate State.freeDraws rfl rfl)

/-- A reserve that is FREE is CLAIMED, and GRANTED at once where there is no battery to wait for (R16). -/
theorem claimedReserve_free (s : State) : claimedReserve s.batteryAbsent .free =
    if (s.device Role.battery.entry).declared = true ∧ (s.device Role.battery.entry).link = .online then .claimed
    else .granted := by
  unfold State.batteryAbsent
  generalize s.device Role.battery.entry = d
  cases hdeclared : d.declared with
  | false => simp [claimedReserve, hdeclared]
  | true => cases hlink : d.link <;> simp [claimedReserve, hdeclared, hlink]

/-- Settles O15: RSV_REQ taken claims or frees the reserve. -/
theorem reserveLineTaken : Obligations.ReserveLineTaken := by
  intro s hp hreserve hlevel hsince
  have hflips : State.rsvReqActive { s with sc.rsvReqPin := { s.sc.rsvReqPin with taken := s.sc.rsvReqPin.level } }
      = !s.rsvReqActive := taken_flips hlevel s.sc.lines.rsvReqActive
  have htaken : takeRsvReqLevel s =
      rsvReqChanged { s with sc.rsvReqPin := { s.sc.rsvReqPin with taken := s.sc.rsvReqPin.level } } := by
    refine if_neg ?_
    rw [hflips]
    cases s.rsvReqActive <;> decide
  have hexec : exec (.lineQualified .rsvReq) s =
      .next (completed (rsvReqChanged { s with sc.rsvReqPin := { s.sc.rsvReqPin with taken := s.sc.rsvReqPin.level } })) := by
    rw [exec_lineQualified, ← htaken]
    exact if_pos (qualified_of hlevel hsince)
  obtain ⟨hsc, hbattery, hcounted, hattn, hasked, hport, hresults, -, hflc, hbays, hst, hcs, htc, htimer, hpending, -⟩ :=
    rsvReqChanged_spec { s with sc.rsvReqPin := { s.sc.rsvReqPin with taken := s.sc.rsvReqPin.level } }
  obtain ⟨hshare, -, hinverters, -, hlast⟩ := hresults
  unfold rsvReqState at hsc hbattery
  rw [hflips] at hsc hbattery
  refine ⟨_, hexec, ?_, ?_, ?_, Counted.completed (hcounted.of_hp rfl), PassAsked.completed hp (hasked s (.inl ⟨rfl, rfl⟩)), ?_, ?_,
    (completed_share _).trans hshare, (completed_inverters _).trans hinverters, (completed_lastPass _).trans hlast,
    (completed_flc _).trans hflc, (completed_bays _).trans hbays, (completed_st _).trans hst, (completed_cs _).trans hcs,
    (completed_tc _).trans htc, (completed_runTimer _).trans htimer, (completed_pending _).trans hpending⟩
  · rw [completed_rsvReqActive, ← hflips, State.rsvReqActive, hsc]
    split <;> rfl
  · rw [completed_sc, hsc]
    cases hactive : s.rsvReqActive with
    | true => rfl
    | false =>
      have hfree : s.sc.reserve = .free := by
        by_contra hne
        rw [hreserve.1.mpr hne] at hactive
        cases hactive
      simp only [Bool.not_false, if_true, Bool.false_eq_true, if_false]
      rw [← claimedReserve_free s, ← hfree]
      rfl
  · rw [completed_battery, hbattery]
    cases s.rsvReqActive <;> rfl
  · rw [completed_hp, completed_attnDue]
    exact hattn
  · rw [completed_hp]
    exact hport.1

end Sys2Proof.Machine
end

section
/-! # LINES (R13 to R16, R103, R104, R108) -/

namespace Sys2Proof.Machine

/-! ## SHED after a LINES write (R13 to R15) -/

/-- A slot after a scope change while SHED is ACTIVE (R15). -/
def rescopedSlot (old : ShedScope) (lines : LineSettings) (x : Slot) : Slot :=
  endSlotUnder lines.resumeMode (old.without lines.scope) (onsetSlot (lines.scope.without old) x)

/-- A slot after the evaluation of SHED by new line settings. -/
def evaluatedSlot (was active : Bool) (old : ShedScope) (lines : LineSettings) (x : Slot) : Slot :=
  if active ≠ was then shedSlot active lines x else if active then rescopedSlot old lines x else x

/-- A session that joins the scope is in none that leave it. -/
theorem rescopedSlot_joins {old : ShedScope} {lines : LineSettings} {x : Slot} (h : lines.scope.without old x.cls = true) :
    rescopedSlot old lines x = onsetSlot (lines.scope.without old) x := by
  have hcls : (onsetSlot (lines.scope.without old) x).cls = x.cls := by
    unfold onsetSlot
    split <;> rfl
  have hstays : old.without lines.scope x.cls = false := by
    simp only [ShedScope.without, Bool.and_eq_true, Bool.not_eq_true'] at h ⊢
    simp [h.1]
  unfold rescopedSlot endSlotUnder
  split
  · refine if_neg ?_
    rw [hcls, hstays]
    simp
  · rfl

theorem rescopedSlot_cases (old : ShedScope) (lines : LineSettings) (x : Slot) :
    onsetSlot (lines.scope.without old) x = x ∨ rescopedSlot old lines x = onsetSlot (lines.scope.without old) x := by
  by_cases hjoins : lines.scope.without old x.cls = true
  · exact .inr (rescopedSlot_joins hjoins)
  · exact .inl (if_neg fun hc => hjoins hc.2)

theorem mem_slots (k : SlotId) : k ∈ indices 64 := List.mem_finRange k

/-- The evaluation of SHED after a LINES write, from the state v. -/
structure ShedEvaluated (was : Bool) (old : ShedScope) (v u : State) : Prop where
  slots : ∀ k, u.slot k = evaluatedSlot was v.shedActive old v.sc.lines (v.slot k)
  edits : Edits v u
  bays : u.bays = v.bays
  cs : u.cs = v.cs
  queue : u.al.queue = v.al.queue
  sequence : u.st.sequence = v.st.sequence
  arrival : u.st.arrival = v.st.arrival
  changed : v.shedActive ≠ was → Counted .lineChange 0 0 v u ∧ u.hp.attn = u.attnDue ∧ ∀ r, PassPrior r v → PassAsked r u
  hp : v.shedActive = was → u.hp = v.hp
  asked : v.shedActive = was → ∀ r, PassPrior r v → (∃ k, (u.slot k).runPermit ≠ (v.slot k).runPermit) → PassAsked r u
  al : v.shedActive = was → (∀ k, (u.slot k).runPermit = (v.slot k).runPermit) → u.al = v.al
  prior : ∀ r, PassPrior r v → PassPrior r u
  quiet : v.shedActive = was → v.shedActive = false → u = v

theorem shedEvaluated_changed {was : Bool} (old : ShedScope) {v : State} (h : v.shedActive ≠ was) :
    ShedEvaluated was old v (reevaluateShed was old v) := by
  obtain ⟨hslots, hedits, hcounted, hattn, hasked, hbays, hcs, hqueue, hsequence, harrival⟩ := shedChanged_spec v
  have heq : reevaluateShed was old v = shedChanged v := if_pos h
  rw [heq]
  exact ⟨fun k => (hslots k).trans (if_pos h).symm, hedits, hbays, hcs, hqueue, hsequence, harrival,
    fun _ => ⟨hcounted, hattn, hasked⟩, fun hsame => absurd hsame h, fun hsame => absurd hsame h, fun hsame => absurd hsame h,
    fun r hr => .inr (hasked r hr), fun hsame => absurd hsame h⟩

/-- The shed end is a sweep that leaves the pass but for a pass request. -/
theorem shedEnd_prior (classes : SessionClass → Bool) {r s : State} (h : PassPrior r s) : PassPrior r (shedEnd classes s) := by
  rw [shedEnd_eq]
  split
  · exact h.sweep _ _
  · exact h

theorem shedEnd_asked {classes : SessionClass → Bool} {r s : State} (h : PassPrior r s) {k : SlotId}
    (hk : (endSlotUnder s.sc.lines.resumeMode classes (s.slot k)).runPermit ≠ (s.slot k).runPermit) :
    PassAsked r (shedEnd classes s) := by
  have hnodup : (indices 64).Nodup := List.nodup_finRange 64
  rw [shedEnd_eq]
  unfold endSlotUnder at hk
  split
  · next hmode =>
    rw [if_pos hmode] at hk
    exact permitSweep_asked hnodup h ⟨k, mem_slots k, hk⟩
  · next hmode =>
    rw [if_neg hmode] at hk
    exact absurd rfl hk

theorem shedEnd_al {classes : SessionClass → Bool} {s : State}
    (h : ∀ k, (endSlotUnder s.sc.lines.resumeMode classes (s.slot k)).runPermit = (s.slot k).runPermit) :
    (shedEnd classes s).al = s.al := by
  have hnodup : (indices 64).Nodup := List.nodup_finRange 64
  rw [shedEnd_eq]
  unfold endSlotUnder at h
  split
  · next hmode =>
    refine permitSweep_al hnodup fun k _ => ?_
    have := h k
    rwa [if_pos hmode] at this
  · rfl

theorem shedEvaluated_rescoped {was : Bool} (old : ShedScope) {v : State} (hsame : v.shedActive = was)
    (hactive : v.shedActive = true) : ShedEvaluated was old v (reevaluateShed was old v) := by
  have heq : reevaluateShed was old v = scopeChanged old v :=
    (if_neg fun hne => hne hsame).trans (if_pos hactive)
  have hnodup : (indices 64).Nodup := List.nodup_finRange 64
  obtain ⟨hslots1, hedits1, halone1⟩ :=
    shedOnset_swept (v.sc.lines.scope.without old) v
  obtain ⟨hslots2, hedits2, halone2⟩ :=
    shedEnd_swept (old.without v.sc.lines.scope) (shedOnset (v.sc.lines.scope.without old) v)
  have hsc := hedits1.untouched.sc
  have hprior : ∀ r, PassPrior r v → PassPrior r (shedOnset (v.sc.lines.scope.without old) v) := fun r hr => by
    rw [shedOnset_eq]
    exact hr.sweep _ _
  have hslots : ∀ k, (scopeChanged old v).slot k = rescopedSlot old v.sc.lines (v.slot k) := fun k => by
    rw [scopeChanged, hslots2, hslots1, hsc]
    rfl
  have halone : SlotsAlone v (scopeChanged old v) := halone1.trans halone2
  rw [heq]
  refine ⟨fun k => ?_, hedits1.trans hedits2, halone.bays, halone.cs, halone.queue, halone.sequence, halone.arrival,
    fun hne => absurd hsame hne, fun _ => halone.hp,
    fun _ r hr hchange => ?_, fun _ hpermits => ?_, fun r hr => shedEnd_prior _ (hprior r hr),
    fun _ hinactive => ?_⟩
  · rw [hslots, evaluatedSlot, if_neg (fun hne => hne hsame), if_pos hactive]
  · obtain ⟨k, hk⟩ := hchange
    rw [hslots] at hk
    by_cases honset : (onsetSlot (v.sc.lines.scope.without old) (v.slot k)).runPermit = (v.slot k).runPermit
    · refine shedEnd_asked (k := k) (hprior r hr) ?_
      rw [hslots1, hsc, honset]
      exact hk
    · refine PassAsked.edits ?_ hedits2
      rw [shedOnset_eq]
      exact permitSweep_asked hnodup hr ⟨k, mem_slots k, honset⟩
  · have honset : ∀ k, (onsetSlot (v.sc.lines.scope.without old) (v.slot k)).runPermit = (v.slot k).runPermit := fun k => by
      have hk := hpermits k
      rw [hslots] at hk
      rcases rescopedSlot_cases old v.sc.lines (v.slot k) with hid | hid
      · rw [hid]
      · rw [← hid]
        exact hk
    have hal1 : (shedOnset (v.sc.lines.scope.without old) v).al = v.al := by
      rw [shedOnset_eq]
      exact permitSweep_al hnodup fun k _ => honset k
    refine Eq.trans (shedEnd_al fun k => ?_) hal1
    have hk := hpermits k
    rw [hslots] at hk
    rw [hslots1, hsc, honset]
    exact hk
  · rw [hactive] at hinactive
    cases hinactive

theorem shedEvaluated (was : Bool) (old : ShedScope) (v : State) : ShedEvaluated was old v (reevaluateShed was old v) := by
  by_cases hsame : v.shedActive = was
  · cases hactive : v.shedActive with
    | true => exact shedEvaluated_rescoped old hsame hactive
    | false =>
      have heq : reevaluateShed was old v = v := by
        refine (if_neg fun hne => hne hsame).trans (if_neg ?_)
        rw [hactive]
        decide
      rw [heq]
      refine ⟨fun k => ?_, .refl v, rfl, rfl, rfl, rfl, rfl, fun hne => absurd hsame hne, fun _ => rfl, fun _ r _ hchange => ?_,
        fun _ _ => rfl, fun r hr => hr, fun _ _ => rfl⟩
      · have hwas : was = false := by rw [← hsame, hactive]
        rw [hactive, hwas]
        exact (if_neg fun hne => hne rfl).symm
      · obtain ⟨k, hk⟩ := hchange
        exact absurd rfl hk
  · exact shedEvaluated_changed old hsame

/-! ## Both lines after a LINES write (R13, R14, R16) -/

/-- The state in which a LINES write has replaced the settings. -/
def linesSet (new : LineSettings) (s : State) : State := { s with sc.lines := new }

/-- What an accepted LINES write makes of the state, in either order of its line changes. -/
structure LinesApplied (new : LineSettings) (s u : State) : Prop where
  sc : u.sc = { s.sc with lines := new, reserve := u.sc.reserve }
  slots : ∀ k, u.slot k = evaluatedSlot s.shedActive (linesSet new s).shedActive s.sc.lines.scope new (s.slot k)
  reserveSame : (linesSet new s).rsvReqActive = s.rsvReqActive → u.sc.reserve = s.sc.reserve ∧ u.al.battery = s.al.battery
  claimed : (linesSet new s).rsvReqActive ≠ s.rsvReqActive → (linesSet new s).rsvReqActive = true →
    u.sc.reserve = claimedReserve s.batteryAbsent s.sc.reserve
      ∧ u.al.battery = { s.al.battery with setpoint := 0, fresh := u.al.battery.fresh }
  freed : (linesSet new s).rsvReqActive ≠ s.rsvReqActive → (linesSet new s).rsvReqActive = false →
    u.sc.reserve = .free ∧ u.al.battery = s.al.battery
  none : (linesSet new s).shedActive = s.shedActive → (linesSet new s).rsvReqActive = s.rsvReqActive → u.hp = s.hp
  shed : (linesSet new s).shedActive ≠ s.shedActive → (linesSet new s).rsvReqActive = s.rsvReqActive →
    Counted .lineChange 0 0 s u ∧ u.hp.attn = u.attnDue
  rsvReq : (linesSet new s).shedActive = s.shedActive → (linesSet new s).rsvReqActive ≠ s.rsvReqActive →
    Counted .lineChange 1 0 s u ∧ u.hp.attn = u.attnDue
  both : (linesSet new s).shedActive ≠ s.shedActive → (linesSet new s).rsvReqActive ≠ s.rsvReqActive →
    (∃ a, (a = 0 ∨ a = 1) ∧ u.notice .lineChange = { s.notice .lineChange with
        count := min 255 ((s.notice .lineChange).count + 2), argument := a, key := 0 })
      ∧ (∀ j, j ≠ .lineChange → u.notice j = s.notice j) ∧ u.hp.attn = u.attnDue
  asked : (linesSet new s).shedActive ≠ s.shedActive ∨ (linesSet new s).rsvReqActive ≠ s.rsvReqActive
    ∨ (∃ k, (u.slot k).runPermit ≠ (s.slot k).runPermit) → PassAsked s u
  al : (linesSet new s).shedActive = s.shedActive → (linesSet new s).rsvReqActive = s.rsvReqActive →
    (∀ k, (u.slot k).runPermit = (s.slot k).runPermit) → u.al = s.al
  quiet : (linesSet new s).shedActive = s.shedActive → (linesSet new s).rsvReqActive = s.rsvReqActive →
    s.shedActive = false → u = linesSet new s
  results : u.al.share = s.al.share ∧ u.al.permit = s.al.permit ∧ u.al.inverters = s.al.inverters
    ∧ u.al.storeLoad = s.al.storeLoad ∧ u.al.lastPass = s.al.lastPass
  queue : u.al.queue = s.al.queue
  counters : u.st.sequence = s.st.sequence ∧ u.st.arrival = s.st.arrival
  port : u.hp.dropped = s.hp.dropped ∧ u.hp.miso = s.hp.miso
  flc : u.flc = s.flc
  bays : u.bays = s.bays
  cs : u.cs = s.cs
  tc : u.tc = s.tc
  runTimer : u.runTimer = s.runTimer
  pending : u.pending = s.pending
  freeDraws : u.freeDraws = s.freeDraws

/-- Two occurrences of one notice kind in a row. -/
theorem Counted.twice {k : NoticeKind} {a b key : Nat} {s v u : State} (h : Counted k a key s v) (g : Counted k b key v u) :
    u.notice k = { s.notice k with count := min 255 ((s.notice k).count + 2), argument := b, key := key }
      ∧ ∀ j, j ≠ k → u.notice j = s.notice j := by
  obtain ⟨hk, hothers⟩ := h
  obtain ⟨gk, gothers⟩ := g
  refine ⟨?_, fun j hj => (gothers j hj).trans (hothers j hj)⟩
  rw [gk, hk]
  have hcount : min 255 (min 255 ((s.notice k).count + 1) + 1) = min 255 ((s.notice k).count + 2) := by omega
  simp only [hcount]

theorem rsvReqState_claims {v : State} (h : v.rsvReqActive = true) : rsvReqState v = claimedState v := if_pos h

theorem rsvReqState_frees {v : State} (h : v.rsvReqActive = false) : rsvReqState v = { v with sc.reserve := .free } :=
  if_neg (by rw [h]; decide)

/-- A line change of RSV_REQ writes the reserve alone in SC. -/
theorem RsvReqChanged.sc_eq {v u : State} (h : RsvReqChanged v u) : u.sc = { v.sc with reserve := u.sc.reserve } := by
  rw [h.sc]
  unfold rsvReqState
  split <;> rfl

/-- SHED first, then RSV_REQ, which may stay as it is. -/
theorem linesApplied_shedFirst (new : LineSettings) (s : State) : LinesApplied new s
    (reevaluateRsvReq s.rsvReqActive (reevaluateShed s.shedActive s.sc.lines.scope (linesSet new s))) := by
  have hshed := shedEvaluated s.shedActive s.sc.lines.scope (linesSet new s)
  generalize reevaluateShed s.shedActive s.sc.lines.scope (linesSet new s) = w at hshed
  obtain ⟨hslots, hedits, hbays, hcs, hqueue, hsequence, harrival, hchanged, hhp, hasked, hal, hprior, hquiet⟩ := hshed
  have hsame := hedits.untouched
  have hrsvsame : w.rsvReqActive = (linesSet new s).rsvReqActive := by simp only [State.rsvReqActive, hsame.sc]
  have hself : PassPrior s (linesSet new s) := .inl ⟨rfl, rfl⟩
  by_cases hrsv : (linesSet new s).rsvReqActive = s.rsvReqActive
  · have heq : reevaluateRsvReq s.rsvReqActive w = w := if_neg (by rw [hrsvsame]; exact fun hne => hne hrsv)
    rw [heq]
    refine ⟨?_, hslots, fun _ => ⟨?_, hsame.battery⟩, fun hne => absurd hrsv hne, fun hne => absurd hrsv hne,
      fun h _ => hhp h, fun h _ => ⟨((hchanged h).1).of_hp rfl, (hchanged h).2.1⟩, fun _ hne => absurd hrsv hne,
      fun _ hne => absurd hrsv hne, fun h => ?_, fun h1 _ h3 => hal h1 h3, fun h1 _ h3 => hquiet h1 (h1.trans h3),
      ⟨hsame.share, hsame.permit, hsame.inverters, hsame.storeLoad, hsame.lastPass⟩, hqueue, ⟨hsequence, harrival⟩,
      ⟨hsame.dropped, hsame.miso⟩, hsame.flc, hbays, hcs, hsame.tc, hsame.runTimer, hsame.pending, hsame.freeDraws⟩
    · rw [hsame.sc]
      rfl
    · rw [hsame.sc]
      rfl
    · by_cases hshedsame : (linesSet new s).shedActive = s.shedActive
      · exact hasked hshedsame s hself ((h.resolve_left fun hne => hne hshedsame).resolve_left fun hne => hne hrsv)
      · exact (hchanged hshedsame).2.2 s hself
  · have heq : reevaluateRsvReq s.rsvReqActive w = rsvReqChanged w := if_pos (by rw [hrsvsame]; exact hrsv)
    have hspec := rsvReqChanged_spec w
    have hsc := hspec.sc_eq
    rw [heq]
    generalize rsvReqChanged w = u at hspec hsc
    obtain ⟨hscstate, hbattery, hcounted, hattn, hpassed, ⟨hport, hdropped, hmiso⟩,
      ⟨hshare, hpermit, hinverters, hload, hlast⟩, huqueue, hflc, hubays, hst, hucs, htc, htimer, hpending, hdraws⟩ := hspec
    refine ⟨?_, fun k => ?_, fun h => absurd h hrsv, fun _ hactive => ?_, fun _ hactive => ?_, fun _ h => absurd h hrsv,
      fun _ h => absurd h hrsv, fun h _ => ⟨hcounted.of_hp (hhp h), hattn⟩, fun h _ => ?_, fun _ => hpassed s (hprior s hself),
      fun _ h => absurd h hrsv, fun _ h => absurd h hrsv,
      ⟨hshare.trans hsame.share, hpermit.trans hsame.permit, hinverters.trans hsame.inverters, hload.trans hsame.storeLoad,
        hlast.trans hsame.lastPass⟩, huqueue.trans hqueue, ⟨?_, ?_⟩, ⟨hdropped.trans hsame.dropped, hmiso.trans hsame.miso⟩,
      hflc.trans hsame.flc, hubays.trans hbays, hucs.trans hcs, htc.trans hsame.tc, htimer.trans hsame.runTimer,
      hpending.trans hsame.pending, hdraws.trans hsame.freeDraws⟩
    · rw [hsc, hsame.sc]
      rfl
    · rw [State.slot, hst]
      exact hslots k
    · rw [rsvReqState_claims (hrsvsame.trans hactive)] at hscstate hbattery
      refine ⟨?_, ?_⟩
      · rw [hscstate]
        change claimedReserve w.batteryAbsent w.sc.reserve = _
        rw [State.batteryAbsent, State.device, hsame.flc, hsame.sc]
        rfl
      · rw [hbattery]
        simp only [claimedState, hsame.battery]
        rfl
    · rw [rsvReqState_frees (hrsvsame.trans hactive)] at hscstate hbattery
      exact ⟨by rw [hscstate], hbattery.trans hsame.battery⟩
    · obtain ⟨hnotice, hothers⟩ := ((hchanged h).1.of_hp (s := s) rfl).twice hcounted
      exact ⟨⟨1, .inr rfl, hnotice⟩, hothers, hattn⟩
    · rw [hst]
      exact hsequence
    · rw [hst]
      exact harrival

/-- RSV_REQ first, where both lines change. -/
theorem linesApplied_rsvFirst (new : LineSettings) (s : State) (hshed : (linesSet new s).shedActive ≠ s.shedActive)
    (hrsv : (linesSet new s).rsvReqActive ≠ s.rsvReqActive) : LinesApplied new s
      (reevaluateShed s.shedActive s.sc.lines.scope (reevaluateRsvReq s.rsvReqActive (linesSet new s))) := by
  have heq : reevaluateRsvReq s.rsvReqActive (linesSet new s) = rsvReqChanged (linesSet new s) := if_pos hrsv
  have hspec := rsvReqChanged_spec (linesSet new s)
  have hsc := hspec.sc_eq
  rw [heq]
  generalize rsvReqChanged (linesSet new s) = w at hspec hsc
  obtain ⟨hscstate, hbattery, hcounted, hattn, hpassed, ⟨hport, hdropped, hmiso⟩, ⟨hshare, hpermit, hinverters, hload, hlast⟩,
    hwqueue, hflc, hwbays, hst, hwcs, htc, htimer, hpending, hdraws⟩ := hspec
  have hactive : w.shedActive = (linesSet new s).shedActive := by
    simp only [State.shedActive]
    rw [hsc]
  obtain ⟨hslots, hedits, hbays, hcs, hqueue, hsequence, harrival, hchanged, -, -, -, -, -⟩ :=
    shedEvaluated s.shedActive s.sc.lines.scope w
  have hsame := hedits.untouched
  obtain ⟨hshedcounted, hshedattn, hshedasked⟩ := hchanged (by rw [hactive]; exact hshed)
  generalize reevaluateShed s.shedActive s.sc.lines.scope w = u at *
  have hprior : PassPrior s w := .inr (hpassed s (.inl ⟨rfl, rfl⟩))
  refine ⟨?_, fun k => ?_, fun h => absurd h hrsv, fun _ hclaims => ?_, fun _ hfrees => ?_, fun h => absurd h hshed,
    fun _ h => absurd h hrsv, fun h => absurd h hshed, fun _ _ => ?_, fun _ => hshedasked s hprior, fun h => absurd h hshed,
    fun h => absurd h hshed, ⟨hsame.share.trans hshare, hsame.permit.trans hpermit, hsame.inverters.trans hinverters,
      hsame.storeLoad.trans hload, hsame.lastPass.trans hlast⟩, hqueue.trans hwqueue, ⟨?_, ?_⟩,
    ⟨hsame.dropped.trans hdropped, hsame.miso.trans hmiso⟩, hsame.flc.trans hflc, hbays.trans hwbays, hcs.trans hwcs,
    hsame.tc.trans htc, hsame.runTimer.trans htimer, hsame.pending.trans hpending, hsame.freeDraws.trans hdraws⟩
  · rw [hsame.sc, hsc]
    rfl
  · rw [hslots, hactive, hsc, State.slot, hst]
    rfl
  · rw [rsvReqState_claims hclaims] at hscstate hbattery
    refine ⟨?_, ?_⟩
    · rw [hsame.sc, hscstate]
      rfl
    · rw [hsame.battery, hbattery]
      rfl
  · rw [rsvReqState_frees hfrees] at hscstate hbattery
    exact ⟨by rw [hsame.sc, hscstate], hsame.battery.trans hbattery⟩
  · obtain ⟨hnotice, hothers⟩ := (hcounted.of_hp (s := s) rfl).twice hshedcounted
    exact ⟨⟨0, .inl rfl, hnotice⟩, hothers, hshedattn⟩
  · rw [hsequence, hst]
    rfl
  · rw [harrival, hst]
    rfl

theorem freeOrder_pair {α : Type} (draw : Nat) (a b : α) : freeOrder draw [a, b] = [a, b] ∨ freeOrder draw [a, b] = [b, a] :=
  List.perm_pair.mp (freeOrder_perm draw [a, b])

theorem linesApplied_applyLines (new : LineSettings) (s : State) : LinesApplied new s (applyLines new s) := by
  unfold applyLines
  dsimp only
  split
  · next hboth =>
    obtain ⟨hshed, hrsv⟩ := hboth
    rcases freeOrder_pair s.freeDraws Line.shed Line.rsvReq with horder | horder
    · rw [horder]
      exact linesApplied_shedFirst new s
    · rw [horder]
      exact linesApplied_rsvFirst new s hshed hrsv
  · exact linesApplied_shedFirst new s

/-! ## The request LINES (R13) -/

theorem exec_lines (p : List Byte) (s : State) : exec (.lines p) s = serve (.lines p) (linesAct p) s := rfl

theorem linesAct_badLength {p : List Byte} (s : State) (hlen : p.length ≠ 5) :
    linesAct p s = settingsReply (if p.length = 0 then .ok else .badRequest) linesFields s :=
  settings_badLength hlen _ _ _

/-- A level of a LINES, of a byte within its set (R180). -/
def levelFrom (n : Nat) : Level := if n = 0 then .high else .low

/-- The settings of a LINES whose fields are within their sets. -/
def linesFrom (p : List Byte) : LineSettings where
  shedActive := levelFrom (arg p 0 1)
  rsvReqActive := levelFrom (arg p 1 1)
  rsvAckActive := levelFrom (arg p 2 1)
  scope := ⟨(arg p 3 1).testBit 0, (arg p 3 1).testBit 1, (arg p 3 1).testBit 2⟩
  resumeMode := if arg p 4 1 = 0 then .auto else .commanded

theorem levelOf_good {n : Nat} (h : n ≤ 1) : levelOf n = some (levelFrom n) := by
  interval_cases n <;> rfl

theorem levelOf_bad {n : Nat} (h : 1 < n) : levelOf n = none := by
  unfold levelOf
  split
  · omega
  · omega
  · rfl

theorem resumeModeOf_good {n : Nat} (h : n ≤ 1) : resumeModeOf n = some (if n = 0 then .auto else .commanded) := by
  interval_cases n <;> rfl

theorem resumeModeOf_bad {n : Nat} (h : 1 < n) : resumeModeOf n = none := by
  unfold resumeModeOf
  split
  · omega
  · omega
  · rfl

theorem linesAsked_good {p : List Byte} (h0 : arg p 0 1 ≤ 1) (h1 : arg p 1 1 ≤ 1) (h2 : arg p 2 1 ≤ 1) (h3 : arg p 3 1 ≤ 7)
    (h4 : arg p 4 1 ≤ 1) : linesAsked p = some (linesFrom p) := by
  have hscope : scopeOf (arg p 3 1) = some (linesFrom p).scope := if_pos (by omega)
  rw [linesAsked, levelOf_good h0, levelOf_good h1, levelOf_good h2, hscope, resumeModeOf_good h4]
  rfl

theorem linesAsked_bad {p : List Byte}
    (h : 1 < arg p 0 1 ∨ 1 < arg p 1 1 ∨ 1 < arg p 2 1 ∨ 7 < arg p 3 1 ∨ 1 < arg p 4 1) : linesAsked p = none := by
  by_contra hsome
  obtain ⟨new, hnew⟩ := Option.ne_none_iff_exists'.mp hsome
  simp only [linesAsked, Option.bind_eq_bind, Option.bind_eq_some_iff] at hnew
  obtain ⟨shed, hshed, req, hreq, ack, hack, scope, hscope, mode, hmode, -⟩ := hnew
  rcases h with h | h | h | h | h
  · rw [levelOf_bad h] at hshed
    cases hshed
  · rw [levelOf_bad h] at hreq
    cases hreq
  · rw [levelOf_bad h] at hack
    cases hack
  · rw [scopeOf, if_neg (by omega)] at hscope
    cases hscope
  · rw [resumeModeOf_bad h] at hmode
    cases hmode

theorem linesAct_outOfRange {p : List Byte} (s : State) (hlen : p.length = 5) (hnone : linesAsked p = none) :
    linesAct p s = settingsReply .outOfRange linesFields s := by
  refine (settings_goodLength hlen (by decide) _ _ _).trans ?_
  rw [hnone]

theorem linesAct_applied {p : List Byte} {new : LineSettings} (s : State) (hlen : p.length = 5) (hnew : linesAsked p = some new) :
    linesAct p s = (⟨.ok, linesFields (applyLines new s)⟩, applyLines new s) := by
  refine (settings_goodLength hlen (by decide) _ _ _).trans ?_
  rw [hnew]

theorem levelCode_levelFrom {n : Nat} (h : n ≤ 1) : levelCode (levelFrom n) = n := by
  interval_cases n <;> rfl

theorem scopeBits_testBit {n : Nat} (h : n ≤ 7) : scopeBits ⟨n.testBit 0, n.testBit 1, n.testBit 2⟩ = n := by
  interval_cases n <;> rfl

theorem resumeMode_code {n : Nat} (h : n ≤ 1) :
    ResumeMode.code (if n = 0 then .auto else .commanded) = n := by
  interval_cases n <;> rfl

/-- The classes that join and leave what shed holds, where a LINES write brings SHED to `active`. -/
theorem evaluatedSlot_eq (was active : Bool) (old : ShedScope) (lines : LineSettings) (x : Slot) :
    evaluatedSlot was active old lines x =
      if (x.state = .waiting ∨ x.state = .charging)
          ∧ (active && lines.scope.has x.cls && !(was && old.has x.cls)) = true then
        { x with state := .suspended, suspendCause := some .shed, runPermit := false }
      else if x.state = .suspended ∧ x.suspendCause = some .shed ∧ lines.resumeMode = .auto
          ∧ (was && (if active then old.has x.cls && !lines.scope.has x.cls else lines.scope.has x.cls)) = true then
        { x with state := .waiting, suspendCause := none, runPermit := true }
      else x := by
  have hends : ∀ (classes : SessionClass → Bool), endSlotUnder lines.resumeMode classes x =
      if x.state = .suspended ∧ x.suspendCause = some .shed ∧ lines.resumeMode = .auto ∧ classes x.cls = true then
        { x with state := .waiting, suspendCause := none, runPermit := true }
      else x := fun classes => by
    unfold endSlotUnder endSlot
    by_cases hmode : lines.resumeMode = .auto
    · simp only [hmode, if_true, true_and]
    · simp only [hmode, if_false, false_and, and_false]
  cases was with
  | false =>
    cases active with
    | false => simp [evaluatedSlot]
    | true => simp [evaluatedSlot, shedSlot, onsetSlot]
  | true =>
    cases active with
    | false => simp [evaluatedSlot, shedSlot, hends]
    | true =>
      have hrescoped : evaluatedSlot true true old lines x = rescopedSlot old lines x :=
        (if_neg fun hne => hne rfl).trans (if_pos rfl)
      rw [hrescoped]
      simp only [Bool.true_and, if_true]
      by_cases hjoins : (x.state = .waiting ∨ x.state = .charging) ∧ lines.scope.without old x.cls = true
      · rw [rescopedSlot_joins hjoins.2]
        exact (if_pos hjoins).trans (if_pos hjoins).symm
      · have hstays : onsetSlot (lines.scope.without old) x = x := if_neg hjoins
        rw [rescopedSlot, hstays, hends]
        exact (if_neg hjoins).symm

/-- Settles O13: the checks of R13, then the two line states in either order. -/
theorem linesApplied : Obligations.LinesApplied := by
  intro p f s hp h fields
  refine ⟨fun hlen => (exec_lines p s).trans (serve_settings hp h (linesAct_badLength s hlen)), fun hlen hbad =>
    (exec_lines p s).trans (serve_unchanged hp h (linesAct_outOfRange s hlen (linesAsked_bad hbad))), ?_⟩
  intro hlen h0 h1 h2 h3 h4 level new shed old joined left
  have hnew : linesAsked p = some new := linesAsked_good h0 h1 h2 h3 h4
  obtain ⟨hsc, hslots, hreserve, hclaimed, hfreed, hnone, hshedonly, hrsvonly, hboth, hasked, hal, hquiet, hresults, hqueue,
    hcounters, hport, hflc, hbays, hcs, htc, htimer, hpending, hdraws⟩ := linesApplied_applyLines new s
  have hact := linesAct_applied s hlen hnew
  generalize applyLines new s = u at *
  have hfields : linesFields u = [u1 (arg p 0 1), u1 (arg p 1 1), u1 (arg p 2 1), u1 (arg p 3 1), u1 (arg p 4 1),
      flag u.shedActive, flag u.rsvReqActive, flag u.rsvAck] := by
    have hlines : u.sc.lines = linesFrom p := by rw [hsc]; rfl
    simp only [linesFields, hlines, linesFrom, levelCode_levelFrom h0, levelCode_levelFrom h1, levelCode_levelFrom h2,
      scopeBits_testBit h3, resumeMode_code h4]
  have hshed : u.shedActive = (linesSet new s).shedActive := by rw [State.shedActive, hsc]; rfl
  have hrsv : u.rsvReqActive = (linesSet new s).rsvReqActive := by rw [State.rsvReqActive, hsc]; rfl
  have hexec := (exec_lines p s).trans (serve_completed h hact)
  have htport : (completed (answer f ⟨.ok, linesFields u⟩ u)).hp.port = answeredPort f .ok (linesFields u) s := by
    rw [completed_hp]
    exact answer_port f ⟨.ok, linesFields u⟩ s u hdraws
  have htsame : u.al = s.al → completed (answer f ⟨.ok, linesFields u⟩ u)
      = { answer f ⟨.ok, linesFields u⟩ u with freeDraws := u.freeDraws + 1 } := fun h => completed_of_same hp h
  have htasked : PassAsked s u → PassRequested s (completed (answer f ⟨.ok, linesFields u⟩ u)) := fun h =>
    PassAsked.completed hp h
  have htcounted : ∀ {a}, Counted .lineChange a 0 s u →
      Counted .lineChange a 0 s (completed (answer f ⟨.ok, linesFields u⟩ u)) := fun h => Counted.completed h
  have htshed : (completed (answer f ⟨.ok, linesFields u⟩ u)).shedActive = (linesSet new s).shedActive :=
    (completed_shedActive _).trans hshed
  have htrsv : (completed (answer f ⟨.ok, linesFields u⟩ u)).rsvReqActive = (linesSet new s).rsvReqActive :=
    (completed_rsvReqActive _).trans hrsv
  have htslot : ∀ k, (completed (answer f ⟨.ok, linesFields u⟩ u)).slot k = u.slot k := completed_slot _
  have htsc : (completed (answer f ⟨.ok, linesFields u⟩ u)).sc = u.sc := completed_sc _
  have htbattery : (completed (answer f ⟨.ok, linesFields u⟩ u)).al.battery = u.al.battery := completed_battery _
  refine ⟨_, hexec, ?_, htshed, ?_, ?_, ?_, ?_, ?_, ?_, ?_, ?_, ?_, ?_, ?_, ?_, ?_, ?_⟩
  · rw [htsc]
    exact hsc
  · rw [htrsv]
    exact beq_iff_eq
  · rw [htport, State.rsvAck, htsc, htshed, htrsv, ← hshed, ← hrsv]
    exact congrArg (fun fs => answeredPort f .ok fs s) hfields
  · rw [State.rsvAck, htsc, htshed, htrsv]
    intro hshedsame hrsvsame hinactive
    have hset := hquiet hshedsame hrsvsame hinactive
    rw [htsame (by rw [hset]; rfl), hfields, hset]
    rfl
  · intro k
    rw [htslot]
    exact (hslots k).trans (evaluatedSlot_eq _ _ _ _ _)
  · rw [htrsv, htsc, htbattery]
    exact hreserve
  · rw [htrsv, htsc, htbattery]
    intro hinv hinactive hactive
    have hne : (linesSet new s).rsvReqActive ≠ s.rsvReqActive := by rw [hinactive, hactive]; decide
    have hfree : s.sc.reserve = .free := by
      by_contra hres
      rw [hinv.1.mpr hres] at hinactive
      cases hinactive
    obtain ⟨hres, hbattery⟩ := hclaimed hne hactive
    refine ⟨?_, hbattery⟩
    rw [hres, hfree]
    exact claimedReserve_free s
  · rw [htrsv, htsc, htbattery]
    exact fun hactive hinactive => hfreed (by rw [hinactive, hactive]; decide) hinactive
  · rw [htshed, htrsv, completed_hp, answer_notices, answer_attn]
    intro hshedsame hrsvsame
    rw [hnone hshedsame hrsvsame]
    exact ⟨rfl, rfl⟩
  · rw [htshed, htrsv, completed_hp, completed_attnDue]
    intro hshedne hrsvsame
    obtain ⟨hc, ha⟩ := hshedonly hshedne hrsvsame
    exact ⟨htcounted hc, ha⟩
  · rw [htshed, htrsv, completed_hp, completed_attnDue]
    intro hshedsame hrsvne
    obtain ⟨hc, ha⟩ := hrsvonly hshedsame hrsvne
    exact ⟨htcounted hc, ha⟩
  · rw [htshed, htrsv, completed_hp, completed_attnDue]
    simp only [completed_notice]
    exact hboth
  · rw [htshed, htrsv]
    simp only [htslot]
    exact fun hchange => htasked (hasked hchange)
  · rw [htshed, htrsv]
    simp only [htslot]
    intro hshedsame hrsvsame hpermits
    have hsameal := hal hshedsame hrsvsame hpermits
    rw [htsame hsameal]
    exact hsameal
  · obtain ⟨hshare, hpermit, hinverters, hload, hlast⟩ := hresults
    obtain ⟨hsequence, harrival⟩ := hcounters
    obtain ⟨hdropped, hmiso⟩ := hport
    refine ⟨(completed_share _).trans hshare, (completed_permit _).trans hpermit, (completed_inverters _).trans hinverters,
      (completed_storeLoad _).trans hload, (completed_lastPass _).trans hlast, ?_, ?_, ?_, ?_, ?_,
      (completed_flc _).trans hflc, (completed_bays _).trans hbays, (completed_cs _).trans hcs, (completed_tc _).trans htc,
      (completed_runTimer _).trans htimer, (completed_pending _).trans hpending⟩
    · rw [completed_queue, answer_al, hqueue]
    · rw [completed_st]
      exact hsequence
    · rw [completed_st]
      exact harrival
    · rw [completed_hp]
      exact hdropped
    · rw [completed_hp]
      exact hmiso

end Sys2Proof.Machine
end

section
/-! # The reads (R124, R125, R131, R172 to R174, R176) and TAKE RECEIPT (R163) -/

namespace Sys2Proof.Machine

/-! ## Requests that name one slot, and the gate (chapters 3, 5, 9) -/

theorem withSlot_badLength {p : List Byte} (act : SlotId → State → Reply × State) (s : State) (h : p.length ≠ 1) :
    withSlot p act s = refuse .badRequest s := if_pos h

theorem withSlot_outOfRange {p : List Byte} (act : SlotId → State → Reply × State) (s : State) (hlen : p.length = 1)
    (h : 63 < arg p 0 1) : withSlot p act s = refuse .outOfRange s := by
  have hindex : index? 64 (arg p 0 1) = none := index?_none.mpr h
  simp [withSlot, hlen, hindex]

theorem withSlot_slot {p : List Byte} {k : SlotId} (act : SlotId → State → Reply × State) (s : State) (hlen : p.length = 1)
    (h : arg p 0 1 = k.val) : withSlot p act s = act k s := by
  have hindex : index? 64 (arg p 0 1) = some k := index?_some.mpr h
  simp [withSlot, hlen, hindex]

theorem whenOpen_closed {s : State} (act : State → Reply × State) (h : s.sc.gate = .closed) :
    whenOpen act s = refuse .notConfigured s := if_pos h

theorem whenOpen_opened {s : State} (act : State → Reply × State) (h : s.sc.gate = .opened) : whenOpen act s = act s :=
  if_neg (by rw [h]; decide)

/-! ## Lengths of payloads (section 11.1) -/

/-- The bytes a payload takes. -/
def widthOf (fs : List Field) : Nat := (fs.map Field.width).sum

theorem be_length (w n : Nat) : (be w n).length = w := by
  induction w with
  | zero => rfl
  | succ w ih => exact congrArg (· + 1) ih

theorem Field.bytes_length (draw i : Nat) (x : Field) : (x.bytes draw i).length = x.width := by
  unfold Field.bytes
  split <;> exact be_length _ _

theorem serializeFrom_length (draw i : Nat) (fs : List Field) : (serializeFrom draw i fs).length = widthOf fs := by
  induction fs generalizing i with
  | nil => rfl
  | cons x fs ih =>
    rw [serializeFrom, List.length_append, Field.bytes_length, ih]
    rfl

theorem serialize_length (draw : Nat) (fs : List Field) : (serialize draw fs).length = widthOf fs := serializeFrom_length ..

theorem widthOf_append (fs gs : List Field) : widthOf (fs ++ gs) = widthOf fs + widthOf gs := by
  simp [widthOf]

/-- Records of one width each. -/
theorem widthOf_flatMap {α : Type} {fields : α → List Field} {n : Nat} (h : ∀ a, widthOf (fields a) = n) (l : List α) :
    widthOf (l.flatMap fields) = l.length * n := by
  induction l with
  | nil => simp [widthOf]
  | cons a l ih => rw [List.flatMap_cons, widthOf_append, h, ih, List.length_cons, Nat.succ_mul, Nat.add_comm]

theorem widthOf_listedSlot (x : Slot) : widthOf (listedSlot x) = 4 := by
  unfold listedSlot
  split <;> rfl

theorem widthOf_noticeFields (s : State) (k : NoticeKind) : widthOf (noticeFields s k) = 7 := by
  cases k <;> rfl

theorem widthOf_readSiteFields (s : State) : widthOf (readSiteFields s) = 66 := by
  rw [readSiteFields, widthOf_append]
  have hfeeders : widthOf ((indices 4).map fun f => u4 (s.feederCommitted f)) = 16 := rfl
  rw [hfeeders]
  simp [widthOf, u1, u2, u4, flag, optional, signedField]

theorem widthOf_readNoticesFields (s : State) : widthOf (readNoticesFields s) = 71 := by
  rw [readNoticesFields, widthOf_append, widthOf_flatMap (widthOf_noticeFields s)]
  rfl

theorem widthOf_listSessionsFields (s : State) : widthOf (listSessionsFields s) = 258 := by
  rw [listSessionsFields, widthOf_append, widthOf_flatMap fun k => widthOf_listedSlot (s.slot k)]
  simp [indices, widthOf, u1]

theorem widthOf_receiptFields (r : Receipt) : widthOf (receiptFields r) = 51 := by
  simp [receiptFields, stampFields, flagsField, widthOf, u1, u2, u4, optional]

theorem widthOf_readSessionFields_settled {s : State} {k : SlotId} (h : (s.slot k).state = .settled) :
    widthOf (readSessionFields s k) = 96 := by
  simp only [readSessionFields, h]
  rw [← List.cons_append, widthOf_append, ← List.singleton_append, widthOf_append, widthOf_receiptFields]
  simp [accumulatorFields, widthOf, u1, u4, u8]

theorem widthOf_readSessionFields_free {s : State} {k : SlotId} (h : (s.slot k).state = .free) :
    widthOf (readSessionFields s k) = 1 := by
  simp only [readSessionFields, h]
  rfl

/-! ## The reads -/

theorem readAct_good {p : List Byte} {length : Nat} (fields : State → List Field) (s : State) (h : p.length = length) :
    readAct length p fields s = (⟨.ok, fields s⟩, s) := if_pos h

theorem readAct_badLength {p : List Byte} {length : Nat} (fields : State → List Field) (s : State) (h : p.length ≠ length) :
    readAct length p fields s = refuse .badRequest s := if_neg h

theorem readBayAct_badLength {p : List Byte} (s : State) (h : p.length ≠ 1) : readBayAct p s = refuse .badRequest s := if_pos h

theorem readBayAct_outOfRange {p : List Byte} (s : State) (hlen : p.length = 1) (h : 47 < arg p 0 1) :
    readBayAct p s = refuse .outOfRange s := by
  have hindex : index? 48 (arg p 0 1) = none := index?_none.mpr h
  simp [readBayAct, hlen, hindex]

theorem readBayAct_bay {p : List Byte} {b : BayId} (s : State) (hlen : p.length = 1) (h : arg p 0 1 = b.val) :
    readBayAct p s = (⟨.ok, bayFields s b⟩, s) := by
  have hindex : index? 48 (arg p 0 1) = some b := index?_some.mpr h
  simp [readBayAct, hlen, hindex]

theorem readAccountAct_badLength {p : List Byte} (s : State) (h : p.length ≠ 1) : readAccountAct p s = refuse .badRequest s :=
  if_pos h

theorem readAccountAct_outOfRange {p : List Byte} (s : State) (hlen : p.length = 1) (h : 15 < arg p 0 1) :
    readAccountAct p s = refuse .outOfRange s := by
  have hindex : index? 16 (arg p 0 1) = none := index?_none.mpr h
  simp [readAccountAct, hlen, hindex]

theorem readAccountAct_account {p : List Byte} {i : AccountId} (s : State) (hlen : p.length = 1) (h : arg p 0 1 = i.val) :
    readAccountAct p s =
      (⟨.ok, indexedAccountFields s i ++ u1 (s.holdersOf i).length :: (s.holdersOf i).flatMap (holdFields s i)⟩, s) := by
  have hindex : index? 16 (arg p 0 1) = some i := index?_some.mpr h
  simp [readAccountAct, hlen, hindex]

theorem queryCreditAct_badLength {p : List Byte} (s : State) (h : p.length ≠ 4) : queryCreditAct p s = refuse .badRequest s :=
  if_pos h

theorem queryCreditAct_found {p : List Byte} {s : State} {c : Credit} (hlen : p.length = 4)
    (h : lookupCredit (arg p 0 4) s = some c) : queryCreditAct p s = (⟨.ok, creditFields s c⟩, s) := by
  simp [queryCreditAct, hlen, h]

theorem queryCreditAct_notFound {p : List Byte} {s : State} (hlen : p.length = 4) (h : lookupCredit (arg p 0 4) s = none) :
    queryCreditAct p s = (⟨.notFound, u1 (s.baysPending (arg p 0 4)).length
      :: (s.baysPending (arg p 0 4)).map fun b => u1 b.val⟩, s) := by
  simp [queryCreditAct, hlen, h]

/-- The row of the pending list is chosen for a payload of 4 bytes alone. -/
theorem Holds.pendingList_length {p f : List Byte} {s : State} (h : Holds (.queryPendingList p) f s) : p.length = 4 := by
  have hrow : requestRow (f.getD 0 0).toNat (f.drop 3) = some (.queryPendingList p) := by
    have hof := h.2
    rw [requestOf] at hof
    split at hof
    · generalize requestRow (f.getD 0 0).toNat (f.drop 3) = row at hof
      cases row with
      | none => cases hof
      | some i => exact congrArg some hof
    · cases hof
  unfold requestRow at hrow
  split at hrow <;> simp at hrow
  all_goals split at hrow <;> simp at hrow
  next hlist =>
    rw [← hrow, beq_iff_eq.mp hlist]
    rfl

theorem mem_baysPending {s : State} {key : Nat} {b : BayId} :
    b ∈ s.baysPending key ↔ ∃ n d, (s.bay b).scan = .pending key n d := by
  rw [State.baysPending, List.mem_filter, beq_iff_eq, ScanSlot.key?_eq_some_iff]
  exact and_iff_right (List.mem_finRange b)

/-- Settles O26: each read's checks, and the widths of its fields. -/
theorem readsChangeNothing : Obligations.ReadsChangeNothing := by
  refine ⟨fun p f s hp => ⟨fun h hlen => ?_, fun h hlen => ?_, fun h hlen => ?_, fun k h hlen hk => ?_, fun b h hlen hb => ?_,
      fun i h hlen hi => ?_, fun c h hlen hc => ?_, fun h hlen hc => ?_, fun h => ?_⟩,
    fun p f s hp => ⟨fun h hlen => ?_, fun h hlen => ?_, fun h hlen => ?_, fun h => ⟨fun hlen => ?_, fun hlen hk => ?_⟩,
      fun h => ⟨fun hlen => ?_, fun hlen hb => ?_⟩, fun h => ⟨fun hlen => ?_, fun hlen hi => ?_⟩, fun h hlen => ?_⟩,
    fun draw s k r => ?_, fun s key b => mem_baysPending⟩
  · exact serve_unchanged hp h (readAct_good _ s hlen)
  · exact serve_unchanged hp h (readAct_good _ s hlen)
  · exact serve_unchanged hp h (readAct_good _ s hlen)
  · exact serve_unchanged hp h (withSlot_slot _ s hlen hk)
  · exact serve_unchanged hp h (readBayAct_bay s hlen hb)
  · exact serve_unchanged hp h (readAccountAct_account s hlen hi)
  · exact serve_unchanged hp h (queryCreditAct_found hlen hc)
  · exact serve_unchanged hp h (queryCreditAct_notFound hlen hc)
  · exact serve_unchanged hp h (readAct_good _ s h.pendingList_length)
  · exact serve_refused hp h (readAct_badLength _ s hlen)
  · exact serve_refused hp h (readAct_badLength _ s hlen)
  · exact serve_refused hp h (readAct_badLength _ s hlen)
  · exact serve_refused hp h (withSlot_badLength _ s hlen)
  · exact serve_refused hp h (withSlot_outOfRange _ s hlen hk)
  · exact serve_refused hp h (readBayAct_badLength s hlen)
  · exact serve_refused hp h (readBayAct_outOfRange s hlen hb)
  · exact serve_refused hp h (readAccountAct_badLength s hlen)
  · exact serve_refused hp h (readAccountAct_outOfRange s hlen hi)
  · exact serve_refused hp h (queryCreditAct_badLength s hlen)
  · simp only [serialize_length]
    exact ⟨widthOf_readSiteFields s, widthOf_readNoticesFields s, widthOf_listSessionsFields s, widthOf_receiptFields r,
      widthOf_readSessionFields_settled, widthOf_readSessionFields_free⟩

/-! ## TAKE RECEIPT (R163) -/

theorem takeReceiptAt_unsettled {k : SlotId} {s : State} (h : (s.slot k).state ≠ .settled) :
    takeReceiptAt k s = refuse .wrongState s := if_neg h

theorem takeReceiptAt_receipt {k : SlotId} {s : State} {r : Receipt} (h : (s.slot k).state = .settled)
    (hr : (s.slot k).receipt = some r) : takeReceiptAt k s =
      (⟨.ok, receiptFields r⟩, if (s.bay r.bay).state = .stopped ∧ (s.bay r.bay).session = some k then
        (s.setSlot k {}).setBay r.bay { s.bay r.bay with session := none } else s.setSlot k {}) := by
  refine (if_pos h).trans ?_
  rw [Slot.keptReceipt, hr]
  rfl

/-- Settles O28: the checks, and the receipt's one answer. -/
theorem receiptTaken : Obligations.ReceiptTaken := by
  intro p f s hp h
  refine ⟨fun hlen => serve_refused hp h (withSlot_badLength _ s hlen),
    fun hlen hk => serve_refused hp h (withSlot_outOfRange _ s hlen hk), fun k hlen hk => ⟨fun hstate => ?_, fun r hstate hr => ?_⟩⟩
  · exact serve_refused hp h ((withSlot_slot _ s hlen hk).trans (takeReceiptAt_unsettled hstate))
  · refine serve_answered _ h ((withSlot_slot _ s hlen hk).trans (takeReceiptAt_receipt hstate hr)) ?_ ?_
    · split <;> rfl
    · split <;> exact hp

end Sys2Proof.Machine
end

section
/-! # VOID CREDIT (R121) and the notice requests (R176, R177) -/

namespace Sys2Proof.Machine

/-! ## VOID CREDIT (R121) -/

/-- A rewrite of the record with a key is what a search for it finds next. -/
theorem find_updateCredit {key : Nat} {f : Credit → Credit} (hf : ∀ c, (f c).key = c.key) (cs : List Credit) :
    (updateCredit key f cs).find? (fun c => c.key == key) = (cs.find? fun c => c.key == key).map f := by
  have hkeys : ((fun c : Credit => c.key == key) ∘ fun c => if c.key = key then f c else c) = fun c => c.key == key := by
    funext c
    simp only [Function.comp_apply]
    split
    · rw [hf]
    · rfl
  rw [updateCredit, List.find?_map, hkeys]
  cases hfound : cs.find? fun c => c.key == key with
  | none => rfl
  | some c => exact congrArg some (if_pos (find_credit hfound).2)

theorem lookupCredit_update {key : Nat} {f : Credit → Credit} (hf : ∀ c, (f c).key = c.key) (s : State) :
    lookupCredit key (s.setCredits (updateCredit key f s.cs.credits)) = (lookupCredit key s).map f := by
  unfold lookupCredit
  split
  · rfl
  · exact find_updateCredit hf s.cs.credits

theorem CreditInv.lookup {s : State} (h : CreditInv s) {c : Credit} (hc : c ∈ s.cs.credits) : lookupCredit c.key s = some c :=
  (if_neg (h.2.1 c hc)).trans (h.find hc)

theorem voidHeld_key (c : Credit) : c.voidHeld.key = c.key := by
  unfold Credit.voidHeld
  split <;> rfl

theorem updateCredit_id (key : Nat) (cs : List Credit) : updateCredit key (fun c => c) cs = cs := by
  simp [updateCredit]

/-- The fields of a credit record read the sessions and not the records. -/
theorem creditFields_setCredits (s : State) (cs : List Credit) (c : Credit) :
    creditFields (s.setCredits cs) c = creditFields s c := by
  unfold creditFields holderFields
  cases c.holder <;> rfl

theorem exec_voidCredit (p : List Byte) (s : State) : exec (.voidCredit p) s = serve (.voidCredit p) (voidCreditAct p) s := rfl

theorem voidCreditAct_badLength {p : List Byte} (s : State) (h : p.length ≠ 4) : voidCreditAct p s = refuse .badRequest s :=
  if_pos h

theorem voidCreditAct_outOfRange {p : List Byte} (s : State) (hlen : p.length = 4) (h : arg p 0 4 = 0) :
    voidCreditAct p s = refuse .outOfRange s := by
  simp [voidCreditAct, hlen, h]

theorem voidCreditAct_notFound {p : List Byte} {s : State} (hlen : p.length = 4) (hkey : arg p 0 4 ≠ 0)
    (hnone : lookupCredit (arg p 0 4) s = none) : voidCreditAct p s = refuse .notFound s := by
  simp [voidCreditAct, hlen, hkey, hnone]

theorem voidCreditAct_issued {p : List Byte} {s : State} {c : Credit} (hlen : p.length = 4) (hkey : arg p 0 4 ≠ 0)
    (hc : lookupCredit (arg p 0 4) s = some c) (hstate : c.state = .issued) :
    voidCreditAct p s = (⟨.ok, creditFields s c⟩, s.setCredits (removeCredit (arg p 0 4) s.cs.credits)) := by
  simp [voidCreditAct, hlen, hkey, hc, hstate]

theorem voidCreditAct_held {p : List Byte} {s : State} {c : Credit} (hlen : p.length = 4) (hkey : arg p 0 4 ≠ 0)
    (hc : lookupCredit (arg p 0 4) s = some c) (hstate : c.state = .held) : voidCreditAct p s =
      (⟨.ok, creditFields s c.voidHeld⟩, s.setCredits (updateCredit (arg p 0 4) Credit.voidHeld s.cs.credits)) := by
  have hfound : foundFields (s.setCredits (updateCredit (arg p 0 4) Credit.voidHeld s.cs.credits)) (arg p 0 4)
      = creditFields s c.voidHeld := by
    rw [foundFields, lookupCredit_update voidHeld_key, hc]
    exact creditFields_setCredits s _ _
  simp [voidCreditAct, hlen, hkey, hc, hstate, hfound]

/-- Settles O25: the checks, then the record by its state. -/
theorem creditVoided : Obligations.CreditVoided := by
  intro p f s hp hinv h
  simp only [exec_voidCredit]
  refine ⟨fun hlen => serve_refused hp h (voidCreditAct_badLength s hlen),
    fun hlen hkey => serve_refused hp h (voidCreditAct_outOfRange s hlen hkey), fun hlen hkey hnone => ?_, ?_⟩
  · have hlookup : lookupCredit (arg p 0 4) s = none := by
      rw [← Option.not_isSome_iff_eq_none, lookupCredit_isSome_iff s hkey]
      rintro ⟨c, hc, heq⟩
      exact hnone c hc heq
    exact serve_refused hp h (voidCreditAct_notFound hlen hkey hlookup)
  · intro c hc hlen heq
    have hkey : arg p 0 4 ≠ 0 := heq ▸ hinv.2.1 c hc
    have hlookup : lookupCredit (arg p 0 4) s = some c := heq ▸ hinv.lookup hc
    refine ⟨fun hstate => ?_, fun hstate hvoided => ?_, fun hstate hvoided => ?_⟩
    · exact serve_answered _ h (voidCreditAct_issued hlen hkey hlookup hstate) rfl hp
    · have hvoid : c.voidHeld = { c with remainingWh := 0, voided := true } := if_neg (by rw [hvoided]; decide)
      have hcredits : updateCredit (arg p 0 4) Credit.voidHeld s.cs.credits =
          s.cs.credits.map fun x => if x.key = arg p 0 4 then { x with remainingWh := 0, voided := true } else x :=
        heq ▸ hinv.update hc _ (fun x => { x with remainingWh := 0, voided := true }) hvoid
      have hact := voidCreditAct_held hlen hkey hlookup hstate
      rw [hvoid, hcredits] at hact
      exact serve_answered _ h hact rfl hp
    · have hvoid : c.voidHeld = c := if_pos hvoided
      have hcredits : updateCredit (arg p 0 4) Credit.voidHeld s.cs.credits = s.cs.credits :=
        (heq ▸ hinv.update hc _ (fun x => x) hvoid).trans (updateCredit_id _ _)
      have hact := voidCreditAct_held hlen hkey hlookup hstate
      rw [hvoid, hcredits] at hact
      exact serve_answered _ h hact rfl hp

/-! ## ACK NOTICE (R177) -/

theorem exec_ackNotice (p : List Byte) (s : State) : exec (.ackNotice p) s = serve (.ackNotice p) (ackNoticeAct p) s := rfl

theorem noticeKinds_index (k : NoticeKind) : noticeKinds[k.index.val]? = some k := by
  cases k <;> rfl

theorem ackNoticeAct_badLength {p : List Byte} (s : State) (h : p.length ≠ 1) : ackNoticeAct p s = refuse .badRequest s :=
  if_pos h

theorem ackNoticeAct_outOfRange {p : List Byte} (s : State) (hlen : p.length = 1) (h : 9 < arg p 0 1) :
    ackNoticeAct p s = refuse .outOfRange s := by
  have hkind : noticeKinds[arg p 0 1]? = none := List.getElem?_eq_none h
  simp [ackNoticeAct, hlen, hkind]

theorem argumentFields_eq (n : Notice) (k : NoticeKind) :
    argumentFields n k = [u1 n.argument, u4 (if k = .creditQuery then n.key else 0)] := by
  cases k <;> rfl

theorem ackNoticeAct_kind {p : List Byte} {k : NoticeKind} (s : State) (hlen : p.length = 1) (h : arg p 0 1 = k.index.val) :
    ackNoticeAct p s = (⟨.ok, [u1 (s.notice k).count, u1 (s.notice k).argument,
      u4 (if k = .creditQuery then (s.notice k).key else 0)]⟩, acknowledge k s) := by
  have hkind : noticeKinds[arg p 0 1]? = some k := by rw [h, noticeKinds_index]
  simp [ackNoticeAct, hlen, hkind, argumentFields_eq]

theorem acknowledge_notice (k : NoticeKind) (s : State) : (acknowledge k s).notice k = { s.notice k with count := 0 } :=
  notice_setNotice_same s k _

theorem acknowledge_notice_ne (s : State) {k j : NoticeKind} (h : j ≠ k) : (acknowledge k s).notice j = s.notice j :=
  notice_setNotice_ne s _ h

/-! ## NOTICE MASK (R176) -/

theorem exec_noticeMask (p : List Byte) (s : State) : exec (.noticeMask p) s = serve (.noticeMask p) (noticeMaskAct p) s := rfl

/-- The bits of a packed list are its elements, and there are none above. -/
theorem packBits_testBit (bs : List Bool) (n : Nat) : (packBits bs).testBit n = bs.getD n false := by
  induction bs generalizing n with
  | nil => simp [packBits]
  | cons b bs ih =>
    have hcons : packBits (b :: bs) = b.toNat + 2 * packBits bs := rfl
    cases n with
    | zero => rw [hcons, Nat.testBit_zero]; cases b <;> simp
    | succ n =>
      have hdiv : (b.toNat + 2 * packBits bs) / 2 = packBits bs := by cases b <;> simp <;> omega
      rw [hcons, Nat.testBit_succ, hdiv, ih]
      rfl

theorem packBits_lt (bs : List Bool) : packBits bs < 2 ^ bs.length := by
  induction bs with
  | nil => decide
  | cons b bs ih =>
    have hcons : packBits (b :: bs) = b.toNat + 2 * packBits bs := rfl
    have hb : b.toNat ≤ 1 := Bool.toNat_le b
    rw [hcons, List.length_cons, Nat.pow_succ]
    omega

/-- The ten mask bits as a number (Table 11-8). -/
def State.maskBits (s : State) : Nat := packBits (s.hp.notices.toList.map (·.masked))

theorem maskFields_eq (s : State) : maskFields s = [u2 s.maskBits] := rfl

theorem maskBits_lt (s : State) : s.maskBits < 1024 := by
  have hlt := packBits_lt (s.hp.notices.toList.map (·.masked))
  rw [List.length_map, Vector.length_toList] at hlt
  exact hlt

theorem maskBits_testBit (s : State) {n : Nat} (h : n < 10) : s.maskBits.testBit n = s.hp.notices[n].masked := by
  rw [State.maskBits, packBits_testBit]
  simp [h]

theorem setMasks_notice (bits : Nat) (s : State) (k : NoticeKind) :
    (setMasks bits s).notice k = { s.notice k with masked := bits.testBit k.index.val } := by
  simp [setMasks, evalAttn, State.notice]

theorem setMasks_maskBits (bits : Nat) (s : State) : (setMasks bits s).maskBits = bits % 1024 := by
  refine Nat.eq_of_testBit_eq fun n => ?_
  have hmod : (bits % 1024).testBit n = (decide (n < 10) && bits.testBit n) := Nat.testBit_mod_two_pow bits 10 n
  rw [hmod]
  by_cases hn : n < 10
  · rw [maskBits_testBit _ hn]
    simp [setMasks, evalAttn, hn]
  · have hbig : 2 ^ 10 ≤ 2 ^ n := Nat.pow_le_pow_right (by decide) (by omega)
    rw [Nat.testBit_lt_two_pow ((maskBits_lt _).trans_le hbig)]
    simp [hn]

theorem noticeMaskAct_read {p : List Byte} (s : State) (h : p.length = 0) :
    noticeMaskAct p s = (⟨.ok, [u2 s.maskBits]⟩, s) := if_pos h

theorem noticeMaskAct_badLength {p : List Byte} (s : State) (h0 : p.length ≠ 0) (h : p.length ≠ 2) :
    noticeMaskAct p s = refuse .badRequest s := (if_neg h0).trans (if_pos h)

theorem noticeMaskAct_write {p : List Byte} (s : State) (h : p.length = 2) :
    noticeMaskAct p s = (⟨.ok, [u2 (arg p 0 2 % 1024)]⟩, setMasks (arg p 0 2) s) := by
  rw [← setMasks_maskBits (arg p 0 2) s, ← maskFields_eq]
  simp [noticeMaskAct, h]

/-- Settles O34: the checks, then the notice acknowledged or the masks replaced. -/
theorem noticesAcknowledgedAndMasked : Obligations.NoticesAcknowledgedAndMasked := by
  refine ⟨fun p f s hp h => ?_, fun p f s hp h => ?_⟩
  · rw [exec_ackNotice]
    refine ⟨fun hlen => serve_refused hp h (ackNoticeAct_badLength s hlen),
      fun hlen hk => serve_refused hp h (ackNoticeAct_outOfRange s hlen hk), fun k hlen hk => ?_⟩
    exact ⟨_, serve_answered _ h (ackNoticeAct_kind s hlen hk) rfl hp, acknowledge_notice k s,
      fun j hj => acknowledge_notice_ne s hj, rfl, rfl, rfl, rfl⟩
  · rw [exec_noticeMask]
    refine ⟨fun hlen => ⟨s.maskBits, maskBits_lt s, fun k => maskBits_testBit s k.index.isLt,
        serve_unchanged hp h (noticeMaskAct_read s hlen)⟩,
      fun h0 hlen => serve_refused hp h (noticeMaskAct_badLength s h0 hlen), fun hlen => ?_⟩
    exact ⟨_, serve_answered _ h (noticeMaskAct_write s hlen) rfl hp, setMasks_notice _ s, rfl, rfl, rfl, rfl⟩

end Sys2Proof.Machine
end

section
/-! # SUSPEND, RESUME and RESUME of all slots (R105, R106) -/

namespace Sys2Proof.Machine

/-! ## The gate and the slot of a session command (R10) -/

theorem sessionCommand_closed {p : List Byte} {act : SlotId → State → Reply × State} {s : State} (h : s.sc.gate = .closed) :
    whenOpen (withSlot p act) s = refuse .notConfigured s := whenOpen_closed _ h

theorem sessionCommand_badLength {p : List Byte} {act : SlotId → State → Reply × State} {s : State} (h : s.sc.gate = .opened)
    (hlen : p.length ≠ 1) : whenOpen (withSlot p act) s = refuse .badRequest s :=
  (whenOpen_opened _ h).trans (withSlot_badLength _ s hlen)

theorem sessionCommand_outOfRange {p : List Byte} {act : SlotId → State → Reply × State} {s : State} (h : s.sc.gate = .opened)
    (hlen : p.length = 1) (hk : 63 < arg p 0 1) : whenOpen (withSlot p act) s = refuse .outOfRange s :=
  (whenOpen_opened _ h).trans (withSlot_outOfRange _ s hlen hk)

theorem sessionCommand_slot {p : List Byte} {k : SlotId} {s : State} (act : SlotId → State → Reply × State)
    (h : s.sc.gate = .opened) (hlen : p.length = 1) (hk : arg p 0 1 = k.val) : whenOpen (withSlot p act) s = act k s :=
  (whenOpen_opened _ h).trans (withSlot_slot _ s hlen hk)

/-- An answered command that leaves AL leaves it to the end of the step. -/
theorem completed_answer_al {s u : State} (hp : PassSampled s) (h : u.al = s.al) (f : List Byte) (r : Reply) :
    (completed (answer f r u)).al = s.al :=
  (congrArg State.al (completed_of_same (t := answer f r u) hp h)).trans h

/-! ## SUSPEND (R105) -/

theorem suspendSlot_slot (k : SlotId) (cause : SuspendCause) (s : State) : (suspendSlot k cause s).slot k =
    { s.slot k with state := .suspended, suspendCause := some cause, runPermit := false } := by
  simp [suspendSlot]

/-- What a change of one session's run permission leaves besides what every chain of edits leaves. -/
structure PermitAlone (s t : State) : Prop where
  bays : t.bays = s.bays
  cs : t.cs = s.cs
  hp : t.hp = s.hp
  queue : t.al.queue = s.al.queue

theorem suspendSlot_alone (k : SlotId) (cause : SuspendCause) (s : State) : PermitAlone s (suspendSlot k cause s) := by
  constructor <;> simp [suspendSlot]

theorem suspendSlot_at (k : SlotId) (b : BayId) (cause : SuspendCause) (s : State) : At k b s (suspendSlot k cause s) :=
  (At.modSlot _ _ _ _).trans (At.passIf _ _ _ _)

theorem suspendSlot_asked {k : SlotId} {s : State} (cause : SuspendCause) (h : (s.slot k).runPermit = true) :
    PassAsked s (suspendSlot k cause s) := by
  rw [suspendSlot, h]
  exact PassAsked.ofEdits (modSlot_edits _ _ _)

theorem suspendSlot_al {k : SlotId} {s : State} (cause : SuspendCause) (h : (s.slot k).runPermit = false) :
    (suspendSlot k cause s).al = s.al := by
  rw [suspendSlot, h]
  rfl

theorem exec_suspend (p : List Byte) (s : State) :
    exec (.suspend p) s = serve (.suspend p) (whenOpen (withSlot p suspendAt)) s := rfl

theorem suspendAt_wrongState {k : SlotId} {s : State} (h : (s.slot k).state.queued = false) :
    suspendAt k s = refuse .wrongState s := if_neg (by rw [h]; decide)

theorem suspensionFields_commanded {s : State} {k : SlotId} (hstate : (s.slot k).state = .suspended)
    (hcause : (s.slot k).suspendCause = some .commanded) : suspensionFields s k = [u1 1, u1 4, u1 1] := by
  rw [suspensionFields, hstate, hcause]
  rfl

theorem suspendAt_suspended {k : SlotId} {s : State} (h : (s.slot k).state = .suspended) : suspendAt k s =
    (⟨.ok, [u1 1, u1 4, u1 1]⟩, s.setSlot k { s.slot k with suspendCause := some .commanded }) := by
  have hcommand : commandSuspend k s = s.setSlot k { s.slot k with suspendCause := some .commanded } := if_pos h
  have hfields : suspensionFields (commandSuspend k s) k = [u1 1, u1 4, u1 1] := by
    rw [hcommand]
    exact suspensionFields_commanded (by rw [slot_setSlot_same]; exact h) (by rw [slot_setSlot_same])
  refine (if_pos (by rw [h]; decide)).trans ?_
  dsimp only
  rw [hfields, hcommand]

theorem suspendAt_running {k : SlotId} {s : State} (h : (s.slot k).state = .waiting ∨ (s.slot k).state = .charging) :
    suspendAt k s = (⟨.ok, [u1 1, u1 4, u1 1]⟩, suspendSlot k .commanded s) := by
  have hqueued : (s.slot k).state.queued = true := by rcases h with h | h <;> rw [h] <;> rfl
  have hne : (s.slot k).state ≠ .suspended := by rcases h with h | h <;> rw [h] <;> decide
  have hcommand : commandSuspend k s = suspendSlot k .commanded s := if_neg hne
  have hfields : suspensionFields (commandSuspend k s) k = [u1 1, u1 4, u1 1] := by
    rw [hcommand]
    exact suspensionFields_commanded (by rw [suspendSlot_slot]) (by rw [suspendSlot_slot])
  refine (if_pos hqueued).trans ?_
  dsimp only
  rw [hfields, hcommand]

/-- Settles O30: the checks, then the session by its state. -/
theorem sessionSuspended : Obligations.SessionSuspended := by
  intro p f s hp h
  rw [exec_suspend]
  refine ⟨fun hgate => serve_refused hp h (sessionCommand_closed hgate),
    fun hgate hlen => serve_refused hp h (sessionCommand_badLength hgate hlen),
    fun hgate hlen hk => serve_refused hp h (sessionCommand_outOfRange hgate hlen hk), ?_⟩
  intro k hgate hlen hk x
  have hact := sessionCommand_slot suspendAt hgate hlen hk
  refine ⟨fun hqueued => serve_refused hp h (hact.trans (suspendAt_wrongState hqueued)), fun hstate => ?_, fun hstate => ?_⟩
  · exact serve_answered _ h (hact.trans (suspendAt_suspended hstate)) rfl hp
  · have hedits := suspendSlot_edits k .commanded s
    have halone := suspendSlot_alone k .commanded s
    have honly := (suspendSlot_at k x.bay .commanded s).only hedits.untouched
    have hslot := suspendSlot_slot k .commanded s
    have hasked := suspendSlot_asked (k := k) (s := s) .commanded
    have hal := suspendSlot_al (k := k) (s := s) .commanded
    have hdraws := hedits.untouched.freeDraws
    have hexec := serve_completed h (hact.trans (suspendAt_running hstate))
    generalize suspendSlot k .commanded s = u at *
    obtain ⟨hbays, hcs, hhp, hqueue⟩ := halone
    refine ⟨_, hexec, ?_, ?_, fun hpermit => PassAsked.completed hp (hasked hpermit), fun hpermit => ?_, ?_, ?_, ?_, ?_,
      (honly.answer f _).completed⟩
    · rw [completed_hp]
      exact answer_port f _ s u hdraws
    · rw [completed_slot]
      exact hslot
    · exact completed_answer_al hp (hal hpermit) f _
    · rw [completed_queue]
      exact congrArg _ hqueue
    · rw [completed_bays]
      exact hbays
    · rw [completed_cs]
      exact hcs
    · rw [completed_hp]
      exact (congrArg HostPort.notices hhp : u.hp.notices = s.hp.notices)

/-! ## RESUME (R106) -/

/-- A session after a resumption (R104, R106). -/
def resumedSlot (x : Slot) : Slot := { x with state := .waiting, suspendCause := none, runPermit := true }

theorem resumeSlot_slot (k : SlotId) (s : State) : (resumeSlot k s).slot k = resumedSlot (s.slot k) := by
  simp [resumeSlot, resumedSlot]

theorem resumeSlot_alone (k : SlotId) (s : State) : PermitAlone s (resumeSlot k s) := by
  constructor <;> simp [resumeSlot]

theorem resumeSlot_at (k : SlotId) (b : BayId) (s : State) : At k b s (resumeSlot k s) :=
  (At.modSlot _ _ _ _).trans (At.passIf _ _ _ _)

theorem resumeSlot_asked {k : SlotId} {s : State} (h : (s.slot k).runPermit = false) : PassAsked s (resumeSlot k s) := by
  rw [resumeSlot, h]
  exact PassAsked.ofEdits (modSlot_edits _ _ _)

theorem heldByShed_iff {s : State} {c : SessionClass} :
    s.heldByShed c = true ↔ s.shedActive = true ∧ s.sc.lines.scope.has c = true := Bool.and_eq_true_iff

theorem exec_resume (p : List Byte) (s : State) :
    exec (.resume p) s = serve (.resume p) (whenOpen (withSlot p resumeAt)) s := rfl

theorem resumeAt_wrongState {k : SlotId} {s : State} (h : (s.slot k).state ≠ .suspended) :
    resumeAt k s = refuse .wrongState s := if_pos h

theorem resumeAt_notSafe {k : SlotId} {s : State} (h : (s.slot k).state = .suspended)
    (hheld : s.heldByShed (s.slot k).cls = true) : resumeAt k s = refuse .notSafe s :=
  (if_neg fun hne => hne h).trans (if_pos hheld)

theorem resumeAt_resumed {k : SlotId} {s : State} (h : (s.slot k).state = .suspended)
    (hheld : ¬s.heldByShed (s.slot k).cls = true) : resumeAt k s = (⟨.ok, []⟩, resumeSlot k s) :=
  (if_neg fun hne => hne h).trans (if_neg hheld)

/-! ## RESUME of all slots (R106) -/

theorem exec_resumeAll (p : List Byte) (s : State) :
    exec (.resumeAll p) s = serve (.resumeAll p) (whenOpen resumeAllAct) s := rfl

theorem resumeSweep_eq (l : List SlotId) (s : State) :
    l.foldl (fun t k => resumeSlot k t) s = permitSweep resumedSlot l s := by
  unfold permitSweep
  congr 1
  funext t k
  exact (permitStep_resumes rfl).symm

theorem resumeAllAct_eq (s : State) :
    resumeAllAct s = (⟨.ok, [u1 s.resumable.length]⟩, permitSweep resumedSlot s.resumable s) := by
  rw [resumeAllAct, resumeSweep_eq]

theorem resumable_nodup (s : State) : s.resumable.Nodup := (List.nodup_finRange 64).filter _

theorem mem_resumable {s : State} {k : SlotId} : k ∈ s.resumable ↔
    (s.slot k).state = .suspended ∧ ¬(s.shedActive = true ∧ s.sc.lines.scope.has (s.slot k).cls = true) := by
  rw [State.resumable, List.mem_filter, Bool.and_eq_true_iff, beq_iff_eq, Bool.not_eq_true', ← Bool.not_eq_true, heldByShed_iff]
  exact and_iff_right (List.mem_finRange k)

/-- Settles O31: the checks, then one session or every one that shed does not hold. -/
theorem sessionsResumed : Obligations.SessionsResumed := by
  refine ⟨fun p f s hp => ⟨fun h => ⟨fun hgate => ?_, fun hgate hlen => ?_, fun hgate hlen hk => ?_⟩, fun h hgate => ?_⟩,
    fun p f k s hp h hgate hlen hk => ?_, fun p f s hp h hgate => ?_⟩
  · exact serve_refused hp h (sessionCommand_closed hgate)
  · exact serve_refused hp h (sessionCommand_badLength hgate hlen)
  · exact serve_refused hp h (sessionCommand_outOfRange hgate hlen hk)
  · exact serve_refused hp h (whenOpen_closed _ hgate)
  · intro x held
    have hact := sessionCommand_slot resumeAt hgate hlen hk
    rw [exec_resume]
    refine ⟨fun hstate => serve_refused hp h (hact.trans (resumeAt_wrongState hstate)),
      fun hstate hheld => serve_refused hp h (hact.trans (resumeAt_notSafe hstate (heldByShed_iff.mpr hheld))),
      fun hstate hheld => ?_⟩
    have hfree : ¬s.heldByShed (s.slot k).cls = true := fun hs => hheld (heldByShed_iff.mp hs)
    have hedits := resumeSlot_edits k s
    have halone := resumeSlot_alone k s
    have honly := (resumeSlot_at k x.bay s).only hedits.untouched
    have hslot := resumeSlot_slot k s
    have hasked := resumeSlot_asked (k := k) (s := s)
    have hdraws := hedits.untouched.freeDraws
    have hexec := serve_completed h (hact.trans (resumeAt_resumed hstate hfree))
    generalize resumeSlot k s = u at *
    obtain ⟨hbays, hcs, hhp, hqueue⟩ := halone
    refine ⟨_, hexec, ?_, ?_, fun hpermit => PassAsked.completed hp (hasked hpermit), ?_, ?_, ?_, ?_,
      (honly.answer f _).completed⟩
    · rw [completed_hp]
      exact answer_port f _ s u hdraws
    · rw [completed_slot]
      exact hslot
    · rw [completed_queue]
      exact congrArg _ hqueue
    · rw [completed_bays]
      exact hbays
    · rw [completed_cs]
      exact hcs
    · rw [completed_hp]
      exact (congrArg HostPort.notices hhp : u.hp.notices = s.hp.notices)
  · intro resumed
    have hact := (whenOpen_opened resumeAllAct hgate).trans (resumeAllAct_eq s)
    have hnodup := resumable_nodup s
    have hedits := permitSweep_edits resumedSlot s.resumable s
    have halone := permitSweep_alone resumedSlot s.resumable s
    have hslots := permitSweep_slot resumedSlot hnodup s
    have hasked := permitSweep_asked (g := resumedSlot) hnodup (PassPrior.refl s)
    have hal := permitSweep_al (g := resumedSlot) (s := s) hnodup
    have hexec := serve_completed h hact
    generalize permitSweep resumedSlot s.resumable s = u at *
    have hsame := hedits.untouched
    obtain ⟨hbays, hcs, hhp, hqueue, hsequence, harrival⟩ := halone
    refine ⟨_, (exec_resumeAll p s).trans hexec, fun k hk => ?_, fun k hk => ?_, ?_, fun k hk hpermit => ?_, fun hpermits => ?_, ?_,
      ?_, ?_, ?_, ?_, ?_, ?_, ?_, ?_, ?_, ?_, ?_⟩
    · rw [completed_slot]
      exact (hslots k).trans (if_pos (mem_resumable.mpr hk))
    · rw [completed_slot]
      exact (hslots k).trans (if_neg fun hmem => hk (mem_resumable.mp hmem))
    · refine ⟨s.resumable, hnodup, fun k => mem_resumable, ?_⟩
      rw [completed_hp]
      exact answer_port f _ s u hsame.freeDraws
    · refine PassAsked.completed hp (hasked ⟨k, mem_resumable.mpr hk, fun heq => ?_⟩)
      exact Bool.noConfusion (heq.trans hpermit)
    · have hsameal : u.al = s.al := hal fun k hk => (hpermits k (mem_resumable.mp hk)).symm
      exact completed_answer_al hp hsameal f _
    · rw [completed_queue]
      exact congrArg _ hqueue
    · rw [completed_st]
      exact hsequence
    · rw [completed_st]
      exact harrival
    · refine ResultsKept.completed ?_
      exact hsame.results
    · exact (completed_sc _).trans hsame.sc
    · exact (completed_flc _).trans hsame.flc
    · exact (completed_bays _).trans hbays
    · exact (completed_cs _).trans hcs
    · exact (completed_tc _).trans hsame.tc
    · rw [completed_hp]
      exact (congrArg HostPort.notices hhp : u.hp.notices = s.hp.notices)
    · exact (completed_runTimer _).trans hsame.runTimer
    · exact (completed_pending _).trans hsame.pending

end Sys2Proof.Machine
end

section
/-! # CLEAR BAY FAULT (R99) and STOP (R60, R100) -/

namespace Sys2Proof.Machine

/-! ## CLEAR BAY FAULT (R99) -/

theorem stateCode_congr {s t : State} {b : BayId} (hbay : t.bay b = s.bay b) (hst : t.st = s.st) (hsc : t.sc = s.sc) :
    t.stateCode b = s.stateCode b := by
  simp only [State.stateCode, State.slot, hbay, hst, hsc]

theorem displayCode_congr {s t : State} {b : BayId} (hbay : t.bay b = s.bay b) (hst : t.st = s.st) (hsc : t.sc = s.sc) :
    t.displayCode b = s.displayCode b := by
  have hslot : ∀ k, t.slot k = s.slot k := fun k => by simp only [State.slot, hst]
  simp only [State.displayCode, stateCode_congr hbay hst hsc, hslot, hbay]

theorem scanFields_congr {s t : State} (h : t.runTimer = s.runTimer) (x : ScanSlot) : scanFields t x = scanFields s x := by
  cases x with
  | empty => rfl
  | pending key n d => simp only [scanFields, State.timeLeft, h]

/-- A bay's answer reads its record, its device entry, the sessions, the gate and the run timer. -/
theorem bayFields_congr {s t : State} {b : BayId} (hbay : t.bay b = s.bay b) (hst : t.st = s.st) (hsc : t.sc = s.sc)
    (hflc : t.flc = s.flc) (htimer : t.runTimer = s.runTimer) : bayFields t b = bayFields s b := by
  have hdevice : t.bayDevice b = s.bayDevice b := by simp only [State.bayDevice, State.device, hflc]
  have htime : t.timeLeft = s.timeLeft := by
    funext d
    simp only [State.timeLeft, htimer]
  have hleft : ∀ o, t.optionalLeft o = s.optionalLeft o := fun o => by simp only [State.optionalLeft, htime]
  simp only [bayFields, hbay, hdevice, hleft, scanFields_congr htimer, displayCode_congr hbay hst hsc]

theorem exec_clearBayFault (p : List Byte) (s : State) :
    exec (.clearBayFault p) s = serve (.clearBayFault p) (clearBayFaultAct p) s := rfl

theorem clearBayFaultAct_badLength {p : List Byte} (s : State) (h : p.length ≠ 1) :
    clearBayFaultAct p s = refuse .badRequest s := if_pos h

theorem clearBayFaultAct_outOfRange {p : List Byte} (s : State) (hlen : p.length = 1) (h : 47 < arg p 0 1) :
    clearBayFaultAct p s = refuse .outOfRange s := by
  have hindex : index? 48 (arg p 0 1) = none := index?_none.mpr h
  simp [clearBayFaultAct, hlen, hindex]

/-- CLEAR BAY FAULT at the bay it names. -/
theorem clearBayFaultAct_bay {p : List Byte} {b : BayId} (s : State) (hlen : p.length = 1) (h : arg p 0 1 = b.val) :
    clearBayFaultAct p s =
      if (s.bay b).state ≠ .fault then refuse .wrongState s
      else if s.bayOnline b = false ∨ (s.bay b).output = true then refuse .notSafe s
      else (⟨.ok, bayFields (clearFaultAt b s) b⟩, clearFaultAt b s) := by
  have hindex : index? 48 (arg p 0 1) = some b := index?_some.mpr h
  simp [clearBayFaultAct, hlen, hindex]

theorem clearFaultAt_bay (b : BayId) (s : State) : (clearFaultAt b s).bay b = { s.bay b with
    grantSet := 0, grantAck := 0, ackWait := none, stopFlag := false, session := none
    state := if (s.bay b).plug then .stopped else .idle } := by
  simp [clearFaultAt, writeGrants_bay, Bay.withGrants]

theorem clearFaultAt_bay_ne {b c : BayId} (s : State) (h : c ≠ b) : (clearFaultAt b s).bay c = s.bay c := by
  rw [clearFaultAt, bay_modBay_ne _ _ h, writeGrants_bay_ne 0 0 s h]

/-- After its grants are at 0, the bay's record alone is written. -/
theorem clearFaultAt_ofGrants (b : BayId) (s : State) : Edits (writeGrants b 0 0 s) (clearFaultAt b s) := by
  unfold clearFaultAt
  exact modBay_edits _ _ _ fun _ => ⟨rfl, rfl, rfl, rfl, rfl, rfl⟩

theorem clearFaultAt_edits (b : BayId) (s : State) : Edits s (clearFaultAt b s) :=
  (writeGrants_edits b 0 0 s).trans (clearFaultAt_ofGrants b s)

/-- The grants at 0: a pass request where the bay had committed power. -/
theorem writeGrants_zero (b : BayId) (s : State) : writeGrants b 0 0 s =
    requestPassIf (0 < (s.bay b).committed) (s.setBay b ((s.bay b).withGrants 0 0)) := rfl

theorem clearFaultAt_asked {b : BayId} {s : State} (h : 0 < (s.bay b).committed) : PassAsked s (clearFaultAt b s) := by
  have hgrants : writeGrants b 0 0 s = requestPass (s.setBay b ((s.bay b).withGrants 0 0)) := by
    rw [writeGrants_zero, decide_eq_true h]
    rfl
  have hasked : PassAsked s (writeGrants b 0 0 s) := by
    rw [hgrants]
    exact PassAsked.ofEdits (setBay_edits ⟨rfl, rfl, rfl, rfl, rfl, rfl⟩)
  exact hasked.edits (clearFaultAt_ofGrants b s)

theorem clearFaultAt_al {b : BayId} {s : State} (h : (s.bay b).committed = 0) : (clearFaultAt b s).al = s.al := by
  have hgrants : writeGrants b 0 0 s = s.setBay b ((s.bay b).withGrants 0 0) := by
    rw [writeGrants_zero, decide_eq_false (by omega)]
    rfl
  rw [clearFaultAt, hgrants]
  rfl

theorem clearFaultAt_st (b : BayId) (s : State) : (clearFaultAt b s).st = s.st := by simp [clearFaultAt]

theorem clearFaultAt_cs (b : BayId) (s : State) : (clearFaultAt b s).cs = s.cs := by simp [clearFaultAt]

theorem clearFaultAt_hp (b : BayId) (s : State) : (clearFaultAt b s).hp = s.hp := by simp [clearFaultAt]

/-- Settles O33: the checks, then the bay by its plug with no grants. -/
theorem bayFaultCleared : Obligations.BayFaultCleared := by
  intro p f s hp h
  rw [exec_clearBayFault]
  refine ⟨fun hlen => serve_refused hp h (clearBayFaultAct_badLength s hlen),
    fun hlen hb => serve_refused hp h (clearBayFaultAct_outOfRange s hlen hb), fun b hlen hb => ?_⟩
  have hact := clearBayFaultAct_bay s hlen hb
  refine ⟨fun hstate => ?_, fun hstate hunsafe => ?_, fun hstate honline houtput => ?_⟩
  · exact serve_refused hp h (hact.trans (if_pos hstate))
  · exact serve_refused hp h (hact.trans ((if_neg fun hne => hne hstate).trans (if_pos hunsafe)))
  · have hsafe : ¬(s.bayOnline b = false ∨ (s.bay b).output = true) := by simp [honline, houtput]
    have hexec := serve_completed h (hact.trans ((if_neg fun hne => hne hstate).trans (if_neg hsafe)))
    have hbay := clearFaultAt_bay b s
    have hbays : ∀ c, c ≠ b → (clearFaultAt b s).bay c = s.bay c := fun c hc => clearFaultAt_bay_ne s hc
    have hsame := (clearFaultAt_edits b s).untouched
    have hasked := clearFaultAt_asked (b := b) (s := s)
    have hal := clearFaultAt_al (b := b) (s := s)
    have hst := clearFaultAt_st b s
    have hcs := clearFaultAt_cs b s
    have hhp := clearFaultAt_hp b s
    generalize clearFaultAt b s = u at *
    refine ⟨_, hexec, ?_, fun c hc => ?_, fun hcommitted => PassAsked.completed hp (hasked hcommitted),
      fun hcommitted => completed_answer_al hp (hal hcommitted) f _, ?_, ?_, ?_, ?_, ?_, ?_, ?_, ?_, ?_⟩
    · rw [completed_bay]
      exact hbay
    · rw [completed_bay]
      exact hbays c hc
    · have hfields : bayFields (completed (answer f ⟨.ok, bayFields u b⟩ u)) b = bayFields u b :=
        bayFields_congr (completed_bay _ b) (completed_st _) (completed_sc _) (completed_flc _) (completed_runTimer _)
      rw [hfields, completed_hp]
      have hport := answer_port f ⟨.ok, bayFields u b⟩ s u hsame.freeDraws
      rw [← hhp, ← hport]
      rfl
    · refine ResultsKept.completed ?_
      exact hsame.results
    · exact (completed_sc _).trans hsame.sc
    · exact (completed_flc _).trans hsame.flc
    · exact (completed_st _).trans hst
    · exact (completed_cs _).trans hcs
    · exact (completed_tc _).trans hsame.tc
    · exact (completed_runTimer _).trans hsame.runTimer
    · exact (completed_pending _).trans hsame.pending

/-! ## STOP (R60) -/

theorem exec_stop (p : List Byte) (s : State) : exec (.stop p) s = serve (.stop p) (whenOpen (withSlot p stopAt)) s := rfl

theorem stopAt_wrongState {k : SlotId} {s : State} (h : (s.slot k).state = .free ∨ (s.slot k).state = .settled) :
    stopAt k s = refuse .wrongState s := by
  rcases h with h | h
  · exact if_neg (by rw [h]; decide)
  · exact if_neg (by rw [h]; decide)

theorem stopAt_live {k : SlotId} {s : State} (h : (s.slot k).state.live = true) :
    stopAt k s = (⟨.ok, []⟩, stopSession k .commandStop s) := if_pos h

theorem stopSession_ending {k : SlotId} {s : State} (cause : EndCause) (h : (s.slot k).state = .ending) :
    stopSession k cause s = s := by
  simp only [stopSession, h]

theorem stopSession_opening {k : SlotId} {s : State} (cause : EndCause) (h : (s.slot k).state = .opening) :
    stopSession k cause s = endOpening k cause s := by
  simp only [stopSession, h]

theorem stopSession_queued {k : SlotId} {s : State} (cause : EndCause) (h : (s.slot k).state.queued = true) :
    stopSession k cause s = enterEnding k cause s := by
  unfold stopSession
  split
  · next hstate => rw [hstate] at h; cases h
  · rfl
  · rfl
  · rfl
  all_goals next hstate => rw [hstate] at h; cases h

theorem live_of_queued_state {x : SessionState} (h : x.queued = true) : x.live = true := by
  cases x <;> first | rfl | cases h

/-- A session abandoned is two writes: its slot FREE, and its bay by the plug. -/
theorem abandon_eq (k : SlotId) (s : State) : abandon k s = (s.setSlot k {}).setBay (s.slot k).bay
    (if (s.bay (s.slot k).bay).plug then
      { s.bay (s.slot k).bay with scan := .empty, lostDeadline := none, state := .stopped, session := none, stopFlag := true }
    else { s.bay (s.slot k).bay with scan := .empty, lostDeadline := none, state := .idle, session := none }) := rfl

/-- Settles O29: the checks, then the session by its state and its bay's link. -/
theorem sessionStopped : Obligations.SessionStopped := by
  refine ⟨fun p f s hp h => ⟨fun hgate => serve_refused hp h (sessionCommand_closed hgate),
    fun hgate hlen => serve_refused hp h (sessionCommand_badLength hgate hlen),
    fun hgate hlen hk => serve_refused hp h (sessionCommand_outOfRange hgate hlen hk)⟩, ?_⟩
  intro p f k s hp h hgate hlen hk x b y
  have hact := sessionCommand_slot stopAt hgate hlen hk
  have hstopped : ∀ {u}, (s.slot k).state.live = true → stopSession k .commandStop s = u →
      exec (.stop p) s = .next (completed (answer f ⟨.ok, []⟩ u)) := fun hlive hu =>
    (exec_stop p s).trans (serve_completed h (hact.trans ((stopAt_live hlive).trans (by rw [hu]))))
  have hanswered : ∀ {u}, Edits s u → (completed (answer f ⟨.ok, []⟩ u)).hp.port = answeredPort f .ok [] s := fun hedits => by
    rw [completed_hp]
    exact answer_port f _ s _ hedits.untouched.freeDraws
  refine ⟨fun hstate => ?_, fun hstate => ?_, fun hstate henergy => ?_, fun hstate henergy => ?_, fun hqueued honline => ?_,
    fun hqueued honline => ?_⟩
  · exact serve_refused hp h (hact.trans (stopAt_wrongState hstate))
  · have hlive : (s.slot k).state.live = true := by rw [hstate]; rfl
    have hsame := stopSession_ending .commandStop hstate
    exact serve_unchanged hp h (hact.trans ((stopAt_live hlive).trans (by rw [hsame])))
  · have hlive : (s.slot k).state.live = true := by rw [hstate]; rfl
    have habandon : stopSession k .commandStop s = abandon k s :=
      (stopSession_opening _ hstate).trans (if_pos henergy)
    refine serve_answered (r := ⟨.ok, []⟩) _ h (hact.trans ((stopAt_live hlive).trans ?_)) rfl hp
    rw [habandon, abandon_eq]
  · have hlive : (s.slot k).state.live = true := by rw [hstate]; rfl
    have hsettle : stopSession k .commandStop s =
        settle k (some .commandStop) (afterByPlug (s.bay (s.slot k).bay).plug) s :=
      (stopSession_opening _ hstate).trans (if_neg henergy.ne')
    have hsettled := settle_settled k (some .commandStop) (afterByPlug (s.bay (s.slot k).bay).plug) s
    have honly := settle_only k (some .commandStop) (afterByPlug (s.bay (s.slot k).bay).plug) s
    refine ⟨_, hstopped hlive hsettle, hanswered (settle_edits ..), ?_, ?_, (honly.answer f _).completed⟩
    · rw [completed_slot]
      exact hsettled.state
    · rw [completed_slot]
      exact hsettled.cause
  · obtain ⟨hslot, hbay, hqueue, hasked, hstore, honly⟩ := enterEnding_entered k .commandStop s honline
    have hexec := hstopped (live_of_queued_state hqueued) (stopSession_queued _ hqueued)
    have hport := hanswered (enterEnding_edits k .commandStop s)
    generalize enterEnding k .commandStop s = u at *
    refine ⟨_, hexec, hport, ?_, ?_, ?_, PassAsked.completed hp hasked, ?_, ?_, (honly.answer f _).completed⟩
    · rw [completed_slot]
      exact hslot
    · rw [completed_bay]
      exact hbay
    · rw [completed_queue]
      exact hqueue
    · rw [completed_cs]
      exact hstore.1
    · rw [completed_hp]
      exact (congrArg HostPort.notices hstore.2 : u.hp.notices = s.hp.notices)
  · obtain ⟨hsettled, hflags, hfailed, -, honly⟩ := enterEnding_lost k .commandStop s hqueued honline
    have hexec := hstopped (live_of_queued_state hqueued) (stopSession_queued _ hqueued)
    have hport := hanswered (enterEnding_edits k .commandStop s)
    generalize enterEnding k .commandStop s = u at *
    refine ⟨_, hexec, hport, ?_, ?_, ?_, ?_, ?_, ?_, ?_, ?_, PassAsked.completed hp hfailed.asked, (honly.answer f _).completed⟩
    · rw [completed_slot]
      exact hsettled.state
    · rw [completed_slot]
      exact hsettled.cause
    · rw [completed_slot]
      exact congrArg ReceiptFlags.endUnconfirmed hflags
    · rw [completed_slot]
      exact congrArg ReceiptFlags.linkLostDuring hflags
    · rw [completed_bay]
      exact hfailed.state
    · rw [completed_bay]
      exact hfailed.session
    · rw [completed_bay]
      exact hfailed.grantSet
    · rw [completed_bay]
      exact hfailed.stopFlag

end Sys2Proof.Machine
end

section
/-! # Authorisation, card approvals and scans (R48 to R51, R113 to R116, R127, R128) -/

namespace Sys2Proof.Machine

/-! ## Authorisation (R51, R68) -/

/-- A member joins the queue before the first that it goes before (R68). -/
theorem insertMember_split (x : Member) (q : List Member) : ∃ before behind, q = before ++ behind
    ∧ insertMember x q = before ++ x :: behind ∧ (∀ m ∈ before, x.before m = false)
    ∧ ∀ m, behind.head? = some m → x.before m = true := by
  induction q with
  | nil => exact ⟨[], [], rfl, rfl, by simp, by simp⟩
  | cons y ys ih =>
    unfold insertMember
    split
    · next hbefore =>
      refine ⟨[], y :: ys, rfl, rfl, by simp, fun m hm => ?_⟩
      cases hm
      exact hbefore
    · next hbefore =>
      obtain ⟨before, behind, hq, hinsert, hafter, hhead⟩ := ih
      refine ⟨y :: before, behind, congrArg (y :: ·) hq, congrArg (y :: ·) hinsert, fun m hm => ?_, hhead⟩
      rcases List.mem_cons.mp hm with rfl | hm
      · exact Bool.eq_false_iff.mpr hbefore
      · exact hafter m hm

theorem joinedState_arrivedEdits (k : SlotId) (s : State) : Edits s
    { s.modSlot k (arrivedSlot s.st.arrival) with st.arrival := nextArrival s.st.arrival } :=
  (modSlot_edits s k _).trans (Edits.one (.counters _ s.st.sequence (nextArrival s.st.arrival)))

theorem joinedState_edits (k : SlotId) (s : State) : Edits s (joinedState k s) :=
  (joinedState_arrivedEdits k s).trans (joinQueue_edits k _)

theorem joinedState_asked (k : SlotId) (s : State) : PassAsked s (joinedState k s) := by
  unfold joinedState joinQueue
  exact PassAsked.ofEdits ((joinedState_arrivedEdits k s).trans (.one (.queue _ _)))

theorem joinedState_counters (k : SlotId) (s : State) :
    (joinedState k s).st.arrival = nextArrival s.st.arrival ∧ (joinedState k s).st.sequence = s.st.sequence := by
  unfold joinedState joinQueue
  rw [requestPass_st]
  exact ⟨rfl, rfl⟩

theorem joinedState_hp (k : SlotId) (s : State) : (joinedState k s).hp = s.hp := by
  unfold joinedState joinQueue
  rw [requestPass_hp]
  rfl

theorem joinedState_heldByShed (k : SlotId) (s : State) :
    (joinedState k s).heldByShed ((joinedState k s).slot k).cls = s.heldByShed (s.slot k).cls := by
  rw [joinedState_slot]
  simp only [State.heldByShed, State.shedActive, (joinedState_edits k s).untouched.sc]

theorem authorise_ofJoined (k : SlotId) (s : State) : Edits (joinedState k s) (authorise k s) := by
  rw [authorise_eq]
  split
  · exact modSlot_edits _ k _
  · exact (modSlot_edits _ k _).trans (requestPassIf_edits _ _)

theorem authorise_asked (k : SlotId) (s : State) : PassAsked s (authorise k s) :=
  (joinedState_asked k s).edits (authorise_ofJoined k s)

theorem authorise_counters (k : SlotId) (s : State) :
    (authorise k s).st.arrival = nextArrival s.st.arrival ∧ (authorise k s).st.sequence = s.st.sequence := by
  rw [authorise_eq]
  split
  · exact joinedState_counters k s
  · rw [requestPassIf_st]
    exact joinedState_counters k s

theorem authorise_hp (k : SlotId) (s : State) : (authorise k s).hp = s.hp := by
  rw [authorise_eq]
  split
  · exact joinedState_hp k s
  · rw [requestPassIf_hp]
    exact joinedState_hp k s

theorem authorise_slot_shed {k : SlotId} {s : State} (h : s.heldByShed (s.slot k).cls = true) : (authorise k s).slot k =
    { s.slot k with
      authDeadline := none, arrival := s.st.arrival, state := .suspended, suspendCause := some .shed, runPermit := false } := by
  rw [authorise_eq, joinedState_heldByShed, if_pos h, slot_modSlot_same, joinedState_slot]

theorem authorise_slot_waiting {k : SlotId} {s : State} (h : ¬s.heldByShed (s.slot k).cls = true) : (authorise k s).slot k =
    { s.slot k with authDeadline := none, arrival := s.st.arrival, state := .waiting, runPermit := true } := by
  rw [authorise_eq, joinedState_heldByShed, if_neg h, requestPassIf_slot, slot_modSlot_same, joinedState_slot]

theorem authoriseIfOpening_opening {k : SlotId} {s : State} (h : (s.slot k).state = .opening) :
    authoriseIfOpening k s = authorise k s := if_pos h

theorem authoriseIfOpening_same {k : SlotId} {s : State} (h : (s.slot k).state ≠ .opening) : authoriseIfOpening k s = s :=
  if_neg h

/-! ## The spend cap and the card approval (R48, R148) -/

/-- A session under CARD has reached its spend cap (R148). -/
def CapReached (x : Slot) : Prop :=
  x.payment = .card ∧ x.state.queued = true ∧ ∃ cap, x.spendCap = some cap ∧ cap * 10000000 ≤ x.cost

theorem testSpendCap_reached {k : SlotId} {s : State} (h : CapReached (s.slot k)) :
    testSpendCap k s = enterEnding k .capReached s := by
  obtain ⟨hcard, hqueued, cap, hcap, hcost⟩ := h
  have hreached : cap ≤ costHundredths (s.slot k).cost := (Nat.le_div_iff_mul_le (by decide)).mpr hcost
  simp only [testSpendCap, hcap]
  exact if_pos ⟨hcard, hqueued, hreached⟩

theorem testSpendCap_kept {k : SlotId} {s : State} (h : ¬CapReached (s.slot k)) : testSpendCap k s = s := by
  unfold testSpendCap
  dsimp only
  split
  · next cap hcap =>
    refine if_neg fun hc => h ?_
    obtain ⟨hcard, hqueued, hreached⟩ := hc
    exact ⟨hcard, hqueued, cap, hcap, (Nat.le_div_iff_mul_le (by decide)).mp hreached⟩
  · rfl

theorem stepCard_card {b : BayId} {k : SlotId} {r : BayReport} {s : State} {cap : Nat} (hcard : r.cardCap = some cap)
    (hlive : s.liveSlot b = some k) : stepCard b r s = takeCard k cap s := by
  simp only [stepCard, hcard, hlive]

theorem stepCard_none {b : BayId} {r : BayReport} {s : State} (h : r.cardCap = none ∨ s.liveSlot b = none) :
    stepCard b r s = s := by
  unfold stepCard
  split
  · next cap k hcard hlive =>
    rcases h with h | h
    · rw [hcard] at h; cases h
    · rw [hlive] at h; cases h
  · rfl

theorem takeCard_refused {k : SlotId} {s : State} {cap : Nat} (h : cap = 0 ∨ (s.slot k).payment = .account) :
    takeCard k cap s = s := if_pos h

theorem takeCard_taken {k : SlotId} {s : State} {cap : Nat} (hcap : cap ≠ 0) (hpayment : (s.slot k).payment ≠ .account) :
    takeCard k cap s = testSpendCap k (authoriseIfOpening k
      (s.setSlot k { s.slot k with payment := .card, spendCap := some cap })) :=
  if_neg (not_or.mpr ⟨hcap, hpayment⟩)

/-! ## Scans without a session, and token scans (R49, R127, R128) -/

theorem takeScan_unplugged {b : BayId} {s : State} (sc : Scan) (h : s.liveSlot b = none) :
    takeScan sc b s = setMessage b .plugFirst s := by
  simp only [takeScan, h]

theorem takeScan_token {b : BayId} {k : SlotId} {s : State} (key : Nat) (h : s.liveSlot b = some k) :
    takeScan ⟨.token, key⟩ b s = takeToken key k b s := by
  simp only [takeScan, h]

theorem findToken_none {key : Nat} {s : State}
    (h : key = 0 ∨ ∀ i, (s.account i).enabled = true → (s.account i).token ≠ key) : findToken key s = none := by
  unfold findToken
  split
  · rfl
  · next hkey =>
    refine List.find?_eq_none.mpr fun i _ hi => ?_
    rw [Bool.and_eq_true_iff, beq_iff_eq] at hi
    exact h.resolve_left hkey i hi.1 hi.2

/-- The enabled entry of a token is the one found, as no two have one token (R126). -/
theorem findToken_some {key : Nat} {s : State} {i : AccountId} (hinv : AccountInv s) (hkey : key ≠ 0)
    (henabled : (s.account i).enabled = true) (htoken : (s.account i).token = key) : findToken key s = some i := by
  have hi : ((s.account i).enabled && (s.account i).token == key) = true := by
    rw [Bool.and_eq_true_iff, beq_iff_eq]
    exact ⟨henabled, htoken⟩
  rw [findToken, if_neg hkey]
  cases hfound : (indices 16).find? fun i => (s.account i).enabled && (s.account i).token == key with
  | none => exact absurd hi (List.find?_eq_none.mp hfound i (List.mem_finRange i))
  | some j =>
    have hj := List.find?_some hfound
    rw [Bool.and_eq_true_iff, beq_iff_eq] at hj
    by_contra hne
    exact hinv.2 j i (fun heq => hne (congrArg some heq)) hj.1 henabled (hj.2.trans htoken.symm)

theorem takeToken_notValid {key : Nat} {k : SlotId} {b : BayId} {s : State}
    (h : (s.slot k).state ≠ .opening ∨ findToken key s = none) : takeToken key k b s = setMessage b .creditNotValid s := by
  unfold takeToken
  split
  · next hstate => rw [h.resolve_left fun hne => hne hstate]
  · rfl

theorem takeToken_account {key : Nat} {k : SlotId} {b : BayId} {s : State} {i : AccountId} (hstate : (s.slot k).state = .opening)
    (hfound : findToken key s = some i) : takeToken key k b s =
      if (s.account i).holders < (s.account i).maxHolders then acceptToken i k b s else setMessage b .creditInUse s := by
  refine (if_pos hstate).trans ?_
  rw [hfound]

/-- The message and the scan slot after an accepted scan. -/
theorem accepted_bay (b : BayId) (s : State) : setMessage b .creditOk (emptyScan b s) =
    s.setBay b { s.bay b with scan := .empty, message := some ⟨.creditOk, 3, false⟩ } := by
  simp only [setMessage, emptyScan, State.modBay, bay_setBay_same, setBay_setBay]

theorem attached_bay (b : BayId) (s : State) : emptyScan b (setMessage b .creditOk s) =
    s.setBay b { s.bay b with message := some ⟨.creditOk, 3, false⟩, scan := .empty } := by
  simp only [setMessage, emptyScan, State.modBay, bay_setBay_same, setBay_setBay]

theorem refuseReceipt_eq (b : BayId) (c : MessageCode) (s : State) : refuseReceipt b c s =
    s.setBay b { s.bay b with message := some ⟨c, 3, false⟩, scan := .empty } := by
  simp only [refuseReceipt, setMessage, emptyScan, State.modBay, bay_setBay_same, setBay_setBay]

/-- The first block of an account whose allowance is 0: none. -/
theorem firstBlock_withoutAllowance {i : AccountId} {k : SlotId} {s : State} (h : (s.account i).allowanceWh = 0) :
    firstBlock i k s = paidState i k s := if_neg (by omega)

/-- The state in which a session that pays by an account has it as its source (R128). -/
def sourcedState (i : AccountId) (k : SlotId) (s : State) : State :=
  (paidState i k s).modSlot k fun x => { x with source := some (.account i) }

theorem firstBlock_withAllowance {i : AccountId} {k : SlotId} {s : State} (h : 0 < (s.account i).allowanceWh) :
    firstBlock i k s = draw k (sourcedState i k s) := if_pos h

theorem sourcedState_slot (i : AccountId) (k : SlotId) (s : State) : (sourcedState i k s).slot k =
    { paidSlot i (s.account i).cls (s.slot k) with source := some (.account i) } := by
  rw [sourcedState, slot_modSlot_same, paidState_slot]

theorem sourcedState_account (i : AccountId) (k : SlotId) (s : State) : (sourcedState i k s).account i =
    { s.account i with holders := (s.account i).holders + 1 } :=
  account_modAccount_same s i fun a => { a with holders := a.holders + 1 }

theorem sourcedState_eq (i : AccountId) (k : SlotId) (s : State) : sourcedState i k s =
    (s.setAccount i { s.account i with holders := (s.account i).holders + 1 }).setSlot k
      { paidSlot i (s.account i).cls (s.slot k) with source := some (.account i) } := by
  have hslot := paidState_slot i k s
  rw [sourcedState, State.modSlot, hslot]
  exact setSlot_setSlot _ k _ _

theorem sourcedState_available {i : AccountId} {k : SlotId} {s : State} (h : (s.account i).enabled = true) :
    (sourcedState i k s).available (.account i) = (s.account i).remainingWh := by
  have haccount := sourcedState_account i k s
  rw [available_account (by rw [haccount]; exact h), haccount]

/-- A first block drawn from an account with energy. -/
theorem firstBlock_energy {i : AccountId} {k : SlotId} {s : State} (henabled : (s.account i).enabled = true)
    (hallowance : 0 < (s.account i).allowanceWh) (hremaining : 0 < (s.account i).remainingWh) :
    let w := min s.cs.blockSize (s.account i).remainingWh
    firstBlock i k s = (s.setAccount i { s.account i with
        holders := (s.account i).holders + 1, remainingWh := (s.account i).remainingWh - w }).setSlot k
      { paidSlot i (s.account i).cls (s.slot k) with
        source := some (.account i), blockLeft := w * 1000, finalBlock := decide ((s.account i).remainingWh = w) } := by
  intro w
  have havail := sourcedState_available (k := k) henabled
  have hslot := sourcedState_slot i k s
  have haccount := sourcedState_account i k s
  rw [firstBlock_withAllowance hallowance, draw_energy (src := .account i) (by rw [hslot]) (by rw [havail]; exact hremaining),
    havail, beq_nat_decide]
  simp only [takeFrom, State.modSlot, State.modAccount, setAccount_slot, hslot, haccount]
  rw [sourcedState_eq]
  change (((s.setAccount i _).setAccount i _).setSlot k _).setSlot k _ = _
  rw [setAccount_setAccount, setSlot_setSlot]
  rfl

/-- A first block found exhausted: the account as it was, and one notice (R135). -/
theorem firstBlock_exhausted {i : AccountId} {k : SlotId} {s : State} (hallowance : 0 < (s.account i).allowanceWh)
    (hremaining : (s.account i).remainingWh = 0) (hblock : (s.slot k).blockLeft = 0) :
    firstBlock i k s = countNotice .accountExhausted i.val 0 ((s.setAccount i (s.account i)).setSlot k
      { paidSlot i (s.account i).cls (s.slot k) with
        accountHold := false, source := none, blockLeft := 0, finalBlock := false }) := by
  have hslot := sourcedState_slot i k s
  have haccount := sourcedState_account i k s
  have hunavailable : ¬0 < (sourcedState i k s).available (.account i) := by
    simp only [State.available, haccount, hremaining, ite_self]
    decide
  have hreleased : releaseSource k (sourcedState i k s) = (s.setAccount i (s.account i)).setSlot k
      { paidSlot i (s.account i).cls (s.slot k) with
        accountHold := false, source := none, blockLeft := 0, finalBlock := false } := by
    rw [releaseSource_account_held (i := i) (by rw [hslot]) (by rw [hslot]; rfl) (by rw [hslot]; rfl), haccount, hslot,
      sourcedState_eq]
    have hback : min (s.account i).allowanceWh ((s.account i).remainingWh + (s.slot k).blockLeft / 1000)
        = (s.account i).remainingWh := by
      rw [hremaining, hblock]
      omega
    change ((((s.setAccount i _).setAccount i { s.account i with
      remainingWh := min (s.account i).allowanceWh ((s.account i).remainingWh + (s.slot k).blockLeft / 1000) }).setSlot k _).setSlot
        k _) = _
    rw [setAccount_setAccount, setSlot_setSlot, hback]
    rfl
  rw [firstBlock_withAllowance hallowance, draw_exhausted (src := .account i) (by rw [hslot]) hunavailable, exhaust_eq, if_neg]
  · rw [hreleased]
    rfl
  · rintro ⟨hunpaid, -⟩
    rw [countExhausted_slot, hreleased, slot_setSlot_same] at hunpaid
    cases hunpaid

end Sys2Proof.Machine
end

section
/-! # Attach and receipt scans (R113 to R116) -/

namespace Sys2Proof.Machine

/-! ## Attach (R114) -/

/-- The records with the one of a key HELD by a session, its first block taken (R114, R133). -/
def heldCredit (k : SlotId) (w : Nat) (c : Credit) : Credit :=
  { c with state := .held, holder := some k, remainingWh := c.remainingWh - w }

/-- The session that a record is attached to, with its first block. -/
def attachedSlot (key w : Nat) (final : Bool) (x : Slot) : Slot :=
  { x with source := some (.credit key), lastCreditKey := some key, blockLeft := w * 1000, finalBlock := final }

/-- The state in which a record with energy has been attached, before the session's authorisation. -/
def attachedState (key w : Nat) (final : Bool) (k : SlotId) (b : BayId) (s : State) : State :=
  ((s.setCredits (updateCredit key (heldCredit k w) s.cs.credits)).setSlot k (attachedSlot key w final (s.slot k))).setBay b
    { s.bay b with message := some ⟨.creditOk, 3, false⟩, scan := .empty }

theorem heldState_available {key : Nat} {k : SlotId} {s : State} {c : Credit}
    (h : s.cs.credits.find? (fun c => c.key == key) = some c) : (heldState key k s).available (.credit key) = c.remainingWh := by
  have hfind : (heldState key k s).cs.credits.find? (fun c => c.key == key) = some { c with state := .held, holder := some k } := by
    change (updateCredit key (fun c => { c with state := .held, holder := some k }) s.cs.credits).find? _ = _
    rw [find_updateCredit (f := fun c => { c with state := .held, holder := some k }) (fun _ => rfl), h]
    rfl
  simp only [State.available, hfind]

/-- The block of a record taken as it is joined is one rewrite of the record. -/
theorem takeFrom_heldState (w key : Nat) (k : SlotId) (s : State) : takeFrom w (heldState key k s) (.credit key) =
    (s.setCredits (updateCredit key (heldCredit k w) s.cs.credits)).setSlot k (joinedSlot key (s.slot k)) := by
  have hcredits := updateCredit_updateCredit key (fun c => { c with state := .held, holder := some k })
    (fun c => { c with remainingWh := c.remainingWh - w }) (fun _ => rfl) s.cs.credits
  change (s.setCredits (updateCredit key (fun c => { c with remainingWh := c.remainingWh - w })
    (updateCredit key (fun c => { c with state := .held, holder := some k }) s.cs.credits))).setSlot k _ = _
  rw [hcredits]
  rfl

theorem attach_energy {key : Nat} {k : SlotId} {b : BayId} {s : State} {c : Credit}
    (h : s.cs.credits.find? (fun c => c.key == key) = some c) (hremaining : 0 < c.remainingWh) :
    attach key k b s = authoriseIfOpening k (attachedState key (min s.cs.blockSize c.remainingWh)
      (decide (c.remainingWh = min s.cs.blockSize c.remainingWh)) k b s) := by
  have havail := heldState_available (k := k) h
  have hsize : (heldState key k s).cs.blockSize = s.cs.blockSize := rfl
  have hslot := heldState_slot key k s
  rw [attach_eq, draw_energy (src := .credit key) (by rw [hslot]; rfl) (by rw [havail]; exact hremaining), havail, hsize,
    beq_nat_decide, attached_bay, takeFrom_heldState, State.modSlot, slot_setSlot_same, setSlot_setSlot]
  rfl

/-! ## Receipt scans (R113, R115, R116) -/

theorem takeScan_receipt_ending {b : BayId} {k : SlotId} {s : State} (key : Nat) (hlive : s.liveSlot b = some k)
    (hstate : (s.slot k).state = .ending) : takeScan ⟨.receipt, key⟩ b s = setMessage b .creditNotValid s := by
  simp only [takeScan, hlive, hstate, if_true]

theorem takeScan_receipt {b : BayId} {k : SlotId} {s : State} (key : Nat) (hlive : s.liveSlot b = some k)
    (hstate : (s.slot k).state ≠ .ending) : takeScan ⟨.receipt, key⟩ b s = takeReceiptScan key k b s := by
  simp only [takeScan, hlive, hstate, if_false]

theorem takeReceiptScan_sourced {key : Nat} {k : SlotId} {b : BayId} {s : State} (h : (s.slot k).source ≠ none) :
    takeReceiptScan key k b s = refuseReceipt b .creditInUse s := if_pos (Option.isSome_iff_ne_none.mpr h)

theorem takeReceiptScan_account {key : Nat} {k : SlotId} {b : BayId} {s : State} (hsource : (s.slot k).source = none)
    (hpayment : (s.slot k).payment = .account) : takeReceiptScan key k b s = refuseReceipt b .creditNotValid s :=
  (if_neg (by rw [hsource]; decide)).trans (if_pos hpayment)

/-- The scan of a session without a source goes by the record of its key (R113). -/
theorem takeReceiptScan_looksUp {key : Nat} {k : SlotId} {b : BayId} {s : State} (hsource : (s.slot k).source = none)
    (hpayment : (s.slot k).payment ≠ .account) :
    (∀ c, lookupCredit key s = some c → c.state = .held → takeReceiptScan key k b s = refuseReceipt b .creditInUse s)
      ∧ (∀ c, lookupCredit key s = some c → c.state = .issued → takeReceiptScan key k b s = attach key k b s)
      ∧ (lookupCredit key s = none → takeReceiptScan key k b s = makePending key b s) := by
  have hsome : ¬(s.slot k).source.isSome = true := by rw [hsource]; decide
  refine ⟨fun c hc hstate => ?_, fun c hc hstate => ?_, fun hnone => ?_⟩
  · simp [takeReceiptScan, hsome, hpayment, hc, hstate]
  · simp [takeReceiptScan, hsome, hpayment, hc, hstate]
  · simp [takeReceiptScan, hsome, hpayment, hnone]

theorem find_of_lookup {key : Nat} {s : State} {c : Credit} (h : lookupCredit key s = some c) :
    s.cs.credits.find? (fun c => c.key == key) = some c := by
  unfold lookupCredit at h
  split at h
  · cases h
  · exact h

/-- Settles O44: authorisation, then each kind of scan by what it finds. -/
theorem cardsAndScansTaken : Obligations.CardsAndScansTaken := by
  refine ⟨?_, fun x y => ?_, ?_, ?_, fun b s => ⟨rfl, fun sc => rfl⟩, fun sc b s hlive => takeScan_unplugged sc hlive, ?_, ?_⟩
  · intro k s x t
    refine ⟨authoriseIfOpening_same, fun hstate => ?_⟩
    intro shed joined member
    have ht : t = authorise k s := authoriseIfOpening_opening hstate
    rw [ht]
    have hsame := (authorise_edits k s).untouched
    obtain ⟨harrival, hsequence⟩ := authorise_counters k s
    obtain ⟨hbays, hcs⟩ := authorise_tables k s
    obtain ⟨before, behind, hqueue, hinsert, hafter, hhead⟩ := insertMember_split member s.al.queue
    exact ⟨fun hshed => authorise_slot_shed (heldByShed_iff.mpr hshed),
      fun hfree => authorise_slot_waiting fun hheld => hfree (heldByShed_iff.mp hheld), harrival, hsequence,
      ⟨before, behind, hqueue, (authorise_queue k s).trans hinsert, hafter, hhead⟩, authorise_asked k s, hsame.results,
      fun j hj => authorise_slot_ne s hj, hbays, hsame.sc, hsame.flc, hcs, hsame.tc, authorise_hp k s⟩
  · simp [Member.before]
  · intro k s x t reached
    refine ⟨fun hreached honline => ?_, fun hreached honline => ?_, testSpendCap_kept⟩
    · rw [show t = _ from testSpendCap_reached hreached]
      exact enterEnding_entered k .capReached s honline
    · rw [show t = _ from testSpendCap_reached hreached]
      exact enterEnding_lost k .capReached s hreached.2.1 honline
  · intro b k r s x
    refine ⟨fun cap hcard hlive hcap hpayment => (stepCard_card hcard hlive).trans (takeCard_taken hcap hpayment), ?_⟩
    rintro (hnone | hzero | hnone | ⟨hlive, hpayment⟩)
    · exact stepCard_none (.inl hnone)
    · cases hlive : s.liveSlot b with
      | none => exact stepCard_none (.inr hlive)
      | some j => exact (stepCard_card hzero hlive).trans (takeCard_refused (.inl rfl))
    · exact stepCard_none (.inr hnone)
    · cases hcard : r.cardCap with
      | none => exact stepCard_none (.inl hcard)
      | some cap => exact (stepCard_card hcard hlive).trans (takeCard_refused (.inr hpayment))
  · intro key b k s hlive x t shows
    have ht : t = takeToken key k b s := takeScan_token key hlive
    rw [ht]
    refine ⟨fun hbad => takeToken_notValid (hbad.imp_right findToken_none), ?_⟩
    intro i hinv hstate hkey henabled htoken a paid y w
    have hpaid : paid = paidSlot i a.cls x := by
      simp only [paid, paidSlot]
      cases a.cls <;> rfl
    clear_value paid
    subst hpaid
    have htaken := takeToken_account (b := b) hstate (findToken_some hinv hkey henabled htoken)
    have haccepted : a.holders < a.maxHolders → takeToken key k b s = authoriseIfOpening k
        ((firstBlock i k s).setBay b { (firstBlock i k s).bay b with scan := .empty, message := some ⟨.creditOk, 3, false⟩ }) := by
      intro hfree
      rw [htaken, if_pos hfree, acceptToken_eq, accepted_bay]
    refine ⟨fun hfull => htaken.trans (if_neg (not_lt.mpr hfull)), fun hfree hzero => ?_, fun hfree hremaining => ?_,
      fun hfree hallowance hempty hblock => ?_⟩
    · rw [haccepted hfree, firstBlock_withoutAllowance hzero]
      rfl
    · have hallowance : 0 < a.allowanceWh := lt_of_lt_of_le hremaining (hinv.1 i).1
      rw [haccepted hfree, firstBlock_energy henabled hallowance hremaining]
      rfl
    · have hfirst := firstBlock_exhausted hallowance hempty hblock
      refine ⟨_, haccepted hfree, ?_, ?_, ?_, ?_, ?_, ?_, ?_, ?_, ?_⟩
      · rw [bay_setBay_same, hfirst]
        rfl
      · rw [setBay_account, hfirst]
        exact account_setAccount_same s i (s.account i)
      · rw [setBay_slot, hfirst, countNotice_slot, slot_setSlot_same]
      · rw [hfirst]
        exact counted_countNotice _ _ _ _
      · rw [hfirst]
        exact countNotice_attn _ _ _ _
      · rw [hfirst]
        rfl
      · rw [hfirst]
        rfl
      · intro j hj
        rw [setBay_account, hfirst]
        exact account_setAccount_ne s _ hj
      · have hat : At k b s (firstBlock i k s) := by
          rw [hfirst]
          exact ((At.ofRecords (s := s) (t := s.setAccount i (s.account i)) rfl rfl).trans (At.setSlot _ _ _ _)).trans
            (At.notice _ _ _ _ _ _)
        refine (hat.trans (At.setBay _ _ _ _)).only ?_
        rw [hfirst]
        constructor <;> rfl
  · intro key b k s hlive x y t ends
    refine ⟨fun hstate => takeScan_receipt_ending key hlive hstate, fun hstate hsource => ?_, fun hstate hsource hpayment => ?_,
      fun hstate hsource hpayment => ?_⟩
    · exact (takeScan_receipt key hlive hstate).trans ((takeReceiptScan_sourced hsource).trans (refuseReceipt_eq _ _ _))
    · exact (takeScan_receipt key hlive hstate).trans ((takeReceiptScan_account hsource hpayment).trans (refuseReceipt_eq _ _ _))
    · have ht : t = takeReceiptScan key k b s := takeScan_receipt key hlive hstate
      obtain ⟨hheld, hissued, hpending⟩ := takeReceiptScan_looksUp (key := key) (b := b) hsource hpayment
      rw [ht]
      refine ⟨fun c hc hcstate => (hheld c hc hcstate).trans (refuseReceipt_eq _ _ _), fun c hc hcstate hremaining => ?_,
        fun hnone => ?_⟩
      · exact (hissued c hc hcstate).trans (attach_energy (find_of_lookup hc) hremaining)
      · rw [hpending hnone]
        refine ⟨?_, fun c hc => ?_, counted_countNotice _ _ _ _, countNotice_attn _ _ _ _, rfl, rfl, rfl, rfl, rfl, rfl⟩
        · rw [makePending, countNotice_bay, bay_modBay_same]
          simp only [y]
          cases (s.bay b).scan <;> rfl
        · rw [makePending, countNotice_bay]
          exact bay_modBay_ne _ _ hc

end Sys2Proof.Machine
end

section
/-! # ISSUE CREDIT accepted (R112) -/

namespace Sys2Proof.Machine

/-! ## The record issued -/

/-- The record that the payload of an ISSUE CREDIT asks for, on a day (R112). -/
def requestedCredit (p : List Byte) (day : Nat) : Credit :=
  ⟨arg p 0 4, .issued, arg p 4 2, arg p 4 2, (arg p 7 1).testBit 0, day + arg p 6 1, arg p 8 1, none, false, false⟩

theorem issuedCredit_requested (p : List Byte) (day : Nat) : issuedCredit (issueArgs p) day = requestedCredit p day := rfl

/-- The state with the record and before it is attached. -/
def issuedState (p : List Byte) (s : State) : State :=
  s.setCredits (insertCredit (requestedCredit p s.tc.day) s.cs.credits)

theorem issueCreditAct_accepted {p : List Byte} {s : State} (hlen : p.length = 10) (hgood : ¬IssueOutOfRange p)
    (hnew : ∀ c ∈ s.cs.credits, c.key ≠ arg p 0 4) (hroom : s.cs.credits.length < 256) : issueCreditAct p s =
      (⟨.ok, foundFields (attachIssued (arg p 0 4) (issueArgs p).bay (issuedState p s)) (arg p 0 4)⟩,
        attachIssued (arg p 0 4) (issueArgs p).bay (issuedState p s)) := by
  have hvalid : (issueArgs p).valid = true := (issueArgs_valid_iff p).mpr hgood
  have habsent : ¬(lookupCredit (arg p 0 4) s).isSome = true := by
    rw [lookupCredit_isSome_iff s (key_ne_zero_of_inRange hgood)]
    rintro ⟨c, hc, hkey⟩
    exact hnew c hc hkey
  have hcapacity : ¬creditCapacity ≤ s.cs.credits.length := not_le.mpr hroom
  simp [issueCreditAct, hlen, hvalid, habsent, hcapacity]
  exact ⟨rfl, rfl⟩

theorem mem_insertCredit {c d : Credit} {cs : List Credit} : d ∈ insertCredit c cs ↔ d = c ∨ d ∈ cs :=
  (insertCredit_perm c cs).mem_iff.trans List.mem_cons

theorem find_issuedState {p : List Byte} {s : State} (hnew : ∀ c ∈ s.cs.credits, c.key ≠ arg p 0 4) :
    (issuedState p s).cs.credits.find? (fun c => c.key == arg p 0 4) = some (requestedCredit p s.tc.day) :=
  find_insertCredit (requestedCredit p s.tc.day) hnew

/-! ## Whether it is attached -/

theorem attachIssued_bay {key n : Nat} {b : BayId} (s : State) (h : n = b.val) : attachIssued key (some n) s =
    match s.liveSlot b with
    | none => s
    | some k => if (s.bay b).scan.key? = some key then attach key k b s else s := by
  have hindex : index? 48 n = some b := index?_some.mpr h
  simp only [attachIssued, Option.bind_some, hindex]
  cases s.liveSlot b <;> rfl

theorem attachIssued_kept {key n : Nat} {b : BayId} {s : State} (h : n = b.val)
    (hscan : s.liveSlot b = none ∨ ∀ n d, (s.bay b).scan ≠ .pending key n d) : attachIssued key (some n) s = s := by
  rw [attachIssued_bay s h]
  cases hlive : s.liveSlot b with
  | none => rfl
  | some k =>
    have hkey : ¬(s.bay b).scan.key? = some key := by
      rw [ScanSlot.key?_eq_some_iff]
      rintro ⟨n, d, hpending⟩
      rcases hscan with hnone | hscan
      · rw [hnone] at hlive
        cases hlive
      · exact hscan n d hpending
    exact if_neg hkey

theorem attachIssued_attach {key n m d : Nat} {b : BayId} {k : SlotId} {s : State} (h : n = b.val)
    (hscan : (s.bay b).scan = .pending key m d) (hlive : s.liveSlot b = some k) :
    attachIssued key (some n) s = attach key k b s := by
  rw [attachIssued_bay s h, hlive]
  exact if_pos (ScanSlot.key?_eq_some_iff.mpr ⟨m, d, hscan⟩)

/-! ## The attached record and its answer -/

/-- An authorisation leaves what an answer says of a credit's holder. -/
theorem authoriseIfOpening_holderFields (k : SlotId) (s : State) :
    holderFields (authoriseIfOpening k s) (some k) = holderFields s (some k) := by
  unfold authoriseIfOpening
  split
  · obtain ⟨st, cause, permit, -, hslot⟩ := authorise_slot k s
    simp only [holderFields, hslot]
  · rfl

theorem authoriseIfOpening_cs (k : SlotId) (s : State) : (authoriseIfOpening k s).cs = s.cs := by
  unfold authoriseIfOpening
  split
  · exact (authorise_tables k s).2
  · rfl

theorem authoriseIfOpening_bays (k : SlotId) (s : State) : (authoriseIfOpening k s).bays = s.bays := by
  unfold authoriseIfOpening
  split
  · exact (authorise_tables k s).1
  · rfl

theorem authoriseIfOpening_hp (k : SlotId) (s : State) : (authoriseIfOpening k s).hp = s.hp := by
  unfold authoriseIfOpening
  split
  · exact authorise_hp k s
  · rfl

theorem find_attachedState {key w : Nat} {final : Bool} {k : SlotId} {b : BayId} {s : State} {c : Credit}
    (h : s.cs.credits.find? (fun c => c.key == key) = some c) :
    (attachedState key w final k b s).cs.credits.find? (fun c => c.key == key) = some (heldCredit k w c) := by
  change (updateCredit key (heldCredit k w) s.cs.credits).find? _ = _
  rw [find_updateCredit (f := heldCredit k w) (fun _ => rfl), h]
  rfl

theorem attachedState_slot (key w : Nat) (final : Bool) (k : SlotId) (b : BayId) (s : State) :
    (attachedState key w final k b s).slot k = attachedSlot key w final (s.slot k) := slot_setSlot_same _ _ _

theorem attachedState_bay (key w : Nat) (final : Bool) (k : SlotId) (b : BayId) (s : State) :
    (attachedState key w final k b s).bay b = { s.bay b with message := some ⟨.creditOk, 3, false⟩, scan := .empty } :=
  bay_setBay_same _ _ _

theorem attachedState_at (key w : Nat) (final : Bool) (k : SlotId) (b : BayId) (s : State) :
    At k b s (attachedState key w final k b s) :=
  ((At.ofRecords (s := s) (t := s.setCredits (updateCredit key (heldCredit k w) s.cs.credits)) rfl rfl).trans
    (At.setSlot _ _ _ _)).trans (At.setBay _ _ _ _)

theorem foundFields_of {s : State} {key : Nat} {c : Credit} (hkey : key ≠ 0)
    (h : s.cs.credits.find? (fun c => c.key == key) = some c) : foundFields s key = creditFields s c := by
  have hlookup : lookupCredit key s = some c := (if_neg hkey).trans h
  simp only [foundFields, hlookup]

theorem presence_single (b : Bool) : presence [b] = [u1 b.toNat] := by
  cases b <;> rfl

/-- The answer about a record of its own state and holder, as Table 11-9 gives it. -/
theorem creditFields_eq (s : State) (c : Credit) : creditFields s c =
    [u1 c.holder.isSome.toNat, u4 c.key, u1 c.state.code, u2 c.originalWh, u2 c.remainingWh, flag c.solarOnly, u2 c.expiryDay,
      u1 c.till, optional 1 (c.holder.map (·.val)), flag c.voided, flag c.expired] ++ holderFields s c.holder := by
  rw [creditFields, presence_single]
  rfl

/-- A record issued for the bay whose scan slot asked for it is attached with its first block. -/
theorem attachIssued_issued {p : List Byte} {s : State} {b : BayId} {k : SlotId} {n d : Nat}
    (hnew : ∀ c ∈ s.cs.credits, c.key ≠ arg p 0 4) (hwh : 0 < arg p 4 2) (hbit : (arg p 7 1).testBit 1 = true)
    (hb : arg p 9 1 = b.val) (hscan : (s.bay b).scan = .pending (arg p 0 4) n d) (hlive : s.liveSlot b = some k) :
    attachIssued (arg p 0 4) (issueArgs p).bay (issuedState p s) = authoriseIfOpening k
      (attachedState (arg p 0 4) (min s.cs.blockSize (arg p 4 2)) (decide (arg p 4 2 ≤ min s.cs.blockSize (arg p 4 2))) k b
        (issuedState p s)) := by
  have hbay : (issueArgs p).bay = some (arg p 9 1) := if_pos hbit
  have hremaining : (requestedCredit p s.tc.day).remainingWh = arg p 4 2 := rfl
  have hsize : (issuedState p s).cs.blockSize = s.cs.blockSize := rfl
  have hattach := attach_energy (k := k) (b := b) (find_issuedState hnew) (by rw [hremaining]; exact hwh)
  rw [hremaining, hsize] at hattach
  have hfinal : (arg p 4 2 = min s.cs.blockSize (arg p 4 2)) ↔ arg p 4 2 ≤ min s.cs.blockSize (arg p 4 2) := by omega
  rw [hbay, attachIssued_attach (s := issuedState p s) hb hscan hlive, hattach, decide_eq_decide.mpr hfinal]

/-- A pass asked for since a state with the same AL. -/
theorem PassAsked.of_al {s u v : State} (h : PassAsked u v) (hal : u.al = s.al) : PassAsked s v := by
  unfold PassAsked at h ⊢
  rw [← hal]
  exact h

/-- What is left where a record issued has been attached and its session not yet authorised. -/
structure IssuedAttached (p : List Byte) (w : Nat) (final : Bool) (k : SlotId) (b : BayId) (s u : State) : Prop where
  credit : u.cs.credits.find? (fun c => c.key == arg p 0 4) = some (heldCredit k w (requestedCredit p s.tc.day))
  others : ∀ c, c.key ≠ arg p 0 4 → (c ∈ u.cs.credits ↔ c ∈ s.cs.credits)
  cs : u.cs = { s.cs with credits := u.cs.credits }
  slot : u.slot k = attachedSlot (arg p 0 4) w final (s.slot k)
  bay : u.bay b = { s.bay b with message := some ⟨.creditOk, 3, false⟩, scan := .empty }
  at_ : At k b s u
  same : Untouched s u
  al : u.al = s.al
  hp : u.hp = s.hp

theorem issuedAttached {p : List Byte} {s : State} (hnew : ∀ c ∈ s.cs.credits, c.key ≠ arg p 0 4) (w : Nat) (final : Bool)
    (k : SlotId) (b : BayId) :
    IssuedAttached p w final k b s (attachedState (arg p 0 4) w final k b (issuedState p s)) := by
  refine ⟨find_attachedState (find_issuedState hnew), fun c hc => ?_, rfl, attachedState_slot .., attachedState_bay ..,
    (At.ofRecords (s := s) (t := issuedState p s) rfl rfl).trans (attachedState_at ..), by constructor <;> rfl, rfl, rfl⟩
  refine (mem_updateCredit_ne (f := heldCredit k w) (fun _ => rfl) hc).trans ?_
  refine mem_insertCredit.trans (or_iff_right ?_)
  rintro rfl
  exact hc rfl

theorem IssuedAttached.fields {p : List Byte} {w : Nat} {final : Bool} {k : SlotId} {b : BayId} {s u : State}
    (h : IssuedAttached p w final k b s u) (hkey : arg p 0 4 ≠ 0) :
    foundFields (authoriseIfOpening k u) (arg p 0 4) =
      [u1 1, u4 (arg p 0 4), u1 1, u2 (arg p 4 2), u2 (arg p 4 2 - w), flag ((arg p 7 1).testBit 0), u2 (s.tc.day + arg p 6 1),
        u1 (arg p 8 1), u1 k.val, u1 0, u1 0, u2 (s.slot k).sequence, u1 (s.slot k).bay.val, u8 (w * 1000), flag final] := by
  have hfind : (authoriseIfOpening k u).cs.credits.find? (fun c => c.key == arg p 0 4)
      = some (heldCredit k w (requestedCredit p s.tc.day)) := by
    rw [authoriseIfOpening_cs]
    exact h.credit
  have hholder : (heldCredit k w (requestedCredit p s.tc.day)).holder = some k := rfl
  rw [foundFields_of hkey hfind, creditFields_eq, hholder, authoriseIfOpening_holderFields, holderFields, h.slot]
  rfl

/-- Settles O23: the record alone, or attached to the session whose scan slot asked for it. -/
theorem issueCreditAccepted : Obligations.IssueCreditAccepted := by
  intro p f s hp h hlen hkeyne hwh1 hwh2 hvalidity htill1 htill2 hbayrange hnew hroom key wh solar day till new
  have hgood : ¬IssueOutOfRange p := by
    rintro (hc | hc | hc | hc | hc | hc | ⟨hbit, hc⟩)
    · exact hkeyne hc
    · omega
    · omega
    · omega
    · omega
    · omega
    · have := hbayrange hbit
      omega
  have hact := issueCreditAct_accepted hlen hgood hnew hroom
  have hfind := find_issuedState (p := p) hnew
  refine ⟨fun hkept => ?_, fun b k n d hbit hb hscan hlive => ?_⟩
  · have hissued : attachIssued (arg p 0 4) (issueArgs p).bay (issuedState p s) = issuedState p s := by
      rcases hkept with hbit | ⟨b, hb, hscan⟩
      · have hbay : (issueArgs p).bay = none := if_neg (by rw [hbit]; decide)
        rw [hbay]
        rfl
      · cases hbit : (arg p 7 1).testBit 1 with
        | false =>
          have hbay : (issueArgs p).bay = none := if_neg (by rw [hbit]; decide)
          rw [hbay]
          rfl
        | true =>
          have hbay : (issueArgs p).bay = some (arg p 9 1) := if_pos hbit
          rw [hbay]
          exact attachIssued_kept (s := issuedState p s) hb hscan
    rw [hissued, foundFields_of hkeyne hfind, creditFields_eq] at hact
    exact ⟨_, (exec_issueCredit p s).trans (serve_answered _ h hact rfl hp), fun c => mem_insertCredit, rfl⟩
  · intro x block held
    have hattach := attachIssued_issued hnew hwh1 hbit hb hscan hlive
    have hattached := issuedAttached hnew block (decide (wh ≤ block)) k b
    have hpayload := hattached.fields hkeyne
    generalize attachedState (arg p 0 4) (min s.cs.blockSize (arg p 4 2)) (decide (arg p 4 2 ≤ min s.cs.blockSize (arg p 4 2))) k b
      (issuedState p s) = u at hattach hattached hpayload
    obtain ⟨hcredit, hothers, hcs, hslot, hbayrec, hat, hsame, hal, hhp⟩ := hattached
    rw [hattach, hpayload] at hact
    have hexec := (exec_issueCredit p s).trans (serve_completed h hact)
    have hvcs := authoriseIfOpening_cs k u
    have hvbays := authoriseIfOpening_bays k u
    have hvhp := (authoriseIfOpening_hp k u).trans hhp
    have hvsame := hsame.trans (authoriseIfOpening_edits k u).untouched
    refine ⟨_, hexec, ?_, fun c hc => ?_, ?_, ?_, ?_, fun hstate => ?_, fun hstate => ?_⟩
    · refine (if_neg hkeyne).trans ?_
      rw [completed_cs, answer_cs, hvcs]
      exact hcredit
    · rw [completed_cs, answer_cs, hvcs]
      exact hothers c hc
    · rw [completed_cs, answer_cs, hvcs]
      exact hcs
    · rw [completed_bay, answer_bay, State.bay, hvbays]
      exact hbayrec
    · have hport := answer_port f ⟨.ok, [u1 1, u4 key, u1 1, u2 wh, u2 (wh - block), flag solar, u2 day, u1 till, u1 k.val, u1 0,
        u1 0, u2 x.sequence, u1 x.bay.val, u8 (block * 1000), flag (decide (wh ≤ block))]⟩ s (authoriseIfOpening k u)
        hvsame.freeDraws
      rw [completed_hp, ← hvhp, ← hport]
      rfl
    · have hkept : authoriseIfOpening k u = u := authoriseIfOpening_same (by rw [hslot]; exact hstate)
      rw [hkept]
      refine ⟨?_, completed_answer_al hp hal f _, ((hat.only hsame).answer f _).completed⟩
      rw [completed_slot, answer_slot]
      exact hslot
    · intro shed joined member place
      have hauthorised : authoriseIfOpening k u = authorise k u := authoriseIfOpening_opening (by rw [hslot]; exact hstate)
      have hheld : u.heldByShed (u.slot k).cls = s.heldByShed x.cls := by
        rw [hslot]
        simp only [State.heldByShed, State.shedActive, hsame.sc]
        rfl
      have hjoins : (⟨k, (u.slot k).cls, u.st.arrival, 0⟩ : Member) = member := by
        rw [hslot, hat.arrival]
        rfl
      rw [hauthorised] at hvsame hvbays ⊢
      have hresults := hvsame.results
      obtain ⟨harrival, hsequence⟩ := authorise_counters k u
      obtain ⟨before, behind, hqueue, hinsert, hafter, hhead⟩ := insertMember_split member s.al.queue
      refine ⟨fun hshed => ?_, fun hfree => ?_, ?_, ?_, ⟨before, behind, hqueue, ?_, hafter, hhead⟩,
        PassAsked.completed hp ((authorise_asked k u).of_al hal), ?_, fun j hj => ?_, fun c hc => ?_, ?_, ?_, ?_, ?_, ?_⟩
      · rw [completed_slot, answer_slot, authorise_slot_shed (by rw [hheld]; exact heldByShed_iff.mpr hshed), hslot, hat.arrival]
        rfl
      · rw [completed_slot, answer_slot, authorise_slot_waiting (by rw [hheld]; exact fun hs => hfree (heldByShed_iff.mp hs)),
          hslot, hat.arrival]
        rfl
      · rw [completed_st, answer_st, harrival, hat.arrival]
        rfl
      · rw [completed_st, answer_st, hsequence, hat.sequence]
      · obtain ⟨g, hg, hcompleted⟩ := completed_members (answer f ⟨.ok, foundFields (authoriseIfOpening k u) (arg p 0 4)⟩
          (authorise k u))
        have hplaces : place ∘ g = place := by
          funext m
          obtain ⟨hgslot, hgcls, hgarrival⟩ := hg m
          simp only [place, Function.comp_apply, hgslot, hgcls, hgarrival]
        rw [hpayload] at hcompleted
        rw [hcompleted, List.map_map, hplaces, answer_al, authorise_queue, hjoins, hal, hinsert]
      · refine ResultsKept.completed ?_
        exact hresults
      · rw [completed_slot, answer_slot, authorise_slot_ne u hj, hat.slots j hj]
      · rw [completed_bay, answer_bay, State.bay, hvbays]
        exact hat.bays c hc
      · exact (completed_sc _).trans hvsame.sc
      · exact (completed_flc _).trans hvsame.flc
      · exact (completed_tc _).trans hvsame.tc
      · exact (completed_runTimer _).trans hvsame.runTimer
      · exact (completed_pending _).trans hvsame.pending

end Sys2Proof.Machine
end

section
/-! # One session cleared: its slot, its bay, and what it returns to CS (R56, R66, R123, R128, R137) -/

namespace Sys2Proof.Machine

/-! ## A release, said once for the slot, the credits and the accounts -/

/-- A slot after its holdings are released. -/
def releasedSlot (x : Slot) : Slot :=
  match x.source with
  | none => { x with accountHold := false }
  | some (.credit _) => clearedSource x
  | some (.account _) => { clearedSource x with accountHold := false }

theorem releaseHoldings_slot_eq (k : SlotId) (s : State) : (releaseHoldings k s).slot k = releasedSlot (s.slot k) := by
  unfold releasedSlot
  split
  · next hsource => rw [releaseHoldings_hold hsource, endHold_slot]
  · next key hsource =>
    rw [releaseHoldings_source (by rw [hsource]; simp), releaseSource_credit hsource]
    simp only [State.slot, releaseCredit_st]
    exact slot_modSlot_same s k clearedSource
  · next i hsource =>
    rw [releaseHoldings_source (by rw [hsource]; simp), releaseSource_account hsource, endHold_slot, modAccount_slot,
      slot_modSlot_same]

/-- The whole Wh of a session's open block (R137). -/
def Slot.wholeWh (x : Slot) : Nat := x.blockLeft / 1000

/-- The records after one of them takes back r Wh (R123). -/
def creditsReleased (key r : Nat) (cs : List Credit) : List Credit :=
  match cs.find? fun c => c.key == key with
  | none => cs
  | some c =>
    if 0 < c.remainingWh + r ∧ c.voided = false ∧ c.expired = false then
      updateCredit key (fun c => { c with state := .issued, remainingWh := c.remainingWh + r, holder := none }) cs
    else removeCredit key cs

theorem releaseCredit_credits (key r : Nat) (s : State) :
    (releaseCredit key r s).cs.credits = creditsReleased key r s.cs.credits := by
  unfold releaseCredit creditsReleased
  cases hfound : s.cs.credits.find? fun c => c.key == key with
  | none => rfl
  | some c =>
    dsimp only
    split <;> rfl

theorem releaseCredit_account (key r : Nat) (s : State) (i : AccountId) : (releaseCredit key r s).account i = s.account i := by
  unfold releaseCredit
  split
  · rfl
  · split <;> rfl

theorem releaseHoldings_credits_credit {k : SlotId} {s : State} {key : Nat} (h : (s.slot k).source = some (.credit key)) :
    (releaseHoldings k s).cs.credits = creditsReleased key (s.slot k).wholeWh s.cs.credits := by
  rw [releaseHoldings_source (by rw [h]; simp), releaseSource_credit h, releaseCredit_credits]
  rfl

theorem releaseHoldings_credits_kept {k : SlotId} {s : State} (h : ∀ key, (s.slot k).source ≠ some (.credit key)) :
    (releaseHoldings k s).cs.credits = s.cs.credits := by
  cases hsource : (s.slot k).source with
  | none => rw [releaseHoldings_hold hsource, endHold_credits]
  | some src =>
    cases src with
    | credit key => exact absurd hsource (h key)
    | account i =>
      rw [releaseHoldings_source (by rw [hsource]; simp), releaseSource_account hsource, endHold_credits]
      rfl

/-- The session holds account i. -/
def Slot.holdsAccount (i : AccountId) (x : Slot) : Bool := x.accountHold && x.accountIndex == some i

/-- The session's allowance source is a credit. -/
def Slot.onCredit (x : Slot) : Bool :=
  match x.source with
  | some (.credit _) => true
  | _ => false

theorem Slot.onCredit_false {x : Slot} : x.onCredit = false ↔ ∀ key, x.source ≠ some (.credit key) := by
  unfold Slot.onCredit
  split
  · next key hsource => simp [hsource]
  · next hsource => simp only [true_iff]; exact hsource

/-- The release of a session's holdings ends its hold on account i (R128, R160). -/
def Slot.endsHold (i : AccountId) (x : Slot) : Bool := x.holdsAccount i && !x.onCredit

theorem Slot.endsHold_iff {i : AccountId} {x : Slot} : x.endsHold i = true ↔
    x.accountHold = true ∧ x.accountIndex = some i ∧ ∀ key, x.source ≠ some (.credit key) := by
  rw [Slot.endsHold, Slot.holdsAccount, Bool.and_eq_true_iff, Bool.and_eq_true_iff, beq_iff_eq, Bool.not_eq_true',
    Slot.onCredit_false, and_assoc]

theorem endHold_account (k : SlotId) (s : State) (i : AccountId) : (endHold k s).account i =
    { s.account i with holders := (s.account i).holders - ((s.slot k).holdsAccount i).toNat } := by
  cases hhold : (s.slot k).accountHold with
  | false =>
    have hnot : (s.slot k).holdsAccount i = false := by rw [Slot.holdsAccount, hhold]; rfl
    rw [endHold_none hhold, hnot]
    rfl
  | true =>
    cases hindex : (s.slot k).accountIndex with
    | none =>
      have hnot : (s.slot k).holdsAccount i = false := by rw [Slot.holdsAccount, hindex, hhold]; rfl
      rw [hnot]
      simp only [endHold, hhold, hindex, if_true]
      rfl
    | some j =>
      rw [endHold_held hhold hindex]
      by_cases hij : i = j
      · subst hij
        have his : (s.slot k).holdsAccount i = true := by rw [Slot.holdsAccount, hindex, hhold]; simp
        rw [account_setAccount_same, his]
        rfl
      · have hnot : (s.slot k).holdsAccount i = false := by
          rw [Slot.holdsAccount, hindex, hhold]
          simpa using fun h => hij h.symm
        rw [account_setAccount_ne _ _ hij, hnot]
        rfl

/-- An account after one session's holdings are released. -/
def releasedAccount (i : AccountId) (x : Slot) (a : Account) : Account :=
  { a with
    holders := a.holders - (x.endsHold i).toNat
    remainingWh := if x.source = some (.account i) then min a.allowanceWh (a.remainingWh + x.wholeWh) else a.remainingWh }

theorem releaseHoldings_account (k : SlotId) (s : State) (i : AccountId) :
    (releaseHoldings k s).account i = releasedAccount i (s.slot k) (s.account i) := by
  unfold releasedAccount Slot.endsHold Slot.onCredit
  cases hsource : (s.slot k).source with
  | none =>
    rw [releaseHoldings_hold hsource, endHold_account]
    simp
  | some src =>
    rw [releaseHoldings_source (by rw [hsource]; simp)]
    cases src with
    | credit key =>
      rw [releaseSource_credit hsource, releaseCredit_account]
      simp
    | account j =>
      rw [releaseSource_account hsource, endHold_account]
      have hslot : (((s.modSlot k clearedSource).modAccount j fun a =>
          { a with remainingWh := min a.allowanceWh (a.remainingWh + (s.slot k).blockLeft / 1000) }).slot k).holdsAccount i
            = (s.slot k).holdsAccount i := by
        rw [modAccount_slot, slot_modSlot_same]
        rfl
      rw [hslot]
      by_cases hij : i = j
      · subst hij
        rw [account_modAccount_same]
        simp [Slot.wholeWh]
      · have hji : ¬some (Source.account j) = some (.account i) := by simpa using fun h => hij h.symm
        rw [State.modAccount, account_setAccount_ne _ _ hij, if_neg hji]
        simp

/-! ## One session cleared (R66) -/

/-- The slot of a session that CLEAR SITE has settled at an instant. -/
def clearedSlot (k : SlotId) (at_ : Stamp) (x : Slot) : Slot :=
  let y := releasedSlot (settledSlot (some .siteClear) at_ x)
  { y with receipt := some (receiptOf k y) }

/-- The bay of a session that CLEAR SITE has settled. -/
def clearedBay (k : SlotId) (y : Bay) : Bay := { bayAfterSettle k (afterByPlug y.plug) y with stopFlag := true }

theorem settledBay_accounts (k : SlotId) (cause : Option EndCause) (after : BayAfter) (s : State) (i : AccountId) :
    (settledBay k cause after s).account i = s.account i := by
  simp only [State.account, settledBay_cs]

theorem settle_slot_eq (k : SlotId) (cause : Option EndCause) (after : BayAfter) (s : State) :
    (settle k cause after s).slot k =
      { releasedSlot (settledSlot cause s.stamp (s.slot k)) with
        receipt := some (receiptOf k (releasedSlot (settledSlot cause s.stamp (s.slot k)))) } := by
  rw [settle_eq, makeReceipt, countNotice_slot, slot_modSlot_same, releaseHoldings_slot_eq, settledBay_slot]

theorem settle_account (k : SlotId) (cause : Option EndCause) (after : BayAfter) (s : State) (i : AccountId) :
    (settle k cause after s).account i = releasedAccount i (s.slot k) (s.account i) := by
  change (releaseHoldings k (settledBay k cause after s)).account i = _
  rw [releaseHoldings_account, settledBay_accounts, settledBay_slot]
  rfl

theorem settle_credits_credit {k : SlotId} {s : State} {key : Nat} (cause : Option EndCause) (after : BayAfter)
    (h : (s.slot k).source = some (.credit key)) :
    (settle k cause after s).cs.credits = creditsReleased key (s.slot k).wholeWh s.cs.credits := by
  have hslot := settledBay_slot k cause after s
  change (releaseHoldings k (settledBay k cause after s)).cs.credits = _
  rw [releaseHoldings_credits_credit (by rw [hslot]; exact h), settledBay_cs, hslot]
  rfl

theorem settle_credits_kept {k : SlotId} {s : State} (cause : Option EndCause) (after : BayAfter)
    (h : ∀ key, (s.slot k).source ≠ some (.credit key)) : (settle k cause after s).cs.credits = s.cs.credits := by
  have hslot := settledBay_slot k cause after s
  change (releaseHoldings k (settledBay k cause after s)).cs.credits = _
  rw [releaseHoldings_credits_kept (by rw [hslot]; exact h), settledBay_cs]

theorem clearSlot_slot (k : SlotId) (s : State) : (clearSlot k s).slot k = clearedSlot k s.stamp (s.slot k) :=
  settle_slot_eq k (some .siteClear) _ s

theorem clearSlot_bay (k : SlotId) (s : State) :
    (clearSlot k s).bay (s.slot k).bay = clearedBay k (s.bay (s.slot k).bay) := by
  rw [clearSlot, bay_modBay_same, settle_bay]
  rfl

theorem clearSlot_bay_ne {k : SlotId} {s : State} {b : BayId} (h : b ≠ (s.slot k).bay) : (clearSlot k s).bay b = s.bay b := by
  rw [clearSlot, bay_modBay_ne _ _ h, (At.settle k _ _ s).bays b h]

theorem clearSlot_account (k : SlotId) (s : State) (i : AccountId) :
    (clearSlot k s).account i = releasedAccount i (s.slot k) (s.account i) := settle_account k _ _ s i

theorem clearSlot_counters (k : SlotId) (s : State) :
    (clearSlot k s).st.sequence = s.st.sequence ∧ (clearSlot k s).st.arrival = s.st.arrival :=
  ⟨(At.settle k _ _ s).sequence, (At.settle k _ _ s).arrival⟩

theorem clearSlot_queue (k : SlotId) (s : State) : (clearSlot k s).al.queue =
    if (s.slot k).state.queued then s.al.queue.filter (fun m => m.slot != k) else s.al.queue := settle_queue k _ _ s

theorem afterByPlug_kinds (plug : Bool) : afterByPlug plug = .idle ∨ afterByPlug plug = .stopped := by
  cases plug
  · exact .inl rfl
  · exact .inr rfl

theorem clearSlot_counted (k : SlotId) (s : State) : Counted .receiptReady k.val 0 s (clearSlot k s) :=
  settle_counted k _ s _ (afterByPlug_kinds _)

theorem clearSlot_attn (k : SlotId) (s : State) : (clearSlot k s).hp.attn = (clearSlot k s).attnDue :=
  (settle_settled k (some .siteClear) (afterByPlug (s.bay (s.slot k).bay).plug) s).attn

theorem clearSlot_asked {k : SlotId} {s : State} (h : (s.slot k).state.queued = true) : PassAsked s (clearSlot k s) := by
  unfold clearSlot
  exact (settle_asked k (some .siteClear) _ s h).edits (modBay_edits _ _ _ fun _ => ⟨rfl, rfl, rfl, rfl, rfl, rfl⟩)

end Sys2Proof.Machine
end

section
/-! # CLEAR SITE (R66, R166) -/

namespace Sys2Proof.Machine

/-! ## Bays cleared -/

/-- A bay that CLEAR SITE has settled a session at, the last of them session k. -/
structure BayCleared (k : SlotId) (y z : Bay) : Prop where
  grantSet : z.grantSet = 0
  stopFlag : z.stopFlag = true
  scan : z.scan = .empty
  lostDeadline : z.lostDeadline = none
  state : z.state = if y.plug then .stopped else .idle
  session : z.session = if y.plug then some k else none

theorem clearedBay_cleared (k : SlotId) {y z : Bay} (hplug : z.plug = y.plug) : BayCleared k y (clearedBay k z) := by
  unfold clearedBay
  cases hz : z.plug <;> rw [hz] at hplug <;> constructor <;> simp [afterByPlug, bayAfterSettle, ← hplug]

theorem clearedBay_kept (k : SlotId) (z : Bay) :
    (clearedBay k z).plug = z.plug ∧ (clearedBay k z).grantAck = z.grantAck := by
  unfold clearedBay
  cases hz : z.plug <;> exact ⟨hz, rfl⟩

/-! ## Records and accounts cleared -/

/-- A record after the sessions of a list have been cleared (R123). -/
def clearedCredit (s : State) (l : List SlotId) (c : Credit) : Option Credit :=
  match c.holder with
  | none => some c
  | some k =>
    if k ∈ l then
      if 0 < c.remainingWh + (s.slot k).wholeWh ∧ c.voided = false ∧ c.expired = false then
        some { c with state := .issued, remainingWh := c.remainingWh + (s.slot k).wholeWh, holder := none }
      else none
    else some c

theorem clearedCredit_key {s : State} {l : List SlotId} {c d : Credit} (h : clearedCredit s l c = some d) : d.key = c.key := by
  unfold clearedCredit at h
  split at h
  · cases h; rfl
  · split at h
    · split at h
      · cases h; rfl
      · cases h
    · cases h; rfl

theorem clearedCredit_kept {s : State} {l : List SlotId} {c : Credit} (h : ∀ k, c.holder = some k → k ∉ l) :
    clearedCredit s l c = some c := by
  unfold clearedCredit
  split
  · rfl
  · next k hk => exact if_neg (h k hk)

theorem clearedCredit_cleared {s : State} {l : List SlotId} {c : Credit} {k : SlotId} (hk : c.holder = some k) (hmem : k ∈ l) :
    clearedCredit s l c =
      if 0 < c.remainingWh + (s.slot k).wholeWh ∧ c.voided = false ∧ c.expired = false then
        some { c with state := .issued, remainingWh := c.remainingWh + (s.slot k).wholeWh, holder := none }
      else none := by
  simp only [clearedCredit, hk, hmem, if_true]

/-- One more session cleared changes the records of its own alone. -/
theorem clearedCredit_append {s : State} {l : List SlotId} {c : Credit} {k : SlotId} (h : c.holder ≠ some k) :
    clearedCredit s (l ++ [k]) c = clearedCredit s l c := by
  unfold clearedCredit
  split
  · rfl
  · next j hj =>
    have hjk : j ≠ k := fun he => h (he ▸ hj)
    simp [List.mem_append, hjk]

/-- A record has a session as its holder only where that session has it as its source. -/
theorem LedgerInv.source_of_holder {s : State} (h : LedgerInv s) {c : Credit} (hc : c ∈ s.cs.credits) {k : SlotId}
    (hk : c.holder = some k) : (s.slot k).source = some (.credit c.key) := by
  cases hstate : c.state with
  | issued =>
    rw [(h.issued c hc hstate).1] at hk
    cases hk
  | held =>
    obtain ⟨j, hj, hsource⟩ := h.holders c hc hstate
    rw [hj] at hk
    cases hk
    exact hsource

theorem find_cleared {s : State} (hcredits : CreditInv s) {l : List SlotId} {c : Credit} (hc : c ∈ s.cs.credits)
    (hkept : clearedCredit s l c = some c) :
    (s.cs.credits.filterMap (clearedCredit s l)).find? (fun d => d.key == c.key) = some c := by
  have hmem : c ∈ s.cs.credits.filterMap (clearedCredit s l) := List.mem_filterMap.mpr ⟨c, hc, hkept⟩
  cases hfound : (s.cs.credits.filterMap (clearedCredit s l)).find? fun d => d.key == c.key with
  | none => exact absurd (beq_self_eq_true c.key) (List.find?_eq_none.mp hfound c hmem)
  | some d =>
    obtain ⟨hd, hkey⟩ := find_credit hfound
    obtain ⟨e, he, hed⟩ := List.mem_filterMap.mp hd
    have hec : e = c := hcredits.unique he hc ((clearedCredit_key hed).symm.trans hkey)
    subst hec
    exact hed.symm.trans hkept

/-- The records after one more session, whose source is a credit, has been cleared. -/
theorem creditsReleased_cleared {s : State} (hcredits : CreditInv s) (hledger : LedgerInv s) {l : List SlotId} {k : SlotId}
    {key : Nat} (hk : k ∉ l) (hsource : (s.slot k).source = some (.credit key)) :
    creditsReleased key (s.slot k).wholeWh (s.cs.credits.filterMap (clearedCredit s l)) =
      s.cs.credits.filterMap (clearedCredit s (l ++ [k])) := by
  obtain ⟨c, hc, rfl, -, hholder⟩ := hledger.held k key hsource
  have hkept : clearedCredit s l c = some c := clearedCredit_kept fun j hj => by
    rw [hholder] at hj
    cases hj
    exact hk
  have hown := clearedCredit_cleared (s := s) (l := l ++ [k]) hholder (by simp)
  have hother : ∀ d ∈ s.cs.credits, d.key ≠ c.key → clearedCredit s (l ++ [k]) d = clearedCredit s l d := by
    intro d hd hkey
    refine clearedCredit_append fun hdk => hkey ?_
    have hsame := hledger.source_of_holder hd hdk
    rw [hsource, Option.some_inj, Source.credit.injEq] at hsame
    exact hsame.symm
  have hkeys : ∀ d ∈ s.cs.credits, ∀ e, clearedCredit s l d = some e → (e.key = c.key ↔ d = c) := by
    intro d hd e he
    rw [clearedCredit_key he]
    exact ⟨fun hkey => hcredits.unique hd hc hkey, fun heq => heq ▸ rfl⟩
  unfold creditsReleased
  rw [find_cleared hcredits hc hkept]
  dsimp only
  split
  · next hissues =>
    rw [if_pos hissues] at hown
    rw [updateCredit, List.map_filterMap]
    refine List.filterMap_congr fun d hd => ?_
    by_cases hdc : d = c
    · subst hdc
      rw [hkept, hown]
      exact congrArg some (if_pos rfl)
    · rw [hother d hd fun hkey => hdc (hcredits.unique hd hc hkey)]
      cases he : clearedCredit s l d with
      | none => rfl
      | some e => exact congrArg some (if_neg fun hkey => hdc ((hkeys d hd e he).mp hkey))
  · next hretires =>
    rw [if_neg hretires] at hown
    rw [removeCredit, List.filter_filterMap]
    refine List.filterMap_congr fun d hd => ?_
    by_cases hdc : d = c
    · subst hdc
      rw [hkept, hown]
      simp
    · rw [hother d hd fun hkey => hdc (hcredits.unique hd hc hkey)]
      cases he : clearedCredit s l d with
      | none => rfl
      | some e =>
        have hne : e.key ≠ c.key := fun hkey => hdc ((hkeys d hd e he).mp hkey)
        simp [hne]

/-- The sessions of a list that end a hold on account i. -/
def endingHolds (s : State) (i : AccountId) (l : List SlotId) : List SlotId := l.filter fun k => (s.slot k).endsHold i

/-- The sessions of a list that return their block to account i. -/
def returning (s : State) (i : AccountId) (l : List SlotId) : List SlotId :=
  l.filter fun k => (s.slot k).source == some (.account i)

/-- An account after the sessions of a list have been cleared. -/
def clearedAccount (s : State) (i : AccountId) (l : List SlotId) (a : Account) : Account :=
  { a with
    holders := a.holders - (endingHolds s i l).length
    remainingWh :=
      if returning s i l = [] then a.remainingWh
      else min a.allowanceWh (a.remainingWh + ((returning s i l).map fun k => (s.slot k).wholeWh).sum) }

theorem clearedAccount_append (s : State) (i : AccountId) (l : List SlotId) (k : SlotId) (a : Account) :
    clearedAccount s i (l ++ [k]) a = releasedAccount i (s.slot k) (clearedAccount s i l a) := by
  have hholders : a.holders - (endingHolds s i (l ++ [k])).length =
      a.holders - (endingHolds s i l).length - ((s.slot k).endsHold i).toNat := by
    have hone : (endingHolds s i [k]).length = ((s.slot k).endsHold i).toNat := by
      cases hends : (s.slot k).endsHold i <;> simp [endingHolds, hends]
    have happend : endingHolds s i (l ++ [k]) = endingHolds s i l ++ endingHolds s i [k] := List.filter_append _ _
    rw [happend, List.length_append, hone, Nat.sub_add_eq]
  have hremaining : (clearedAccount s i (l ++ [k]) a).remainingWh =
      (releasedAccount i (s.slot k) (clearedAccount s i l a)).remainingWh := by
    have happend : returning s i (l ++ [k]) = returning s i l ++ returning s i [k] := List.filter_append _ _
    simp only [clearedAccount, releasedAccount]
    rw [happend]
    by_cases hk : (s.slot k).source = some (.account i)
    · have hone : returning s i [k] = [k] := by simp [returning, hk]
      rw [hone, if_pos hk, if_neg (by simp)]
      split
      · next hnone => simp [hnone]
      · simp only [List.map_append, List.sum_append, List.map_cons, List.map_nil, List.sum_cons, List.sum_nil]
        omega
    · have hzero : returning s i [k] = [] := by simp [returning, hk]
      rw [hzero, if_neg hk, List.append_nil]
  simp only [clearedAccount, releasedAccount] at hremaining ⊢
  rw [hholders, hremaining]

end Sys2Proof.Machine
end

section
/-! # CLEAR SITE as a whole (R10, R66, R166) -/

namespace Sys2Proof.Machine

theorem PassPrior.edits {s t u : State} (h : PassPrior s t) (e : Edits t u) : PassPrior s u := by
  induction e with
  | refl => exact h
  | tail _ e ih =>
    rcases ih with ih | ih
    · cases e with
      | pass => exact .inr (requestPass_asked ih)
      | bay | slot | counters | notice | queue | credits | account => exact .inl ⟨ih.1, ih.2⟩
    · exact .inr (ih.edit e)

/-- A pass asked for after a state from which AL's pass is as it was, or has been asked for. -/
theorem PassPrior.asked {s t u : State} (h : PassPrior s t) (e : Edits t u) (hasked : PassAsked t u) : PassAsked s u := by
  rcases h with ⟨hstate, hsnapshot⟩ | h
  · unfold PassAsked at hasked ⊢
    rw [← hstate, ← hsnapshot]
    exact hasked
  · exact h.edits e

/-- The sessions of a list, live in s and cleared one after the other, leave t. -/
structure Cleared (l : List SlotId) (s t : State) : Prop where
  cleared : ∀ k ∈ l, t.slot k = clearedSlot k s.stamp (s.slot k)
  slots : ∀ k, k ∉ l → t.slot k = s.slot k
  bays : ∀ k ∈ l, ∃ j ∈ l, (s.slot j).bay = (s.slot k).bay
    ∧ BayCleared j (s.bay (s.slot k).bay) (t.bay (s.slot k).bay)
  otherBays : ∀ b, (∀ k ∈ l, (s.slot k).bay ≠ b) → t.bay b = s.bay b
  kept : ∀ b, (t.bay b).plug = (s.bay b).plug ∧ (t.bay b).grantAck = (s.bay b).grantAck
  start : l = [] → t = s
  ready : l ≠ [] → (t.notice .receiptReady).count = min 255 ((s.notice .receiptReady).count + l.length)
  notices : ∀ j, j ≠ .receiptReady → t.notice j = s.notice j
  attn : l ≠ [] → t.hp.attn = t.attnDue
  prior : PassPrior s t
  asked : (∃ k ∈ l, (s.slot k).state.queued = true) → PassAsked s t
  queue : t.al.queue = s.al.queue.filter fun m => !((s.slot m.slot).state.queued && decide (m.slot ∈ l))
  credits : CreditInv s → LedgerInv s → t.cs.credits = s.cs.credits.filterMap (clearedCredit s l)
  accounts : ∀ i, t.account i = clearedAccount s i l (s.account i)
  counters : t.st.sequence = s.st.sequence ∧ t.st.arrival = s.st.arrival
  edits : Edits s t

theorem cleared_nil (s : State) : Cleared [] s s where
  cleared _ hk := by cases hk
  slots _ _ := rfl
  bays _ hk := by cases hk
  otherBays _ _ := rfl
  kept _ := ⟨rfl, rfl⟩
  start _ := rfl
  ready h := absurd rfl h
  notices _ _ := rfl
  attn h := absurd rfl h
  prior := .refl s
  asked h := by
    obtain ⟨k, hk, -⟩ := h
    cases hk
  queue := by simp
  credits _ _ := by
    have hkept : clearedCredit s [] = some := funext fun c => clearedCredit_kept fun k _ => List.not_mem_nil
    rw [hkept, List.filterMap_some]
  accounts _ := rfl
  counters := ⟨rfl, rfl⟩
  edits := .refl s

/-- The members left when one more session has been cleared. -/
theorem Cleared.queue_step {l : List SlotId} {s t : State} (h : Cleared l s t) {k : SlotId} (hk : k ∉ l) :
    (clearSlot k t).al.queue =
      s.al.queue.filter fun m => !((s.slot m.slot).state.queued && decide (m.slot ∈ l ++ [k])) := by
  rw [clearSlot_queue, h.slots k hk, h.queue]
  split
  · next hqueued =>
    rw [List.filter_filter]
    refine List.filter_congr fun m _ => ?_
    by_cases hm : m.slot = k
    · simp [hm, hqueued]
    · simp [hm]
  · next hqueued =>
    refine List.filter_congr fun m _ => ?_
    by_cases hm : m.slot = k
    · simp [hm, hqueued]
    · simp [hm]

/-- The records left when one more session has been cleared. -/
theorem Cleared.credits_step {l : List SlotId} {s t : State} (h : Cleared l s t) {k : SlotId} (hk : k ∉ l)
    (hcredits : CreditInv s) (hledger : LedgerInv s) :
    (clearSlot k t).cs.credits = s.cs.credits.filterMap (clearedCredit s (l ++ [k])) := by
  have hslot := h.slots k hk
  have ht := h.credits hcredits hledger
  cases honcredit : (s.slot k).onCredit with
  | true =>
    cases hsource : (s.slot k).source with
    | none => simp [Slot.onCredit, hsource] at honcredit
    | some src =>
      cases src with
      | account i => simp [Slot.onCredit, hsource] at honcredit
      | credit key =>
        rw [← creditsReleased_cleared hcredits hledger hk hsource, ← ht, ← hslot]
        exact settle_credits_credit _ _ (by rw [hslot]; exact hsource)
  | false =>
    have hno := Slot.onCredit_false.mp honcredit
    refine (settle_credits_kept _ _ (by rw [hslot]; exact hno)).trans (ht.trans ?_)
    refine List.filterMap_congr fun c hc => (clearedCredit_append fun hholder => ?_).symm
    exact hno _ (hledger.source_of_holder hc hholder)

theorem Cleared.step {l : List SlotId} {s t : State} (h : Cleared l s t) {k : SlotId} (hk : k ∉ l) :
    Cleared (l ++ [k]) s (clearSlot k t) := by
  have hslot := h.slots k hk
  have hstamp : t.stamp = s.stamp := by simp only [State.stamp, h.edits.untouched.tc]
  have hbay := clearSlot_bay k t
  have hbay_ne : ∀ b, b ≠ (s.slot k).bay → (clearSlot k t).bay b = t.bay b := fun b hb =>
    clearSlot_bay_ne (by rw [hslot]; exact hb)
  rw [hslot] at hbay
  have hcounted := clearSlot_counted k t
  constructor
  case cleared =>
    intro j hj
    by_cases hjk : j = k
    · subst hjk
      rw [clearSlot_slot, hstamp, hslot]
    · rw [clearSlot_slot_ne k j t hjk]
      rcases List.mem_append.mp hj with hj | hj
      · exact h.cleared j hj
      · exact absurd (List.mem_singleton.mp hj) hjk
  case slots =>
    intro j hj
    obtain ⟨hjl, hjk⟩ := not_or.mp fun hc => hj (List.mem_append.mpr hc)
    rw [clearSlot_slot_ne k j t fun he => hjk (List.mem_singleton.mpr he)]
    exact h.slots j hjl
  case bays =>
    intro j hj
    by_cases hjb : (s.slot j).bay = (s.slot k).bay
    · refine ⟨k, by simp, hjb.symm, ?_⟩
      rw [hjb, hbay]
      exact clearedBay_cleared k (h.kept _).1
    · rcases List.mem_append.mp hj with hj | hj
      · obtain ⟨i, hi, hib, hcleared⟩ := h.bays j hj
        refine ⟨i, List.mem_append_left _ hi, hib, ?_⟩
        rw [hbay_ne _ hjb]
        exact hcleared
      · exact absurd (by rw [List.mem_singleton.mp hj]) hjb
  case otherBays =>
    intro b hb
    rw [hbay_ne b fun he => hb k (by simp) he.symm]
    exact h.otherBays b fun j hj => hb j (List.mem_append_left _ hj)
  case kept =>
    intro b
    by_cases hb : b = (s.slot k).bay
    · rw [hb, hbay, (clearedBay_kept k _).1, (clearedBay_kept k _).2]
      exact h.kept _
    · rw [hbay_ne b hb]
      exact h.kept b
  case start => simp
  case ready =>
    intro _
    rw [hcounted.1, List.length_append, List.length_singleton]
    dsimp only
    by_cases hl : l = []
    · rw [h.start hl, hl]
      rfl
    · rw [h.ready hl]
      omega
  case notices => exact fun j hj => (hcounted.2 j hj).trans (h.notices j hj)
  case attn => exact fun _ => clearSlot_attn k t
  case prior => exact h.prior.edits (clearSlot_edits k t)
  case asked =>
    rintro ⟨j, hj, hqueued⟩
    rcases List.mem_append.mp hj with hj | hj
    · exact (h.asked ⟨j, hj, hqueued⟩).edits (clearSlot_edits k t)
    · rw [List.mem_singleton.mp hj, ← hslot] at hqueued
      exact h.prior.asked (clearSlot_edits k t) (clearSlot_asked hqueued)
  case queue => exact h.queue_step hk
  case credits => exact h.credits_step hk
  case accounts =>
    intro i
    rw [clearSlot_account, hslot, h.accounts, clearedAccount_append]
  case counters =>
    obtain ⟨hsequence, harrival⟩ := clearSlot_counters k t
    exact ⟨hsequence.trans h.counters.1, harrival.trans h.counters.2⟩
  case edits => exact h.edits.trans (clearSlot_edits k t)

theorem cleared_foldl {l : List SlotId} (hl : l.Nodup) (s : State) : Cleared l s (l.foldl (fun t k => clearSlot k t) s) := by
  induction l using List.reverseRecOn with
  | nil => exact cleared_nil s
  | append_singleton l k ih =>
    obtain ⟨hnodup, -, hdisjoint⟩ := List.nodup_append.mp hl
    have hk : k ∉ l := fun hmem => hdisjoint k hmem k (List.mem_singleton_self k) rfl
    rw [List.foldl_append]
    exact (ih hnodup).step hk

/-! ## The request -/

theorem exec_clearSite (p : List Byte) (s : State) :
    exec (.clearSite p) s = serve (.clearSite p) (whenOpen (clearSiteAct p)) s := rfl

theorem clearSiteAct_badLength {p : List Byte} (s : State) (h : p ≠ []) : clearSiteAct p s = refuse .badRequest s :=
  if_pos fun hlen => h (List.eq_nil_of_length_eq_zero hlen)

/-- The state in which CLEAR SITE has settled every live session. -/
def clearedSite (s : State) : State := (freeOrder s.freeDraws s.liveSlots).foldl (fun t k => clearSlot k t) s

theorem clearSiteAct_nil (s : State) : clearSiteAct [] s =
    (⟨.ok, [u1 s.liveSlots.length, u1 (clearedSite s).baysCommitted]⟩, clearedSite s) := rfl

theorem liveSlots_nodup (s : State) : s.liveSlots.Nodup := (List.nodup_finRange 64).filter _

theorem mem_liveSlots {s : State} {k : SlotId} : k ∈ s.liveSlots ↔ (s.slot k).state.live = true := by
  rw [State.liveSlots, List.mem_filter]
  exact and_iff_right (List.mem_finRange k)

/-- CLEAR SITE clears the live sessions, in a free order (log 11). -/
theorem cleared_clearedSite (s : State) : ∃ l : List SlotId, l.Nodup ∧ (∀ k, k ∈ l ↔ (s.slot k).state.live = true)
    ∧ l.length = s.liveSlots.length ∧ Cleared l s (clearedSite s) := by
  have hperm := freeOrder_perm s.freeDraws s.liveSlots
  have hnodup := hperm.nodup_iff.mpr (liveSlots_nodup s)
  exact ⟨_, hnodup, fun k => hperm.mem_iff.trans mem_liveSlots, hperm.length_eq, cleared_foldl hnodup s⟩

/-- What an answer about a cleared session's slot says. -/
theorem clearedSlot_facts (k : SlotId) (at_ : Stamp) (x : Slot) :
    ((clearedSlot k at_ x).state = .settled ∧ (clearedSlot k at_ x).endCause = some .siteClear
        ∧ (clearedSlot k at_ x).receipt.isSome = true ∧ (clearedSlot k at_ x).endTime = some at_
        ∧ (clearedSlot k at_ x).authDeadline = none ∧ (clearedSlot k at_ x).endDeadline = none
        ∧ (clearedSlot k at_ x).runPermit = false ∧ (clearedSlot k at_ x).source = none)
      ∧ (x.source ≠ none → (clearedSlot k at_ x).blockLeft = 0 ∧ (clearedSlot k at_ x).finalBlock = false)
      ∧ ((∀ key, x.source ≠ some (.credit key)) → (clearedSlot k at_ x).accountHold = false)
      ∧ (clearedSlot k at_ x).energyWh = x.energyWh := by
  have hsource : (settledSlot (some .siteClear) at_ x).source = x.source := rfl
  unfold clearedSlot releasedSlot
  rw [hsource]
  cases x.source with
  | none => exact ⟨⟨rfl, rfl, rfl, rfl, rfl, rfl, rfl, rfl⟩, fun hne => absurd rfl hne, fun _ => rfl, rfl⟩
  | some src =>
    cases src with
    | credit key =>
      exact ⟨⟨rfl, rfl, rfl, rfl, rfl, rfl, rfl, rfl⟩, fun _ => ⟨rfl, rfl⟩, fun hno => absurd rfl (hno key), rfl⟩
    | account i => exact ⟨⟨rfl, rfl, rfl, rfl, rfl, rfl, rfl, rfl⟩, fun _ => ⟨rfl, rfl⟩, fun _ => rfl, rfl⟩

/-- A session in a state with a place in the queue is live. -/
theorem queue_filter_live {l : List SlotId} {s : State} (hl : ∀ k, k ∈ l ↔ (s.slot k).state.live = true) (k : SlotId) :
    (!((s.slot k).state.queued && decide (k ∈ l))) = !(s.slot k).state.queued := by
  cases hqueued : (s.slot k).state.queued with
  | false => rfl
  | true =>
    have hmem : k ∈ l := (hl k).mpr (live_of_queued_state hqueued)
    simp [hmem]

/-- A session with an allowance source is live. -/
theorem LedgerInv.live_of_source {s : State} (h : LedgerInv s) {k : SlotId} {src : Source} (hk : (s.slot k).source = some src) :
    (s.slot k).state.live = true := by
  rcases h.sources k (by rw [hk]; simp) with hqueued | hending
  · exact live_of_queued_state hqueued
  · rw [hending]
    rfl

/-- Settles O32: the checks, then the live sessions cleared one after the other. -/
theorem siteCleared : Obligations.SiteCleared := by
  refine ⟨fun p f s hp h => ⟨fun hgate => serve_refused hp h (whenOpen_closed _ hgate), fun hgate hne =>
    serve_refused hp h ((whenOpen_opened _ hgate).trans (clearSiteAct_badLength s hne))⟩, ?_⟩
  intro f s hp h hgate whole
  have hexec := (exec_clearSite [] s).trans (serve_completed h ((whenOpen_opened _ hgate).trans (clearSiteAct_nil s)))
  obtain ⟨l, hnodup, hl, hlength, hc⟩ := cleared_clearedSite s
  generalize clearedSite s = u at hexec hc
  have hsame := hc.edits.untouched
  have hempty : (∀ k, (s.slot k).state.live = false) → l = [] := fun hnone => List.eq_nil_iff_forall_not_mem.mpr fun k hk => by
    have hlive := (hl k).mp hk
    rw [hnone k] at hlive
    cases hlive
  have hsome : (∃ k, (s.slot k).state.live = true) → l ≠ [] := fun ⟨k, hk⟩ hnil => by
    have hmem := (hl k).mpr hk
    rw [hnil] at hmem
    cases hmem
  have hqueue : u.al.queue = s.al.queue.filter fun m => !(s.slot m.slot).state.queued := by
    rw [hc.queue]
    exact List.filter_congr fun m _ => queue_filter_live hl m.slot
  have hqueueslots : (completed (answer f ⟨.ok, [u1 s.liveSlots.length, u1 u.baysCommitted]⟩ u)).al.queue.map (·.slot)
      = (s.al.queue.map (·.slot)).filter fun k => !(s.slot k).state.queued := by
    rw [completed_queue, answer_al, hqueue, List.filter_map]
    rfl
  refine ⟨_, hexec, fun k hk => ?_, fun k hk => ?_, fun b hb => ?_, fun b => ?_, ?_, fun j hj => ?_, fun hqueued => ?_, hqueueslots,
    fun hinv => ?_, fun hlive => ?_, fun hnone => ?_, fun hcredits hledger => ?_, fun i => ?_, ?_, ?_, ?_, ?_, ?_, ?_, ?_, ?_, ?_⟩
  · have hmem := (hl k).mpr hk
    obtain ⟨j, hj, hjb, hbay⟩ := hc.bays k hmem
    obtain ⟨⟨hstate, hcause, hreceipt, htime, hauth, hend, hpermit, hsource⟩, hblock, hhold, henergy⟩ :=
      clearedSlot_facts k s.stamp (s.slot k)
    rw [← hc.cleared k hmem] at hstate hcause hreceipt htime hauth hend hpermit hsource hblock hhold henergy
    rw [completed_slot, answer_slot, completed_bay, answer_bay]
    refine ⟨hstate, hcause, hreceipt, htime, hauth, hend, hpermit, hsource, hblock, hhold, henergy, hbay.grantSet,
      hbay.stopFlag, hbay.scan, hbay.lostDeadline, hbay.state, fun hinv => ?_⟩
    have hown : some j = some k := by
      rw [← (hinv.1 j ((hl j).mp hj)).2, ← (hinv.1 k hk).2, hjb]
    exact hbay.session.trans (by rw [hown])
  · rw [completed_slot, answer_slot]
    exact hc.slots k fun hmem => by
      have hlive := (hl k).mp hmem
      rw [hk] at hlive
      cases hlive
  · rw [completed_bay, answer_bay]
    exact hc.otherBays b fun k hk => hb k ((hl k).mp hk)
  · rw [completed_bay, answer_bay]
    exact (hc.kept b).2
  · refine ⟨l, (indices 48).filter fun b => 0 < (u.bay b).committed, hnodup, hl, (List.nodup_finRange 48).filter _, fun b => ?_,
      ?_, fun hne => ?_⟩
    · rw [completed_bay, answer_bay, List.mem_filter, decide_eq_true_iff]
      exact and_iff_right (List.mem_finRange b)
    · rw [completed_hp, answer_port f _ s u hsame.freeDraws, hlength]
      rfl
    · rw [completed_notice, answer_notice]
      exact hc.ready hne
  · rw [completed_notice, answer_notice]
    exact hc.notices j hj
  · obtain ⟨k, hk⟩ := hqueued
    exact PassAsked.completed hp (hc.asked ⟨k, (hl k).mpr (live_of_queued_state hk), hk⟩)
  · refine List.map_eq_nil_iff.mp (hqueueslots.trans (List.filter_eq_nil_iff.mpr fun k hk => ?_))
    obtain ⟨m, hm, rfl⟩ := List.mem_map.mp hk
    simp [(hinv.2.1 m.slot).mp ⟨m, hm, rfl⟩]
  · rw [completed_hp, completed_attnDue]
    exact hc.attn (hsome hlive)
  · have hus : u = s := hc.start (hempty hnone)
    rw [hus]
    refine ⟨completed_answer_al hp rfl f _, completed_cs _, ?_, ?_⟩
    · rw [completed_hp]
      rfl
    · rw [completed_hp]
      rfl
  · rw [completed_cs, answer_cs, hc.credits hcredits hledger]
    refine List.filterMap_congr fun c hmem => ?_
    cases hholder : c.holder with
    | none => simp only [clearedCredit, hholder]
    | some k =>
      have hlive := hledger.live_of_source (hledger.source_of_holder hmem hholder)
      exact clearedCredit_cleared hholder ((hl k).mpr hlive)
  · refine ⟨endingHolds s i l, returning s i l, hnodup.filter _, hnodup.filter _, fun k => ?_, fun k => ?_, ?_⟩
    · rw [endingHolds, List.mem_filter, hl, Slot.endsHold_iff]
    · rw [returning, List.mem_filter, hl, beq_iff_eq]
    · rw [completed_account, answer_account, hc.accounts]
      rfl
  · exact (congrArg CreditStore.blockSize (completed_cs _)).trans hsame.blockSize
  · rw [completed_st]
    exact hc.counters.1
  · rw [completed_st]
    exact hc.counters.2
  · refine ResultsKept.completed ?_
    exact hsame.results
  · exact (completed_sc _).trans hsame.sc
  · exact (completed_flc _).trans hsame.flc
  · exact (completed_tc _).trans hsame.tc
  · exact (completed_runTimer _).trans hsame.runTimer
  · exact (completed_pending _).trans hsame.pending

end Sys2Proof.Machine
end

section
/-! # The field loop's polls (R22 to R26, R40, R41, R94) -/

namespace Sys2Proof.Machine

/-! ## Display codes (R40, R41, R136) -/

theorem displayCode_plain {b : BayId} {s : State} (hmessage : (s.bay b).message = none) (hscan : (s.bay b).scan = .empty)
    (hcode : s.stateCode b ≠ .charging) : s.displayCode b = s.stateCode b := by
  simp only [State.displayCode, hmessage, hscan]
  exact if_neg fun hc => hcode hc.1

theorem displayCode_charging {b : BayId} {k : SlotId} {s : State} (hmessage : (s.bay b).message = none)
    (hscan : (s.bay b).scan = .empty) (hcode : s.stateCode b = .charging) (hsession : (s.bay b).session = some k) :
    s.displayCode b = if (s.slot k).finalBlock then .finalBlock else .charging := by
  simp only [State.displayCode, hmessage, hscan, hcode, hsession, true_and]

/-- Settles O35: the state code by the bay's state and its session's, and the display code by message, scan slot and block. -/
theorem displayCodeChosen : Obligations.DisplayCodeChosen := by
  intro b s y
  refine ⟨fun hdeclared => ?_, fun hdeclared => ?_, fun m hmessage => ?_, fun key n d hmessage hscan => ?_,
    fun hmessage hscan hcode => displayCode_plain hmessage hscan hcode,
    fun k hmessage hscan hcode hsession => displayCode_charging hmessage hscan hcode hsession⟩
  · have hnot : (s.bay b).declared = false := hdeclared
    simp [State.stateCode, hnot]
  · have hdec : (s.bay b).declared = true := hdeclared
    have hcode : ∀ st : BayState, y.state = st → s.stateCode b = match st with
        | .idle => if s.sc.gate = .opened then .ready else .noService
        | .waitingSlot | .fault | .blocked => .noService
        | .stopped => .stopped
        | .occupied => s.stateCode b := by
      rintro st hst
      have hstate : (s.bay b).state = st := hst
      cases st <;> simp [State.stateCode, hdec, hstate]
    refine ⟨fun hstate hgate => (hcode _ hstate).trans (if_neg (by rw [hgate]; decide)),
      fun hstate hgate => (hcode _ hstate).trans (if_pos hgate), hcode _, hcode _, hcode _, hcode _, fun k hstate hsession => ?_⟩
    have hocc : (s.bay b).state = .occupied := hstate
    have hses : (s.bay b).session = some k := hsession
    refine ⟨?_, ?_, ?_, ?_, ?_⟩ <;> intro hslot <;> simp [State.stateCode, hdec, hocc, hses, hslot]
  · have hm : (s.bay b).message = some m := hmessage
    simp only [State.displayCode, hm]
  · have hm : (s.bay b).message = none := hmessage
    have hs : (s.bay b).scan = .pending key n d := hscan
    simp only [State.displayCode, hm, hs]

/-! ## The next device of the cycle (R22) -/

theorem roleOf_of_bay {e : Entry} {b : BayId} (h : e.val = b.val) : roleOf e = .bay b := by
  have hlt : e.val < 48 := h ▸ b.isLt
  rw [roleOf, dif_pos hlt]
  exact congrArg Role.bay (Fin.ext h)

theorem roleOf_of_canopy {e : Entry} {k : InverterId} (h : e.val = 48 + k.val) : roleOf e = .canopy k := by
  have hk := k.isLt
  rw [roleOf, dif_neg (by omega), dif_pos (by omega)]
  refine congrArg Role.canopy (Fin.ext ?_)
  dsimp only
  omega

theorem roleOf_ne_bay {e : Entry} (h : 48 ≤ e.val) (b : BayId) : roleOf e ≠ .bay b := by
  rw [roleOf, dif_neg (by omega)]
  split
  · simp
  · split <;> simp

theorem mem_pollList {s : State} {e : Entry} : e ∈ s.pollList ↔ (s.device e).declared = true := by
  rw [State.pollList, List.mem_filter]
  exact and_iff_right (List.mem_finRange e)

theorem pollList_sorted (s : State) : s.pollList.Pairwise (· < ·) :=
  (List.pairwise_lt_finRange 56).filter _

theorem nextPoll_start {s : State} {e : Entry} (hstart : s.flc.start = some e) (hdeclared : (s.device e).declared = true) :
    s.nextPoll = some e := by
  simp only [State.nextPoll, hstart, hdeclared, if_true]

theorem nextPoll_position {s : State} (h : ∀ e, s.flc.start = some e → (s.device e).declared = false) :
    s.nextPoll = nextAbove s.flc.position s.pollList := by
  unfold State.nextPoll
  split
  · next e hstart => simp [h e hstart]
  · rfl

/-- The first of an ascending list with a property is the least with it. -/
theorem find_least {α : Type} [Preorder α] {l : List α} (hl : l.Pairwise (· < ·)) {p : α → Bool} {e : α} (h : l.find? p = some e) :
    ∀ g ∈ l, p g = true → e ≤ g := by
  obtain ⟨-, before, behind, rfl, hbefore⟩ := List.find?_eq_some_iff_append.mp h
  intro g hg hpg
  rcases List.mem_append.mp hg with hg | hg
  · have hno := hbefore g hg
    rw [hpg] at hno
    cases hno
  · rcases List.mem_cons.mp hg with rfl | hg
    · exact le_rfl
    · exact le_of_lt ((List.pairwise_cons.mp (List.pairwise_append.mp hl).2.1).1 g hg)

theorem head_least {l : List Entry} (hl : l.Pairwise (· < ·)) {e : Entry} (h : l.head? = some e) : ∀ g ∈ l, e ≤ g := by
  cases l with
  | nil => cases h
  | cons x xs =>
    cases h
    intro g hg
    rcases List.mem_cons.mp hg with rfl | hg
    · exact le_rfl
    · exact le_of_lt ((List.pairwise_cons.mp hl).1 g hg)

theorem nextAbove_none_iff (position : Option Entry) (l : List Entry) : nextAbove position l = none ↔ l = [] := by
  unfold nextAbove
  split
  · exact List.head?_eq_none_iff
  · rw [Option.or_eq_none_iff, List.head?_eq_none_iff]
    exact ⟨fun h => h.2, fun h => ⟨by rw [h]; rfl, h⟩⟩

theorem nextAbove_mem {position : Option Entry} {l : List Entry} {e : Entry} (h : nextAbove position l = some e) : e ∈ l := by
  unfold nextAbove at h
  split at h
  · exact List.mem_of_head? h
  · rcases Option.or_eq_some_iff.mp h with h | ⟨-, h⟩
    · exact List.mem_of_find?_eq_some h
    · exact List.mem_of_head? h

/-- The entry above the position is the least above it, or where there is none the least of all. -/
theorem nextAbove_some {l : List Entry} (hl : l.Pairwise (· < ·)) {q e : Entry} (h : nextAbove (some q) l = some e) :
    (q < e ∧ ∀ g ∈ l, q < g → e ≤ g) ∨ ((∀ g ∈ l, ¬q < g) ∧ ∀ g ∈ l, e ≤ g) := by
  rcases Option.or_eq_some_iff.mp (h : ((l.find? fun e => q < e).or l.head?) = some e) with hfound | ⟨hnone, hhead⟩
  · refine .inl ⟨by simpa using List.find?_some hfound, fun g hg hqg => ?_⟩
    exact find_least hl hfound g hg (decide_eq_true hqg)
  · refine .inr ⟨fun g hg hqg => ?_, head_least hl hhead⟩
    exact List.find?_eq_none.mp hnone g hg (decide_eq_true hqg)

/-! ## Building a poll (R23 to R26) -/

theorem exec_bayPoll (s : State) : exec .bayPoll s = execBayPoll s := rfl

theorem exec_sourcePoll (s : State) : exec .sourcePoll s = execSourcePoll s := rfl

theorem mayPoll_of {s : State} (hquiet : s.flc.exchange = .quiet)
    (hgap : s.flc.gapFrom + s.sc.timing.pollGap * 1000 / s.sc.timing.loopRate.baud ≤ s.runTimer) : s.mayPoll = true := by
  simp only [State.mayPoll, hquiet, beq_self_eq_true, Bool.true_and, decide_eq_true_iff]
  exact hgap

theorem execBayPoll_bay {b : BayId} {e : Entry} {s : State} (hmay : s.mayPoll = true) (hnext : s.nextPoll = some e)
    (he : e.val = b.val) : execBayPoll s = done (sendBayPoll b s) := by
  simp only [execBayPoll, hmay, hnext, Option.map_some, roleOf_of_bay he]

theorem execSourcePoll_source {e : Entry} {s : State} (hmay : s.mayPoll = true) (hnext : s.nextPoll = some e)
    (he : 48 ≤ e.val) : execSourcePoll s = done (sendSourcePoll e s) := by
  have hrole := roleOf_ne_bay he
  simp only [execSourcePoll, hmay, hnext]
  split
  · next b hb => exact absurd hb (hrole b)
  all_goals rfl

/-- Settles O36: the next device of the cycle, and the poll built for it. -/
theorem pollsBuilt : Obligations.PollsBuilt := by
  refine ⟨fun s e hstart hdeclared => nextPoll_start hstart hdeclared, fun s hstart => ?_, fun b s hp hquiet hgap hnext => ?_,
    fun e s hp hquiet he hgap hnext => ?_⟩
  · rw [nextPoll_position hstart]
    refine ⟨(nextAbove_none_iff _ _).trans (pollList_nil_iff s), fun e he => ⟨mem_pollList.mp (nextAbove_mem he), fun q hq => ?_,
      fun hnone g hg => ?_⟩⟩
    · rw [hq] at he
      simp only [← mem_pollList]
      exact nextAbove_some (pollList_sorted s) he
    · rw [hnone] at he
      exact head_least (pollList_sorted s) he g (mem_pollList.mpr hg)
  · intro g value allowance
    rw [exec_bayPoll, execBayPoll_bay (mayPoll_of hquiet hgap) hnext rfl, done_of_sampled (by exact hp)]
    have hvalue : s.pollGrant b = value := by
      simp only [State.pollGrant, value, g]
      cases (s.bay b).kind <;> rfl
    have hallowance : bayAllowance s.sc.timing (s.bay b).kind = allowance := by
      simp only [allowance]
      cases (s.bay b).kind <;> rfl
    have haddress : loopAddress (Role.bay b).entry = b.val := if_pos (by change b.val < 54; omega)
    simp only [sendBayPoll, State.bayPollPayload, hvalue, hallowance, haddress]
    rfl
  · refine ⟨(s.sourcePoll (roleOf e)).1, (s.sourcePoll (roleOf e)).2, fun k hk => ?_, fun hbattery => ?_, fun hmeter => ?_, ?_⟩
    · rw [roleOf_of_canopy hk]
      exact ⟨rfl, rfl⟩
    · rw [hbattery]
      exact ⟨rfl, rfl⟩
    · rw [hmeter]
      exact ⟨rfl, rfl⟩
    · rw [exec_sourcePoll, execSourcePoll_source (mayPoll_of hquiet hgap) hnext he, done_of_sampled (by exact hp)]
      rfl

/-! ## The end of a poll's transmission (R23, R25, R26, R41, R94) -/

theorem exec_bayPollSent (s : State) : exec .bayPollSent s = execBayPollSent s := rfl

theorem exec_sourcePollSent (s : State) : exec .sourcePollSent s = execSourcePollSent s := rfl

theorem execBayPollSent_sending {p : Poll} {b : BayId} {s : State} (hsending : s.flc.exchange = .sending p)
    (he : p.entry.val = b.val) : execBayPollSent s = done (if p.removed then recordSent p (awaitResponse p s)
      else pollSentBay b p.value.toNat (recordSent p (awaitResponse p s))) := by
  simp only [execBayPollSent, hsending, roleOf_of_bay he]

theorem execSourcePollSent_sending {p : Poll} {s : State} (hsending : s.flc.exchange = .sending p) (he : 48 ≤ p.entry.val) :
    execSourcePollSent s = done (recordSent p (awaitResponse p s)) := by
  have hrole := roleOf_ne_bay he
  simp only [execSourcePollSent, hsending]
  split
  · next b hb => exact absurd hb (hrole b)
  all_goals rfl

theorem recordSent_removed {p : Poll} (s : State) (h : p.removed = true) : recordSent p s = s := if_pos h

theorem recordSent_kept {p : Poll} (s : State) (h : p.removed = false) :
    recordSent p s = s.setDevice p.entry { s.device p.entry with lastSent := p.value } := if_neg (by rw [h]; decide)

/-- The ack wait of a bay after a poll-sent event, by its state and its link (R94, R97). -/
def sentWait (y : Bay) (online : Bool) (sent now tAck : Nat) : Option AckWait :=
  if y.state = .fault ∨ y.state = .blocked ∨ online = false then y.ackWait else ackWaitAfter y sent now tAck

theorem pollSentBay_eq (b : BayId) (value : Nat) (s : State) : pollSentBay b value s = s.setBay b { s.bay b with
    message := (s.bay b).message.bind Message.afterPoll
    ackWait := sentWait (s.bay b) (s.bayOnline b) ((s.bay b).kind.toSteps value) s.runTimer s.sc.timing.tAck } := by
  unfold pollSentBay State.modBay sentWait
  dsimp only
  split <;> rfl

/-- A bay after a poll-sent event of a poll that carried a value. -/
def sentBay (b : BayId) (p : Poll) (s : State) : Bay :=
  { s.bay b with
    message := (s.bay b).message.bind Message.afterPoll
    ackWait := sentWait (s.bay b) (s.bayOnline b) ((s.bay b).kind.toSteps p.value.toNat) s.runTimer s.sc.timing.tAck }

/-- The state after the poll-sent event of a bay that is still declared. -/
def bayPollSent (b : BayId) (p : Poll) (s : State) : State :=
  ((awaitResponse p s).setDevice p.entry { s.device p.entry with lastSent := p.value }).setBay b (sentBay b p s)

theorem bayPollSent_eq (b : BayId) {p : Poll} (s : State) (hkept : p.removed = false) :
    pollSentBay b p.value.toNat (recordSent p (awaitResponse p s)) = bayPollSent b p s := by
  have honline : ((awaitResponse p s).setDevice p.entry { s.device p.entry with lastSent := p.value }).bayOnline b
      = s.bayOnline b := by
    simp only [State.bayOnline, State.bayDevice, device_setDevice]
    split
    · next h => rw [h]
    · rfl
  rw [recordSent_kept _ hkept, pollSentBay_eq]
  change ((awaitResponse p s).setDevice p.entry { s.device p.entry with lastSent := p.value }).setBay b
    { s.bay b with
      message := (s.bay b).message.bind Message.afterPoll
      ackWait := sentWait (s.bay b)
        (((awaitResponse p s).setDevice p.entry { s.device p.entry with lastSent := p.value }).bayOnline b)
        ((s.bay b).kind.toSteps p.value.toNat) s.runTimer s.sc.timing.tAck } = _
  rw [honline]
  rfl

theorem ackWaitAfter_kept {y : Bay} {sent : Nat} (now tAck : Nat) (h : y.grantAck ≤ sent) :
    ackWaitAfter y sent now tAck = y.ackWait := if_pos h

theorem ackWaitAfter_set {y : Bay} {sent now tAck : Nat} (h : sent < y.grantAck)
    (hwait : ∀ w, y.ackWait = some w → sent < w.grant) :
    ackWaitAfter y sent now tAck = some ⟨now + tAck * 1000, sent⟩ := by
  refine (if_neg (not_le.mpr h)).trans ?_
  split
  · rfl
  · next w hw => exact if_pos (hwait w hw)

theorem ackWaitAfter_runs {y : Bay} {sent : Nat} (now tAck : Nat) {w : AckWait} (h : sent < y.grantAck) (hw : y.ackWait = some w)
    (hle : w.grant ≤ sent) : ackWaitAfter y sent now tAck = some w := by
  refine (if_neg (not_le.mpr h)).trans ?_
  rw [hw]
  exact if_neg (not_lt.mpr hle)

/-- Settles O37: the poll-sent event for a bay, for a removed device and for a source. -/
theorem pollsSent : Obligations.PollsSent := by
  refine ⟨fun b p s hp hsending he hkept => ?_, fun p s hp hsending hremoved => ?_, fun p s hp hsending he hkept => ?_⟩
  · intro y sent restarted
    have hexec : exec .bayPollSent s = .next { bayPollSent b p s with freeDraws := s.freeDraws + 1 } := by
      rw [exec_bayPollSent, execBayPollSent_sending hsending he, hkept]
      simp only [Bool.false_eq_true, if_false]
      rw [bayPollSent_eq b s hkept, done_of_sampled (by exact hp)]
      rfl
    have hbay : State.bay { bayPollSent b p s with freeDraws := s.freeDraws + 1 } b = sentBay b p s := bay_setBay_same _ _ _
    have hmessage := congrArg Bay.message hbay
    have hwait := congrArg Bay.ackWait hbay
    refine ⟨_, hexec, rfl, device_setDevice_same _ _ _, fun e he => device_setDevice_ne _ _ he,
      fun c hc => bay_setBay_ne _ _ hc, ?_, fun hfails => hwait.trans (if_pos hfails), fun hfault hblocked honline => ?_,
      fun m hm hin hcount => hmessage.trans ?_, fun m hm hin hcount => hmessage.trans ?_, fun m hm hin => hmessage.trans ?_,
      fun hm => hmessage.trans ?_, rfl, rfl, rfl, rfl, rfl, rfl, rfl, rfl, rfl, rfl, rfl⟩
    · rw [hbay]
      rfl
    · have hlive : ¬(y.state = .fault ∨ y.state = .blocked ∨ s.bayOnline b = false) := by
        simp [hfault, hblocked, honline]
      have hset := hwait.trans (if_neg hlive)
      refine ⟨fun hle => hset.trans (ackWaitAfter_kept _ _ hle), fun hlt hnone => hset.trans (ackWaitAfter_set hlt ?_),
        fun w hlt hw hgrant => hset.trans (ackWaitAfter_set hlt ?_), fun w hlt hw hle => hset.trans (ackWaitAfter_runs _ _ hlt hw hle)⟩
      · intro w hw
        rw [hnone] at hw
        cases hw
      · intro v hv
        rw [hw] at hv
        cases hv
        exact hgrant
    · have hbind : (s.bay b).message = some m := hm
      rw [sentBay, hbind]
      exact (if_pos hin).trans (if_neg (not_le.mpr hcount))
    · have hbind : (s.bay b).message = some m := hm
      rw [sentBay, hbind]
      exact (if_pos hin).trans (if_pos hcount)
    · have hbind : (s.bay b).message = some m := hm
      rw [sentBay, hbind]
      exact if_neg (by rw [hin]; decide)
    · have hbind : (s.bay b).message = none := hm
      rw [sentBay, hbind]
      rfl
  · have hexchange : awaitResponse p s = { s with flc := { s.flc with exchange := .awaiting p (s.runTimer + p.allowance) } } := rfl
    by_cases he : p.entry.val < 48
    · rw [if_pos he, exec_bayPollSent, execBayPollSent_sending (b := ⟨p.entry.val, he⟩) hsending rfl, if_pos hremoved,
        recordSent_removed _ hremoved, done_of_sampled (by exact hp), hexchange]
    · rw [if_neg he, exec_sourcePollSent, execSourcePollSent_sending hsending (by omega), recordSent_removed _ hremoved,
        done_of_sampled (by exact hp), hexchange]
  · rw [exec_sourcePollSent, execSourcePollSent_sending hsending he, recordSent_kept _ hkept, done_of_sampled (by exact hp)]
    rfl

end Sys2Proof.Machine
end

section
/-! # The deadlines of a session and of a bay (R53, R63, R96, R100, R118) -/

namespace Sys2Proof.Machine

/-! ## What a settlement leaves, seen from a state before it -/

/-- The entry of a bay into FAULT counts BAY_FAULT alone. -/
theorem enterFault_notice_ne (b : BayId) (s : State) {n : NoticeKind} (h : n ≠ .bayFault) :
    (enterFault b s).notice n = s.notice n := by
  unfold enterFault
  rw [countNotice_ne _ _ _ h]
  simp [State.notice, writeGrantSet]

theorem enterFault_counted (b : BayId) (s : State) : Counted .bayFault b.val 0 s (enterFault b s) := by
  refine ⟨?_, fun n hn => enterFault_notice_ne b s hn⟩
  unfold enterFault
  dsimp only
  rw [countNotice_same]
  simp [Notice.occur, State.notice, writeGrantSet]

theorem enterFault_bay (b : BayId) (s : State) : (enterFault b s).bay b = { s.bay b with
    state := .fault, session := none, stopFlag := true, message := none, ackWait := none, grantSet := 0 } := by
  simp [enterFault, writeGrantSet, writeGrants_bay, Bay.withGrants]

theorem enterFault_st (b : BayId) (s : State) : (enterFault b s).st = s.st := by
  simp [enterFault, writeGrantSet]

theorem enterFault_cs (b : BayId) (s : State) : (enterFault b s).cs = s.cs := by
  simp [enterFault, writeGrantSet]

/-- A bay's part of a settlement counts no notice but BAY_FAULT. -/
theorem settleBay_notice_ne (b : BayId) (k : SlotId) (after : BayAfter) (s : State) {n : NoticeKind} (h : n ≠ .bayFault) :
    (settleBay b k after s).notice n = s.notice n := by
  obtain ⟨hidle, hstopped, hblocked⟩ := settleBay_hp b k s
  cases after with
  | idle => exact congrArg (fun p : HostPort => p.notices[n.index]) hidle
  | stopped => exact congrArg (fun p : HostPort => p.notices[n.index]) hstopped
  | blocked => exact congrArg (fun p : HostPort => p.notices[n.index]) hblocked
  | fault =>
    unfold settleBay
    dsimp only
    rw [enterFault_notice_ne _ _ h]
    simp [State.notice, writeGrantSet]

/-- A settlement counts no notice but RECEIPT_READY and BAY_FAULT. -/
theorem settle_notice_ne (k : SlotId) (cause : Option EndCause) (after : BayAfter) (s : State) {n : NoticeKind}
    (hreceipt : n ≠ .receiptReady) (hfault : n ≠ .bayFault) : (settle k cause after s).notice n = s.notice n := by
  rw [settle_eq, makeReceipt, countNotice_ne _ _ _ hreceipt]
  have hbay := settleBay_notice_ne (s.slot k).bay k after
    (if (s.slot k).state.queued = true then leaveQueue k (settleSlot k cause s) else settleSlot k cause s) hfault
  simp only [State.notice, settle_hp_pre] at hbay
  simp only [State.notice, modSlot_hp, releaseHoldings_hp]
  exact hbay

theorem settle_flags (k : SlotId) (cause : Option EndCause) (after : BayAfter) (s : State) :
    ((settle k cause after s).slot k).flags = (s.slot k).flags := by
  obtain ⟨_, _, _, _, hslot, -⟩ := settle_slot k cause after s
  rw [hslot]
  rfl

/-- A session settled after its flags, its bay's record, notices or the pass state were written is settled from before that. -/
theorem Settled.of_prior {k : SlotId} {b : BayId} {cause : Option EndCause} {s u t : State} (h : Settled k b cause u t)
    {flags : ReceiptFlags} (hslot : u.slot k = { s.slot k with flags := flags }) (htc : u.tc = s.tc)
    (hqueue : u.al.queue = s.al.queue) (hnotice : u.notice .receiptReady = s.notice .receiptReady)
    (hasked : (s.slot k).state.queued = true → PassAsked s t) : Settled k b cause s t where
  state := h.state
  cause := h.cause
  endTime := by rw [h.endTime, htc]
  waits := h.waits
  permit := h.permit
  source := h.source
  session := by simpa only [hslot] using h.session
  metered := by simpa only [hslot] using h.metered
  receipt := h.receipt
  bay := h.bay
  queue := by simpa only [hslot, hqueue] using h.queue
  asked := hasked
  counted := by simpa only [hnotice] using h.counted
  attn := h.attn

theorem Failed.of_prior {b : BayId} {s u t : State} (h : Failed b u t) (hnotice : u.notice .bayFault = s.notice .bayFault)
    (hasked : PassAsked s t) : Failed b s t where
  state := h.state
  session := h.session
  stopFlag := h.stopFlag
  message := h.message
  ackWait := h.ackWait
  grantSet := h.grantSet
  counted := by simpa only [hnotice] using h.counted
  attn := h.attn
  asked := hasked

theorem failBay_session {b : BayId} {k : SlotId} {s : State} (h : s.liveSlot b = some k) :
    failBay b s = settle k (some .bayFault) .fault s := by
  simp only [failBay, h]

theorem failBay_empty {b : BayId} {s : State} (h : s.liveSlot b = none) : failBay b s = enterFault b s := by
  simp only [failBay, h]

theorem endOpening_empty {k : SlotId} {s : State} (cause : EndCause) (h : (s.slot k).energyWh = 0) :
    endOpening k cause s = abandon k s := if_pos h

theorem endOpening_energy {k : SlotId} {s : State} (cause : EndCause) (h : 0 < (s.slot k).energyWh) :
    endOpening k cause s = settle k (some cause) (afterByPlug (s.bay (s.slot k).bay).plug) s := if_neg h.ne'

/-- The bay after a settlement that goes by the plug (Table 9-1). -/
theorem bayAfterSettle_byPlug (k : SlotId) (plug : Bool) (y : Bay) :
    (bayAfterSettle k (afterByPlug plug) y).state = (if plug then .stopped else .idle)
      ∧ (bayAfterSettle k (afterByPlug plug) y).session = (if plug then some k else none) := by
  cases plug <;> exact ⟨rfl, rfl⟩

/-! ## The deadlines of a session (R53, R63) -/

theorem exec_authDeadline (k : SlotId) (s : State) : exec (.authDeadline k) s = execAuthDeadline k s := rfl

theorem exec_endDeadline (k : SlotId) (s : State) : exec (.endDeadline k) s = execEndDeadline k s := rfl

theorem reached_some {d now : Nat} (h : d ≤ now) : reached (some d) now = true := decide_eq_true h

theorem execAuthDeadline_reached {k : SlotId} {d : Nat} {s : State} (hstate : (s.slot k).state = .opening)
    (hdeadline : (s.slot k).authDeadline = some d) (hd : d ≤ s.runTimer) :
    execAuthDeadline k s = done (endOpening k .authTimeout s) :=
  if_pos ⟨hstate, by rw [hdeadline]; exact reached_some hd⟩

theorem execEndDeadline_reached {k : SlotId} {d : Nat} {s : State} (hstate : (s.slot k).state = .ending)
    (hdeadline : (s.slot k).endDeadline = some d) (hd : d ≤ s.runTimer) : execEndDeadline k s = done (endUnconfirmed k s) :=
  if_pos ⟨hstate, by rw [hdeadline]; exact reached_some hd⟩

/-- A session's record as its end is found unconfirmed (R63). -/
def unconfirmedState (k : SlotId) (s : State) : State :=
  s.setSlot k { s.slot k with flags := { (s.slot k).flags with endUnconfirmed := true } }

theorem endUnconfirmed_eq (k : SlotId) (s : State) : endUnconfirmed k s = settle k none .fault (unconfirmedState k s) := rfl

/-- Settles O50: the two deadlines of a session. -/
theorem sessionDeadlinesReached : Obligations.SessionDeadlinesReached := by
  intro k d s hp hd x b y
  refine ⟨fun hstate hdeadline => ⟨fun henergy => ?_, fun henergy => ?_⟩, fun hstate hdeadline => ?_⟩
  · rw [exec_authDeadline, execAuthDeadline_reached hstate hdeadline hd, endOpening_empty _ henergy, abandon_eq,
      done_of_sampled (by exact hp)]
    rfl
  · have hexec := (exec_authDeadline k s).trans (execAuthDeadline_reached hstate hdeadline hd)
    rw [endOpening_energy _ henergy, done_eq] at hexec
    have hsettled := settle_settled k (some .authTimeout) (afterByPlug (s.bay (s.slot k).bay).plug) s
    have honly := settle_only k (some .authTimeout) (afterByPlug (s.bay (s.slot k).bay).plug) s
    have hcounted := settle_counted k (some .authTimeout) s _ (afterByPlug_kinds (s.bay (s.slot k).bay).plug)
    have hbay := settle_bay k (some .authTimeout) (afterByPlug (s.bay (s.slot k).bay).plug) s
    obtain ⟨hstop, hsession⟩ := bayAfterSettle_byPlug k (s.bay (s.slot k).bay).plug (s.bay (s.slot k).bay)
    obtain ⟨_, _, _, _, hslot, hhold, -⟩ := settle_slot k (some .authTimeout) (afterByPlug (s.bay (s.slot k).bay).plug) s
    generalize settle k (some .authTimeout) (afterByPlug (s.bay (s.slot k).bay).plug) s = u at *
    refine ⟨_, hexec, ?_, ?_, ?_, ?_, ?_, fun hsource => ?_, ?_, ?_, ?_, ?_, hcounted.completed, honly.completed⟩
    all_goals simp only [completed_slot, completed_bay]
    · exact hsettled.state
    · exact hsettled.cause
    · exact hsettled.endTime
    · exact hsettled.waits.1
    · exact hsettled.source
    · rw [hslot]
      exact hhold hsource
    · exact hsettled.bay.1
    · exact hsettled.bay.2.1
    · rw [hbay]
      exact hstop
    · rw [hbay]
      exact hsession
  · have hexec := (exec_endDeadline k s).trans (execEndDeadline_reached hstate hdeadline hd)
    rw [endUnconfirmed_eq, done_eq] at hexec
    have hmarked : (unconfirmedState k s).slot k = { x with flags := { x.flags with endUnconfirmed := true } } :=
      slot_setSlot_same _ _ _
    have hb : ((unconfirmedState k s).slot k).bay = b := by rw [hmarked]
    have hsettled := settle_settled k none .fault (unconfirmedState k s)
    have hfailed := settle_failed k none (unconfirmedState k s)
    have hflags := settle_flags k none .fault (unconfirmedState k s)
    have hbay := settle_bay k none .fault (unconfirmedState k s)
    have hedits := settle_edits k none .fault (unconfirmedState k s)
    have hat := At.settle k none .fault (unconfirmedState k s)
    obtain ⟨_, _, _, r, hslot, hhold, hrslot, hrsequence, hrbay, hrcause, hrenergy, hrflags⟩ :=
      settle_slot k none .fault (unconfirmedState k s)
    rw [hb] at hsettled hfailed hbay hat
    rw [hmarked] at hsettled hflags hhold hrsequence hrbay hrcause hrenergy hrflags
    generalize settle k none .fault (unconfirmedState k s) = u at *
    have hsession := hsettled.session
    have hmetered := hsettled.metered
    rw [hmarked] at hsession hmetered
    refine ⟨_, hexec, ?_, ?_, ?_, ?_, ?_, ?_, ?_, ?_, fun hsource => ?_, ⟨r, ?_, hrslot, hrsequence, hrbay, hrcause, hrenergy, ?_⟩,
      ?_, ?_, ?_, ?_, ?_, ?_, ?_, ?_, ?_, PassAsked.completed hp (hfailed.asked.of_al rfl),
      (At.only ((At.setSlot k b s _).trans hat) ((setSlot_edits s k _).trans hedits).untouched).completed⟩
    all_goals try simp only [completed_slot, completed_bay]
    · exact hsettled.state
    · exact hsettled.cause
    · exact hflags
    · exact hsettled.endTime
    · exact hsettled.waits.2
    · exact hmetered.1
    · exact hmetered.2.2.2.2.2
    · exact hsettled.source
    · rw [hslot]
      exact hhold hsource
    · rw [hslot]
    · rw [hrflags]
    · exact hfailed.state
    · exact hfailed.session
    · exact hfailed.grantSet
    · exact hfailed.stopFlag
    · rw [hbay]
      rfl
    · exact hsettled.bay.2.1
    · exact hfailed.message
    · exact hfailed.ackWait
    · exact hsettled.bay.2.2

/-! ## The deadlines of a bay (R96, R100, R118) -/

theorem exec_ackDeadline (b : BayId) (s : State) : exec (.ackDeadline b) s = execAckDeadline b s := rfl

theorem exec_lostDeadline (b : BayId) (s : State) : exec (.lostDeadline b) s = execLostDeadline b s := rfl

theorem exec_queryDeadline (b : BayId) (s : State) : exec (.queryDeadline b) s = execQueryDeadline b s := rfl

theorem execAckDeadline_reached {b : BayId} {w : AckWait} {s : State} (hwait : (s.bay b).ackWait = some w)
    (hd : w.deadline ≤ s.runTimer) : execAckDeadline b s = done (failBay b s) :=
  if_pos (by rw [hwait]; exact reached_some hd)

theorem execLostDeadline_reached {b : BayId} {d : Nat} {s : State} (hlost : (s.bay b).lostDeadline = some d)
    (hd : d ≤ s.runTimer) : execLostDeadline b s = done (endLinkWait b s) :=
  if_pos (by rw [hlost]; exact reached_some hd)

theorem execQueryDeadline_reached {b : BayId} {key n d : Nat} {s : State} (hscan : (s.bay b).scan = .pending key n d)
    (hd : d ≤ s.runTimer) : execQueryDeadline b s = done (setMessage b .creditNotFound (emptyScan b s)) :=
  if_pos (by rw [hscan]; exact reached_some hd)

theorem endLinkWait_session {b : BayId} {k : SlotId} {s : State} (h : s.liveSlot b = some k) :
    endLinkWait b s = settle k (some .linkLost) .fault s := by
  simp only [endLinkWait, h]

theorem endLinkWait_empty {b : BayId} {s : State} (h : s.liveSlot b = none) :
    endLinkWait b s = s.setBay b { s.bay b with lostDeadline := none } := by
  simp only [endLinkWait, h]
  rfl

/-- What a session settled by a deadline of its bay leaves, the command completed. -/
theorem settledByBay {k : SlotId} {b : BayId} {s : State} (hp : PassSampled s) (cause : EndCause) (hbay : (s.slot k).bay = b)
    {t : State} (ht : t = completed (settle k (some cause) .fault s)) :
    (t.slot k).state = .settled ∧ (t.slot k).endCause = some cause ∧ (t.bay b).state = .fault ∧ (t.bay b).session = none
      ∧ (t.bay b).grantSet = 0 ∧ (t.bay b).grantAck = (s.bay b).grantAck ∧ (t.bay b).ackWait = none
      ∧ (t.bay b).lostDeadline = none ∧ PassRequested s t ∧ OnlyAt k b s t := by
  subst hbay
  have hsettled := settle_settled k (some cause) .fault s
  have hfailed := settle_failed k (some cause) s
  have hafter := settle_bay k (some cause) .fault s
  have honly := settle_only k (some cause) .fault s
  rw [ht]
  simp only [completed_slot, completed_bay]
  refine ⟨hsettled.state, hsettled.cause, hfailed.state, hfailed.session, hfailed.grantSet, ?_, hfailed.ackWait,
    hsettled.bay.2.2, PassAsked.completed hp hfailed.asked, honly.completed⟩
  rw [hafter]
  rfl

/-- Settles O51: the three deadlines of a bay. -/
theorem bayDeadlinesReached : Obligations.BayDeadlinesReached := by
  intro b s hp
  refine ⟨fun w hwait hd hnone => ?_, fun w k hwait hd hlive hbay => ?_, fun d k hlost hd hlive hbay => ?_,
    fun d hlost hd hnone => ?_, fun key n d hscan hd => ?_⟩
  · have hexec := (exec_ackDeadline b s).trans (execAckDeadline_reached hwait hd)
    rw [failBay_empty hnone, done_eq] at hexec
    have hun := (enterFault_edits b s).untouched
    have hfailed := enterFault_failed b s
    refine ⟨_, hexec, ?_, fun c hc => ?_, (enterFault_counted b s).completed, PassAsked.completed hp hfailed.asked,
      ResultsKept.completed hun.results, ?_, ?_, ?_, ?_, ?_, ?_⟩
    · rw [completed_bay, enterFault_bay]
    · rw [completed_bay]
      exact (At.enterFault 0 b s).bays c hc
    · rw [completed_st, enterFault_st]
    · rw [completed_cs, enterFault_cs]
    · rw [completed_sc, hun.sc]
    · rw [completed_flc, hun.flc]
    · rw [completed_tc, hun.tc]
    · rw [completed_hp, hun.port]
  · have hexec := (exec_ackDeadline b s).trans (execAckDeadline_reached hwait hd)
    rw [failBay_session hlive, done_eq] at hexec
    obtain ⟨h1, h2, h3, h4, h5, h6, h7, -, hrequested, honly⟩ := settledByBay hp .bayFault hbay rfl
    exact ⟨_, hexec, h1, h2, h3, h4, h5, h6, h7, hrequested, honly⟩
  · have hexec := (exec_lostDeadline b s).trans (execLostDeadline_reached hlost hd)
    rw [endLinkWait_session hlive, done_eq] at hexec
    obtain ⟨h1, h2, h3, h4, h5, h6, -, h8, hrequested, honly⟩ := settledByBay hp .linkLost hbay rfl
    exact ⟨_, hexec, h1, h2, h3, h4, h5, h6, h8, hrequested, honly⟩
  · rw [exec_lostDeadline, execLostDeadline_reached hlost hd, endLinkWait_empty hnone, done_of_sampled (by exact hp)]
    rfl
  · rw [exec_queryDeadline, execQueryDeadline_reached hscan hd, done_of_sampled (by exact hp), setMessage_emptyScan]
    rfl

end Sys2Proof.Machine
end

section
/-! # A miss, and the link loss it can bring (R23, R28, R30, R38, R65, R97, R100) -/

namespace Sys2Proof.Machine

/-! ## A record read from a block that is as it was -/

theorem slot_of_st {s t : State} (h : t.st = s.st) (k : SlotId) : t.slot k = s.slot k := by simp only [State.slot, h]

theorem bay_of_bays {s t : State} (h : t.bays = s.bays) (b : BayId) : t.bay b = s.bay b := by simp only [State.bay, h]

theorem device_of_flc {s t : State} (h : t.flc = s.flc) (e : Entry) : t.device e = s.device e := by simp only [State.device, h]

theorem notice_of_hp {s t : State} (h : t.hp = s.hp) (n : NoticeKind) : t.notice n = s.notice n := by simp only [State.notice, h]

/-! ## A change of link state (R28 to R30) -/

/-- ATTN stays as R178 says through a chain of small edits. -/
theorem Edits.attn_eq {s t : State} (h : Edits s t) (hs : s.hp.attn = s.attnDue) : t.hp.attn = t.attnDue :=
  (attnInv_iff t).mp (h.attnInv ((attnInv_iff s).mpr hs))

theorem countLink_edits (e : Entry) (s : State) : Edits s (countLink e s) :=
  (countNotice_edits _ _ _ s).trans (requestPass_edits _)

/-- One LOOP_DEVICE counted for a device, and a pass asked for; but for the loop's own records nothing else is changed. -/
structure LinkCounted (e : Entry) (s w : State) : Prop where
  counted : Counted .loopDevice (loopAddress e) 0 s w
  attn : w.hp.attn = w.attnDue
  asked : PassAsked s w
  results : ResultsKept s w
  queue : w.al.queue = s.al.queue
  sc : w.sc = s.sc
  bays : w.bays = s.bays
  st : w.st = s.st
  cs : w.cs = s.cs
  tc : w.tc = s.tc
  port : w.hp.port = s.hp.port
  runTimer : w.runTimer = s.runTimer

theorem countLink_counted (e : Entry) (s : State) (f : FieldLoop) : LinkCounted e s (countLink e { s with flc := f }) := by
  have hun := (countLink_edits e { s with flc := f }).untouched
  refine ⟨⟨?_, fun n hn => ?_⟩, ?_, ?_, ⟨hun.share, hun.permit, hun.inverters, hun.battery, hun.storeLoad, hun.lastPass⟩,
    ?_, hun.sc, ?_, ?_, ?_, hun.tc, hun.port, hun.runTimer⟩
  · unfold countLink
    rw [requestPass_notice, countNotice_same]
    rfl
  · unfold countLink
    rw [requestPass_notice, countNotice_ne _ _ _ hn]
    rfl
  · exact (requestPass_edits _).attn_eq (countNotice_attn _ _ _ _)
  · exact (PassAsked.ofEdits (countNotice_edits .loopDevice (loopAddress e) 0 { s with flc := f })).of_al rfl
  all_goals simp [countLink]

/-! ## The link loss of a bay (R65, R97, R100) -/

theorem liveSlot_congr {s t : State} {b : BayId} (hsession : (t.bay b).session = (s.bay b).session)
    (hslot : ∀ k, (t.slot k).state = (s.slot k).state) : t.liveSlot b = s.liveSlot b := by
  unfold State.liveSlot
  rw [hsession]
  cases (s.bay b).session with
  | none => rfl
  | some k => simp only [hslot]

/-- A bay whose ack wait has ended (R97). -/
def waitEnded (b : BayId) (s : State) : State := s.setBay b { s.bay b with ackWait := none }

theorem waitEnded_liveSlot (b : BayId) (s : State) : (waitEnded b s).liveSlot b = s.liveSlot b := by
  refine liveSlot_congr ?_ fun _ => rfl
  rw [waitEnded, bay_setBay_same]

theorem linkLossBay_empty {b : BayId} {s : State} (h : s.liveSlot b = none) : linkLossBay b s = waitEnded b s := by
  have hlive := (waitEnded_liveSlot b s).trans h
  unfold waitEnded at hlive
  simp only [linkLossBay, State.modBay, hlive]
  rfl

theorem linkLossBay_ending {b : BayId} {k : SlotId} {s : State} (h : s.liveSlot b = some k) (hstate : (s.slot k).state = .ending) :
    linkLossBay b s = settleLost k (waitEnded b s) := by
  have hlive := (waitEnded_liveSlot b s).trans h
  unfold waitEnded at hlive
  simp only [linkLossBay, State.modBay, hlive, setBay_slot, hstate, if_true]
  rfl

theorem linkLossBay_running {b : BayId} {k : SlotId} {s : State} (h : s.liveSlot b = some k)
    (hstate : (s.slot k).state ≠ .ending) : linkLossBay b s =
      (s.setSlot k { s.slot k with flags := { (s.slot k).flags with linkLostDuring := true } }).setBay b
        { s.bay b with ackWait := none, lostDeadline := some (s.runTimer + s.sc.timing.tLost * 1000) } := by
  have hlive := (waitEnded_liveSlot b s).trans h
  unfold waitEnded at hlive
  simp only [linkLossBay, State.modBay, hlive, setBay_slot, hstate, if_false, State.modSlot, setSlot_bay, bay_setBay_same]
  exact setBay_setBay (s.setSlot k { s.slot k with flags := { (s.slot k).flags with linkLostDuring := true } }) b
    { s.bay b with ackWait := none } _

/-- A session marked as lost in ENDING (R65). -/
def lostMarked (k : SlotId) (s : State) : State :=
  s.setSlot k { s.slot k with flags := { (s.slot k).flags with endUnconfirmed := true, linkLostDuring := true } }

theorem settleLost_eq (k : SlotId) (s : State) : settleLost k s = settle k (some .linkLost) .fault (lostMarked k s) := rfl

/-- What the settlement of a session in ENDING at a lost bay leaves, seen from a state before it (R65). -/
structure LostSettled (k : SlotId) (b : BayId) (s w u : State) : Prop where
  settled : Settled k b (some .linkLost) s u
  failed : Failed b s u
  flags : (u.slot k).flags = { (s.slot k).flags with endUnconfirmed := true, linkLostDuring := true }
  grantAck : (u.bay b).grantAck = (w.bay b).grantAck
  slots : ∀ j, j ≠ k → u.slot j = w.slot j
  bays : ∀ c, c ≠ b → u.bay c = w.bay c
  notice : u.notice .loopDevice = w.notice .loopDevice

theorem settleLost_settled {k : SlotId} {b : BayId} {s w : State} (hbay : (s.slot k).bay = b) (hslot : w.slot k = s.slot k)
    (htc : w.tc = s.tc) (hqueue : w.al.queue = s.al.queue) (hreceipt : w.notice .receiptReady = s.notice .receiptReady)
    (hfault : w.notice .bayFault = s.notice .bayFault) (hasked : PassAsked s w) : LostSettled k b s w (settleLost k w) := by
  have hmarked : (lostMarked k w).slot k =
      { s.slot k with flags := { (s.slot k).flags with endUnconfirmed := true, linkLostDuring := true } } := by
    rw [lostMarked, slot_setSlot_same, hslot]
  have hb : ((lostMarked k w).slot k).bay = b := by rw [hmarked]; exact hbay
  have hsettled := settle_settled k (some .linkLost) .fault (lostMarked k w)
  have hfailed := settle_failed k (some .linkLost) (lostMarked k w)
  have hafter := settle_bay k (some .linkLost) .fault (lostMarked k w)
  have hat := At.settle k (some .linkLost) .fault (lostMarked k w)
  have hpass : PassAsked s (settleLost k w) := hasked.edits (settleLost_edits k w)
  rw [hb] at hsettled hfailed hafter hat
  rw [settleLost_eq] at hpass ⊢
  refine ⟨hsettled.of_prior hmarked htc hqueue hreceipt fun _ => hpass, hfailed.of_prior hfault hpass, ?_, ?_,
    fun j hj => (hat.slots j hj).trans (slot_setSlot_ne w _ hj), hat.bays, settle_notice_ne k _ _ _ (by decide) (by decide)⟩
  · rw [settle_flags, hmarked]
  · rw [hafter]
    rfl

/-- What the link loss of a bay leaves, by its session, where the loss has been counted (R65, R97, R100). -/
structure LossTaken (b : BayId) (s u : State) : Prop where
  notice : u.notice .loopDevice =
    { s.notice .loopDevice with count := min 255 ((s.notice .loopDevice).count + 1), argument := b.val, key := 0 }
  bays : ∀ c, c ≠ b → s.liveSlot b = none ∨ (∃ k, s.liveSlot b = some k ∧ (s.slot k).bay = b) → u.bay c = s.bay c
  empty : s.liveSlot b = none → u.bay b = { s.bay b with ackWait := none } ∧ Counted .loopDevice b.val 0 s u ∧ u.st = s.st
    ∧ u.cs = s.cs ∧ u.al.queue = s.al.queue
  running : ∀ k, s.liveSlot b = some k → (s.slot k).state ≠ .ending →
    u.bay b = { s.bay b with ackWait := none, lostDeadline := some (s.runTimer + s.sc.timing.tLost * 1000) }
      ∧ u.slot k = { s.slot k with flags := { (s.slot k).flags with linkLostDuring := true } }
      ∧ (∀ j, j ≠ k → u.slot j = s.slot j) ∧ Counted .loopDevice b.val 0 s u ∧ u.cs = s.cs ∧ u.al.queue = s.al.queue
  ending : ∀ k, s.liveSlot b = some k → (s.slot k).state = .ending → (s.slot k).bay = b →
    Settled k b (some .linkLost) s u ∧ Failed b s u ∧ (u.bay b).grantAck = (s.bay b).grantAck
      ∧ (u.slot k).flags = { (s.slot k).flags with endUnconfirmed := true, linkLostDuring := true }
      ∧ ∀ j, j ≠ k → u.slot j = s.slot j

theorem linkLossBay_taken {e : Entry} {b : BayId} {s w : State} (hw : LinkCounted e s w) (he : loopAddress e = b.val) :
    LossTaken b s (linkLossBay b w) := by
  obtain ⟨hcounted, -, hasked, -, hqueue, hsc, hbays, hst, hcs, htc, -, hnow⟩ := hw
  rw [he] at hcounted
  have hslot : ∀ k, w.slot k = s.slot k := slot_of_st hst
  have hbay : ∀ c, w.bay c = s.bay c := bay_of_bays hbays
  have hlive : w.liveSlot b = s.liveSlot b := liveSlot_congr (by rw [hbay]) fun k => by rw [hslot]
  have hend : (waitEnded b w).bay b = { s.bay b with ackWait := none } := by rw [waitEnded, bay_setBay_same, hbay]
  have hother : ∀ c, c ≠ b → (waitEnded b w).bay c = s.bay c := fun c hc => (bay_setBay_ne _ _ hc).trans (hbay c)
  cases hcase : s.liveSlot b with
  | none =>
    rw [linkLossBay_empty (hlive.trans hcase)]
    refine ⟨hcounted.1, fun c hc _ => hother c hc, fun _ => ⟨hend, hcounted, hst, hcs, hqueue⟩, fun k h => ?_, fun k h => ?_⟩
      <;> simp [hcase] at h
  | some k =>
    by_cases hstate : (s.slot k).state = .ending
    · rw [linkLossBay_ending (hlive.trans hcase) (by rw [hslot]; exact hstate)]
      have hreceipt := hcounted.2 .receiptReady (by decide)
      have hfault := hcounted.2 .bayFault (by decide)
      have hnotice : (settleLost k (waitEnded b w)).notice .loopDevice = w.notice .loopDevice :=
        settle_notice_ne k _ _ (lostMarked k (waitEnded b w)) (by decide) (by decide)
      have hlost : (s.slot k).bay = b → LostSettled k b s (waitEnded b w) (settleLost k (waitEnded b w)) := fun hb =>
        settleLost_settled hb (hslot k) htc hqueue hreceipt hfault (hasked.frame rfl)
      refine ⟨hnotice.trans hcounted.1, fun c hc h => ?_, fun h => ?_, fun j h hne => ?_, fun j h _ hb => ?_⟩
      · rcases h with h | ⟨j, h, hb⟩
        · simp [hcase] at h
        · obtain rfl := Option.some.inj (hcase.symm.trans h)
          exact ((hlost hb).bays c hc).trans (hother c hc)
      · simp [hcase] at h
      · obtain rfl := Option.some.inj (hcase.symm.trans h)
        exact absurd hstate hne
      · obtain rfl := Option.some.inj (hcase.symm.trans h)
        obtain ⟨hsettled, hfailed, hflags, hack, hslots, -, -⟩ := hlost hb
        exact ⟨hsettled, hfailed, hack.trans (by rw [hend]), hflags, fun j hj => (hslots j hj).trans (hslot j)⟩
    · rw [linkLossBay_running (hlive.trans hcase) (by rw [hslot]; exact hstate), hslot, hbay, hnow, hsc]
      refine ⟨hcounted.1, fun c hc _ => (bay_setBay_ne _ _ hc).trans (hbay c), fun h => ?_, fun j h _ => ?_, fun j h hj => ?_⟩
      · simp [hcase] at h
      · obtain rfl := Option.some.inj (hcase.symm.trans h)
        exact ⟨bay_setBay_same _ _ _, slot_setSlot_same _ _ _, fun j hj => (slot_setSlot_ne _ _ hj).trans (hslot j), hcounted,
          hcs, hqueue⟩
      · obtain rfl := Option.some.inj (hcase.symm.trans h)
        exact absurd hj hstate

/-! ## A miss (R23, R28) -/

theorem exec_responseTimeout (s : State) : exec .responseTimeout s = execResponseTimeout s := rfl

theorem exec_responseReceived (chars : List RxChar) (s : State) :
    exec (.responseReceived chars) s = execResponseReceived chars s := rfl

theorem execResponseTimeout_reached {p : Poll} {d : Nat} {s : State} (hawaiting : s.flc.exchange = .awaiting p d)
    (hd : d ≤ s.runTimer) : execResponseTimeout s =
      done (if p.removed then endExchange s else takeMiss p.entry .timeout (endExchange s)) := by
  simp only [execResponseTimeout, hawaiting, hd, if_true]

theorem execResponseReceived_awaiting {p : Poll} {d : Nat} (chars : List RxChar) {s : State}
    (hawaiting : s.flc.exchange = .awaiting p d) : execResponseReceived chars s = done (concludeExchange p chars s) := by
  simp only [execResponseReceived, hawaiting]

theorem concludeExchange_removed {p : Poll} (chars : List RxChar) (s : State) (h : p.removed = true) :
    concludeExchange p chars s = endExchange s := if_pos h

theorem concludeExchange_missed {p : Poll} {chars : List RxChar} {kind : MissKind} (s : State) (h : p.removed = false)
    (hjudge : judge p.entry chars = .error kind) : concludeExchange p chars s = takeMiss p.entry kind (endExchange s) := by
  simp only [concludeExchange, h, hjudge, Bool.false_eq_true, if_false]

theorem concludeExchange_good {p : Poll} {chars : List RxChar} {r : Report} (s : State) (h : p.removed = false)
    (hjudge : judge p.entry chars = .ok r) : concludeExchange p chars s = takeReport p.entry r (endExchange s) := by
  simp only [concludeExchange, h, hjudge, Bool.false_eq_true, if_false]

/-- A device entry after a miss (R28). -/
def missedDevice (kind : MissKind) (d : Device) : Device := { d with lastMiss := kind, missCount := min 15 (d.missCount + 1) }

theorem takeMiss_kept {e : Entry} {kind : MissKind} {s : State}
    (h : (s.device e).link = .offline ∨ min 15 ((s.device e).missCount + 1) < s.sc.timing.missThreshold) :
    takeMiss e kind s = s.setDevice e (missedDevice kind (s.device e)) := by
  refine if_neg fun ⟨honline, hreached⟩ => ?_
  rcases h with h | h
  · rw [h] at honline
    cases honline
  · omega

theorem takeMiss_lost {e : Entry} {kind : MissKind} {s : State} (honline : (s.device e).link = .online)
    (h : s.sc.timing.missThreshold ≤ min 15 ((s.device e).missCount + 1)) : takeMiss e kind s =
      handLoss e (countLink e (s.setDevice e { missedDevice kind (s.device e) with link := .offline })) := by
  refine (if_pos ⟨honline, h⟩).trans ?_
  rw [State.modDevice, device_setDevice_same, setDevice_setDevice]
  rfl

theorem handLoss_bay {e : Entry} {b : BayId} (h : e.val = b.val) (s : State) : handLoss e s = linkLossBay b s := by
  simp only [handLoss, roleOf_of_bay h]

/-- The loss of a source is handed to none but the reserve, for the battery (R30, R17). -/
theorem handLoss_source {e : Entry} (h : 48 ≤ e.val) (s : State) : handLoss e s = { s with
    sc.reserve := if e = 54 ∧ s.sc.reserve = .claimed then .granted else s.sc.reserve } := by
  have hrole := roleOf_ne_bay h
  have hbattery : roleOf e = .battery ↔ e = 54 := by
    rw [roleOf, dif_neg (by omega)]
    split
    · simp only [reduceCtorEq, false_iff]
      rintro rfl
      simp at *
    · split
      · next h54 => simp only [true_iff]; exact Fin.ext h54
      · next h54 =>
        simp only [reduceCtorEq, false_iff]
        rintro rfl
        exact h54 rfl
  unfold handLoss
  cases hr : roleOf e with
  | bay b => exact absurd hr (hrole b)
  | battery =>
    have h54 := hbattery.mp hr
    simp only [grantReserve_eq, h54, true_and]
  | canopy k =>
    have h54 : e ≠ 54 := fun h54 => by simp [hbattery.mpr h54] at hr
    simp only [h54, false_and, if_false]
  | meter =>
    have h54 : e ≠ 54 := fun h54 => by simp [hbattery.mpr h54] at hr
    simp only [h54, false_and, if_false]

/-- A miss of an exchange in flight, by either of its two rows, is taken with the exchange ended. -/
theorem exec_missed {p : Poll} {d : Nat} {chars : List RxChar} {kind : MissKind} {i : Instr} {s : State}
    (hawaiting : s.flc.exchange = .awaiting p d) (hkept : p.removed = false)
    (hmiss : (i = .responseTimeout ∧ d ≤ s.runTimer ∧ kind = .timeout)
      ∨ (i = .responseReceived chars ∧ judge p.entry chars = .error kind)) :
    exec i s = done (takeMiss p.entry kind (endExchange s)) := by
  rcases hmiss with ⟨rfl, hd, rfl⟩ | ⟨rfl, hjudge⟩
  · rw [exec_responseTimeout, execResponseTimeout_reached hawaiting hd, if_neg (by rw [hkept]; decide)]
  · rw [exec_responseReceived, execResponseReceived_awaiting chars hawaiting, concludeExchange_missed s hkept hjudge]

/-- The state in which a device has gone OFFLINE, before its loss is handed on (R28, R30). -/
def lostState (e : Entry) (kind : MissKind) (s : State) : State :=
  countLink e ((endExchange s).setDevice e { missedDevice kind (s.device e) with link := .offline })

theorem lostState_counted (e : Entry) (kind : MissKind) (s : State) : LinkCounted e s (lostState e kind s) :=
  countLink_counted e s ((endExchange s).setDevice e { missedDevice kind (s.device e) with link := .offline }).flc

theorem lostState_flc (e : Entry) (kind : MissKind) (s : State) : (lostState e kind s).flc =
    ((endExchange s).setDevice e { missedDevice kind (s.device e) with link := .offline }).flc :=
  (countLink_edits e _).untouched.flc

/-- Settles O38: the exchange of a removed device, and a miss below the threshold, of a source and of a bay. -/
theorem missTaken : Obligations.MissTaken := by
  refine ⟨fun p d s hp hawaiting hremoved hd => ?_, fun p d chars kind i s hp hawaiting hkept hmiss => ?_⟩
  · rw [exec_responseTimeout, execResponseTimeout_reached hawaiting hd, if_pos hremoved, done_of_sampled (by exact hp)]
    rfl
  · intro old count
    have hexec := exec_missed hawaiting hkept hmiss
    have hlost : old.link = .online → s.sc.timing.missThreshold ≤ count →
        takeMiss p.entry kind (endExchange s) = handLoss p.entry (lostState p.entry kind s) := fun honline h =>
      takeMiss_lost (s := endExchange s) honline h
    have hw := lostState_counted p.entry kind s
    have hflc := lostState_flc p.entry kind s
    refine ⟨fun h => ?_, fun honline h hsource => ?_, fun b honline h hb => ?_⟩
    · rw [hexec, takeMiss_kept (s := endExchange s) h, done_of_sampled (by exact hp)]
      rfl
    · rw [hlost honline h, handLoss_source hsource, done_eq] at hexec
      generalize lostState p.entry kind s = w at *
      have hdevice := device_of_flc hflc
      refine ⟨_, hexec, ?_, fun e he => ?_, ?_, ?_, Counted.completed ?_, PassAsked.completed hp (hw.asked.frame ?_),
        ResultsKept.completed hw.results, ?_, ?_, ?_, ?_, ?_, ?_⟩
      · rw [completed_device]
        exact (hdevice _).trans (device_setDevice_same _ _ _)
      · rw [completed_device]
        exact (hdevice e).trans (device_setDevice_ne _ _ he)
      · rw [completed_flc]
        exact congrArg FieldLoop.exchange hflc
      · rw [completed_flc]
        exact congrArg FieldLoop.gapFrom hflc
      · exact hw.counted
      · rfl
      · rw [completed_sc]
        dsimp only
        rw [hw.sc]
      · rw [completed_bays]
        exact hw.bays
      · rw [completed_st]
        exact hw.st
      · rw [completed_cs]
        exact hw.cs
      · rw [completed_tc]
        exact hw.tc
      · rw [completed_hp]
        exact hw.port
    · rw [hlost honline h, handLoss_bay hb] at hexec
      have haddress : loopAddress p.entry = b.val := (if_pos (by omega)).trans hb
      generalize lostState p.entry kind s = w at *
      have hdevice := device_of_flc hflc
      have hloss := linkLossBay_taken hw haddress
      have hun := (linkLossBay_edits b w).untouched
      have hedits := linkLossBay_edits b w
      generalize linkLossBay b w = u at *
      have hudevice := device_of_flc hun.flc
      refine ⟨u, hexec, (hudevice _).trans ((hdevice _).trans (device_setDevice_same _ _ _)),
        fun e he => (hudevice e).trans ((hdevice e).trans (device_setDevice_ne _ _ he)),
        (congrArg FieldLoop.exchange hun.flc).trans (congrArg FieldLoop.exchange hflc),
        (congrArg FieldLoop.gapFrom hun.flc).trans (congrArg FieldLoop.gapFrom hflc), hloss.notice, hedits.attn_eq hw.attn,
        hw.asked.edits hedits, hw.results.trans hun.results, hloss.bays, hloss.empty, hloss.running, hloss.ending,
        hun.sc.trans hw.sc, hun.tc.trans hw.tc, hun.port.trans hw.port, hun.runTimer.trans hw.runTimer⟩

end Sys2Proof.Machine
end

section
/-! # The acknowledgement and the later steps of a bay report (R42 to R44, R54, R55, R57, R59, R62, R72, R86, R92, R93, R98) -/

namespace Sys2Proof.Machine

/-! ## A settlement after edits of the bay and the pass state alone -/

theorem settle_after {k : SlotId} {b : BayId} {s u : State} (cause : Option EndCause) (after : BayAfter) (he : Edits s u)
    (hbay : (s.slot k).bay = b) (hslot : u.slot k = s.slot k) (hqueue : u.al.queue = s.al.queue)
    (hnotice : u.notice .receiptReady = s.notice .receiptReady) :
    Settled k b (cause.or (s.slot k).endCause) s (settle k cause after u) := by
  have hsettled := settle_settled k cause after u
  rw [hslot, hbay] at hsettled
  refine hsettled.of_prior (flags := (s.slot k).flags) hslot he.untouched.tc hqueue hnotice fun hqueued => ?_
  exact ((PassPrior.refl s).edits he).asked (settle_edits k cause after u) (settle_asked k cause after u (by rw [hslot]; exact hqueued))

theorem settle_failed_after {k : SlotId} {b : BayId} {s u : State} (cause : Option EndCause) (he : Edits s u)
    (hbay : (u.slot k).bay = b) (hnotice : u.notice .bayFault = s.notice .bayFault) :
    Failed b s (settle k cause .fault u) := by
  have hfailed := settle_failed k cause u
  rw [hbay] at hfailed
  exact hfailed.of_prior hnotice
    (((PassPrior.refl s).edits he).asked (settle_edits k cause .fault u) (settle_fault_asked k cause u))

/-- The bay's record after an ending that the bay confirms, before its state (R56, R95). -/
def endedBay (y : Bay) : Bay :=
  { y with scan := .empty, lostDeadline := none, grantSet := 0, ackWait := if y.grantAck = 0 then none else y.ackWait }

theorem bayAfterSettle_idle (k : SlotId) (y : Bay) :
    bayAfterSettle k .idle y = { endedBay y with state := .idle, session := none } := by
  simp only [bayAfterSettle, endedBay, Nat.le_zero]

theorem bayAfterSettle_stopped (k : SlotId) (y : Bay) :
    bayAfterSettle k .stopped y = { endedBay y with state := .stopped, session := some k, stopFlag := true } := by
  simp only [bayAfterSettle, endedBay, Nat.le_zero]

theorem bayAfterSettle_plug (k : SlotId) (plug : Bool) (y : Bay) : bayAfterSettle k (afterByPlug plug) y =
    if plug then { endedBay y with state := .stopped, session := some k, stopFlag := true }
    else { endedBay y with state := .idle, session := none } := by
  cases plug
  · exact bayAfterSettle_idle k y
  · exact bayAfterSettle_stopped k y

theorem settle_grantAck (k : SlotId) (cause : Option EndCause) (after : BayAfter) (s : State) :
    ((settle k cause after s).bay (s.slot k).bay).grantAck = (s.bay (s.slot k).bay).grantAck := by
  rw [settle_bay]
  cases after <;> rfl

/-! ## The acknowledgement (R86, R92, R93, R98) -/

theorem BayKind.toSteps_mono (kind : BayKind) {a c : Nat} (h : a ≤ c) : kind.toSteps a ≤ kind.toSteps c := by
  cases kind <;> simp only [BayKind.toSteps, ceilDiv] <;> omega

theorem BayKind.toSteps_toWire (kind : BayKind) (g : Nat) : kind.toSteps (kind.toWire g) = g := by
  cases kind <;> simp only [BayKind.toSteps, BayKind.toWire, ceilDiv] <;> omega

theorem requestPass_al_setBay (s : State) (b : BayId) (y : Bay) : (requestPass (s.setBay b y)).al = (requestPass s).al := by
  unfold requestPass
  simp only [setBay_al, setBay_sc]
  split <;> rfl

/-- A write of an acknowledgement asks for a pass exactly where it lowers the committed power (R91). -/
theorem writeGrantAck_al (b : BayId) (ack : Nat) (s : State) : (writeGrantAck b ack s).al =
    if ((writeGrantAck b ack s).bay b).committed < (s.bay b).committed then (requestPass s).al else s.al := by
  rw [writeGrantAck, writeGrants_bay, writeGrants]
  by_cases h : ((s.bay b).withGrants (s.bay b).grantSet ack).committed < (s.bay b).committed
  · rw [if_pos h, decide_eq_true h, requestPassIf_true, requestPass_al_setBay]
  · rw [if_neg h, decide_eq_false h]
    rfl

theorem writeGrantAck_bay (b : BayId) (ack : Nat) (s : State) : (writeGrantAck b ack s).bay b =
    { s.bay b with grantAck := ack, ackWait := if ack ≤ (s.bay b).grantSet then none else (s.bay b).ackWait } :=
  writeGrants_bay b _ ack s

theorem takeAck_off {b : BayId} {r : BayReport} {s : State} (h : r.output = false) : takeAck b r s = writeGrantAck b 0 s := by
  unfold takeAck
  simp only [h, Bool.false_eq_true, if_false, if_true, ite_self]

theorem takeAck_down {b : BayId} {r : BayReport} {s : State} (hon : r.output = true)
    (h : (s.bay b).state = .fault ∨ (s.bay b).state = .blocked) : takeAck b r s = s :=
  (if_pos h).trans (if_pos hon)

theorem takeAck_within {b : BayId} {r : BayReport} {s : State} (hon : r.output = true)
    (hup : ¬((s.bay b).state = .fault ∨ (s.bay b).state = .blocked)) (h : r.applied ≤ (s.bayDevice b).lastSent.toNat) :
    takeAck b r s = writeGrantAck b ((s.bay b).kind.toSteps r.applied) s :=
  (if_neg hup).trans ((if_neg (by rw [hon]; decide)).trans (if_pos h))

theorem takeAck_above {b : BayId} {r : BayReport} {s : State} (hon : r.output = true)
    (hup : ¬((s.bay b).state = .fault ∨ (s.bay b).state = .blocked)) (h : (s.bayDevice b).lastSent.toNat < r.applied) :
    takeAck b r s = failBay b (writeGrantAck b ((s.bay b).kind.toSteps (s.bayDevice b).lastSent.toNat) s) :=
  (if_neg hup).trans ((if_neg (by rw [hon]; decide)).trans (if_neg (not_le.mpr h)))

theorem writeGrantAck_liveSlot (b : BayId) (ack : Nat) (s : State) : (writeGrantAck b ack s).liveSlot b = s.liveSlot b :=
  liveSlot_congr (by rw [writeGrantAck_bay]) fun k => by rw [writeGrantAck, writeGrants_slot]

/-- The last sent grant of a bay counts in its standing power (R76). -/
theorem lastSent_le_wireStanding (s : State) (b : BayId) :
    (s.bay b).kind.toSteps (s.bayDevice b).lastSent.toNat ≤ s.wireStanding b := by
  unfold State.wireStanding
  dsimp only
  split
  · split
    · exact le_max_left _ _
    · exact le_rfl
  · exact le_rfl

/-- An acknowledgement of no more than was sent leaves the committed power within the standing power (R76, R91). -/
theorem committed_le_standing {s : State} {b : BayId} {y : Bay} (hdeclared : (s.bay b).declared = true)
    (hset : y.grantSet ≤ (s.bay b).grantSet)
    (hack : y.grantAck ≤ (s.bay b).grantAck ∨ y.grantAck ≤ (s.bay b).kind.toSteps (s.bayDevice b).lastSent.toNat) :
    y.committed ≤ s.standing b := by
  have hsent := lastSent_le_wireStanding s b
  rw [State.standing, if_pos hdeclared, Bay.committed, Bay.committed]
  omega

/-- A session settled because its bay has applied more than was sent (R93). -/
theorem takeAck_above_session {b : BayId} {k : SlotId} {r : BayReport} {s : State} (hon : r.output = true)
    (hup : ¬((s.bay b).state = .fault ∨ (s.bay b).state = .blocked)) (h : (s.bayDevice b).lastSent.toNat < r.applied)
    (hlive : s.liveSlot b = some k) : takeAck b r s = settle k (some .bayFault) .fault
      (writeGrantAck b ((s.bay b).kind.toSteps (s.bayDevice b).lastSent.toNat) s) := by
  rw [takeAck_above hon hup h, failBay_session ((writeGrantAck_liveSlot b _ s).trans hlive)]

theorem takeAck_committed {b : BayId} {r : BayReport} {s : State} (hdeclared : (s.bay b).declared = true) :
    ((takeAck b r s).bay b).committed ≤ s.standing b := by
  by_cases hon : r.output = true
  · by_cases hup : (s.bay b).state = .fault ∨ (s.bay b).state = .blocked
    · rw [takeAck_down hon hup]
      exact committed_le_standing hdeclared le_rfl (.inl le_rfl)
    · by_cases h : r.applied ≤ (s.bayDevice b).lastSent.toNat
      · rw [takeAck_within hon hup h, writeGrantAck_bay]
        exact committed_le_standing hdeclared le_rfl (.inr (BayKind.toSteps_mono _ h))
      · have hbay := writeGrantAck_bay b ((s.bay b).kind.toSteps (s.bayDevice b).lastSent.toNat) s
        have hlive := writeGrantAck_liveSlot b ((s.bay b).kind.toSteps (s.bayDevice b).lastSent.toNat) s
        rw [takeAck_above hon hup (not_le.mp h)]
        generalize writeGrantAck b ((s.bay b).kind.toSteps (s.bayDevice b).lastSent.toNat) s = u at *
        cases hcase : u.liveSlot b with
        | none =>
          rw [failBay_empty hcase, enterFault_bay, hbay]
          exact committed_le_standing hdeclared (Nat.zero_le _) (.inr le_rfl)
        | some k =>
          rw [failBay_session hcase]
          by_cases hb : (u.slot k).bay = b
          · have hafter := settle_bay k (some .bayFault) .fault u
            rw [hb] at hafter
            rw [hafter, hbay]
            exact committed_le_standing hdeclared (Nat.zero_le _) (.inr le_rfl)
          · rw [(At.settle k _ _ u).bays b fun h => hb h.symm, hbay]
            exact committed_le_standing hdeclared le_rfl (.inr le_rfl)
  · rw [takeAck_off (by simpa using hon), writeGrantAck_bay]
    exact committed_le_standing hdeclared le_rfl (.inl (Nat.zero_le _))

/-- Settles O42: the acknowledgement by output, applied value and last sent grant, and the conversions of R86. -/
theorem acknowledgementTaken : Obligations.AcknowledgementTaken := by
  refine ⟨fun b r s => ?_, fun g a => ?_⟩
  · intro y sent acked t
    have hun := (takeAck_edits b r s).untouched
    refine ⟨fun hoff => ?_, fun hon hdown => takeAck_down hon hdown, fun hon hfault hblocked h => ?_,
      fun hon hfault hblocked h hnone => ?_, fun k hon hfault hblocked h hlive hb => ?_, fun h => ?_,
      fun hdeclared => takeAck_committed hdeclared, fun c hc hnone => ?_, hun.sc, hun.flc, hun.tc⟩
    · exact (congrArg (fun u : State => u.bay b) (takeAck_off hoff)).trans (writeGrantAck_bay b 0 s)
    · exact (congrArg (fun u : State => u.bay b) (takeAck_within hon (fun hd => hd.elim hfault hblocked) h)).trans (writeGrantAck_bay b _ s)
    · have hup : ¬((s.bay b).state = .fault ∨ (s.bay b).state = .blocked) := fun hd => hd.elim hfault hblocked
      have hfail : t = enterFault b (writeGrantAck b (y.kind.toSteps sent) s) :=
        (takeAck_above hon hup h).trans (failBay_empty ((writeGrantAck_liveSlot b _ s).trans hnone))
      have hcounted := enterFault_counted b (writeGrantAck b (y.kind.toSteps sent) s)
      rw [hfail, enterFault_bay, writeGrantAck_bay]
      exact ⟨rfl, hcounted.of_hp (writeGrants_hp b _ _ s)⟩
    · have hup : ¬((s.bay b).state = .fault ∨ (s.bay b).state = .blocked) := fun hd => hd.elim hfault hblocked
      have hsettle : t = settle k (some .bayFault) .fault (writeGrantAck b (y.kind.toSteps sent) s) :=
        takeAck_above_session hon hup h hlive
      have he := writeGrantAck_edits b (y.kind.toSteps sent) s
      have hslot : (writeGrantAck b (y.kind.toSteps sent) s).slot k = s.slot k := writeGrants_slot b _ _ s k
      have hhp : (writeGrantAck b (y.kind.toSteps sent) s).hp = s.hp := writeGrants_hp b _ _ s
      have hqueue : (writeGrantAck b (y.kind.toSteps sent) s).al.queue = s.al.queue := by
        simp [writeGrantAck, writeGrants]
      have hbay : (writeGrantAck b (y.kind.toSteps sent) s).bay b = acked (y.kind.toSteps sent) := writeGrantAck_bay b _ s
      have hat : At k b s (writeGrantAck b (y.kind.toSteps sent) s) := At.grants k b s _ _
      rw [hsettle]
      generalize writeGrantAck b (y.kind.toSteps sent) s = u at *
      have hub : (u.slot k).bay = b := by rw [hslot]; exact hb
      have hack := settle_grantAck k (some .bayFault) .fault u
      have hlast := At.settle k (some .bayFault) .fault u
      rw [hub] at hack hlast
      refine ⟨settle_after (some .bayFault) .fault he hb hslot hqueue (notice_of_hp hhp _), settle_failed_after _ he hub (notice_of_hp hhp _), ?_,
        At.only (hat.trans hlast) (he.trans (settle_edits k _ _ u)).untouched⟩
      rw [hack, hbay]
    · by_cases hdown : r.output = true ∧ ((s.bay b).state = .fault ∨ (s.bay b).state = .blocked)
      · have hsame : t = s := takeAck_down hdown.1 hdown.2
        rw [hsame, if_neg (lt_irrefl _)]
        exact ⟨rfl, rfl, rfl⟩
      · have hwrite : ∃ ack, t = writeGrantAck b ack s := by
          by_cases hon : r.output = true
          · have hwithin : r.applied ≤ sent := h.resolve_left (by rw [hon]; decide)
            exact ⟨_, takeAck_within hon (fun hd => hdown ⟨hon, hd⟩) hwithin⟩
          · exact ⟨0, takeAck_off (by simpa using hon)⟩
        obtain ⟨ack, hack⟩ := hwrite
        rw [hack]
        exact ⟨writeGrants_hp b _ _ s, writeGrants_st b _ _ s, writeGrantAck_al b ack s⟩
    · have hframe : ∀ ack, (writeGrantAck b ack s).bay c = s.bay c := fun ack => writeGrants_bay_ne _ _ s hc
      by_cases hon : r.output = true
      · by_cases hdown : (s.bay b).state = .fault ∨ (s.bay b).state = .blocked
        · exact congrArg (fun u : State => u.bay c) (takeAck_down hon hdown)
        · by_cases h : r.applied ≤ sent
          · exact (congrArg (fun u : State => u.bay c) (takeAck_within hon hdown h)).trans (hframe _)
          · have hfail : t = enterFault b (writeGrantAck b (y.kind.toSteps sent) s) :=
              (takeAck_above hon hdown (not_le.mp h)).trans (failBay_empty ((writeGrantAck_liveSlot b _ s).trans hnone))
            rw [hfail, (At.enterFault 0 b _).bays c hc, hframe]
      · exact (congrArg (fun u : State => u.bay c) (takeAck_off (by simpa using hon))).trans (hframe _)
  · simp only [BayKind.toSteps, BayKind.toWire, ceilDiv]
    refine ⟨trivial, trivial, trivial, ?_, ?_, trivial, fun kind => kind.toSteps_toWire g⟩ <;> omega

end Sys2Proof.Machine
end

section
/-! # The steps of a bay report after its acknowledgement (R43, R44, R54, R55, R57, R59, R62, R72) -/

namespace Sys2Proof.Machine

/-! ## Steps 4 to 6: an ending completed, a fault code, an unplug -/

theorem completeEnding_ending {b : BayId} {k : SlotId} {s : State} (r : BayReport) (hlive : s.liveSlot b = some k)
    (hstate : (s.slot k).state = .ending) : completeEnding b r s = settle k none (afterByPlug r.plug) s := by
  simp only [completeEnding, hlive, hstate, if_true]

theorem completeEnding_kept {b : BayId} {s : State} (r : BayReport)
    (h : ∀ k, s.liveSlot b = some k → (s.slot k).state ≠ .ending) : completeEnding b r s = s := by
  cases hlive : s.liveSlot b with
  | none => simp only [completeEnding, hlive]
  | some k => simp only [completeEnding, hlive, h k hlive, if_false]

/-- With the output off, step 4 acknowledges 0 and looks for an ending to complete. -/
theorem stepAck_off {b : BayId} {r : BayReport} (s : State) (h : r.output = false) :
    stepAck b r s = completeEnding b r (takeAck b r s) := if_neg (by rw [h]; decide)

theorem stepAck_on {b : BayId} {r : BayReport} (s : State) (h : r.output = true) : stepAck b r s = takeAck b r s := if_pos h

theorem stepAck_kept {b : BayId} {r : BayReport} {s : State}
    (h : r.output = true ∨ ∀ k, s.liveSlot b = some k → (s.slot k).state ≠ .ending) : stepAck b r s = takeAck b r s := by
  cases hout : r.output with
  | true => exact stepAck_on s hout
  | false =>
    rw [stepAck_off s hout, takeAck_off hout]
    refine completeEnding_kept r fun k hlive => ?_
    rw [writeGrantAck_liveSlot] at hlive
    rw [writeGrantAck, writeGrants_slot]
    exact h.resolve_left (by rw [hout]; decide) k hlive

theorem stepFault_code {b : BayId} {r : BayReport} {s : State} (hcode : r.faultCode ≠ 0) (hfault : (s.bay b).state ≠ .fault)
    (hblocked : (s.bay b).state ≠ .blocked) : stepFault b r s = failBay b s := if_pos ⟨hcode, hfault, hblocked⟩

theorem stepFault_kept {b : BayId} {r : BayReport} {s : State}
    (h : r.faultCode = 0 ∨ (s.bay b).state = .fault ∨ (s.bay b).state = .blocked) : stepFault b r s = s := by
  refine if_neg fun ⟨hcode, hfault, hblocked⟩ => ?_
  rcases h with h | h | h
  · exact hcode h
  · exact hfault h
  · exact hblocked h

theorem stepUnplugged_plugged {b : BayId} {r : BayReport} (s : State) (h : r.plug = true) : stepUnplugged b r s = s := if_pos h

theorem stepUnplugged_opening {b : BayId} {k : SlotId} {r : BayReport} {s : State} (h : r.plug = false)
    (hlive : s.liveSlot b = some k) (hstate : (s.slot k).state = .opening) :
    stepUnplugged b r s = endOpening k .unplugged s := by
  simp only [stepUnplugged, h, hlive, hstate, Bool.false_eq_true, if_false]

theorem stepUnplugged_ending {b : BayId} {k : SlotId} {r : BayReport} {s : State} (h : r.plug = false)
    (hlive : s.liveSlot b = some k) (hstate : (s.slot k).state = .ending) :
    stepUnplugged b r s = settle k none .idle s := by
  simp only [stepUnplugged, h, hlive, hstate, Bool.false_eq_true, if_false]

theorem stepUnplugged_queued {b : BayId} {k : SlotId} {r : BayReport} {s : State} (h : r.plug = false)
    (hlive : s.liveSlot b = some k) (hstate : (s.slot k).state.queued = true) :
    stepUnplugged b r s = settle k (some .unplugged) .idle s := by
  have hcases : (s.slot k).state = .waiting ∨ (s.slot k).state = .charging ∨ (s.slot k).state = .suspended := by
    cases hk : (s.slot k).state <;> simp [hk, SessionState.queued] at hstate ⊢
  rcases hcases with hk | hk | hk <;> simp only [stepUnplugged, h, hlive, hk, Bool.false_eq_true, if_false]

theorem stepUnplugged_ends {b : BayId} {r : BayReport} {s : State} (h : r.plug = false) (hlive : s.liveSlot b = none)
    (hstate : (s.bay b).state = .waitingSlot ∨ (s.bay b).state = .stopped) :
    stepUnplugged b r s = s.setBay b { s.bay b with state := .idle, session := none } := by
  rcases hstate with hb | hb <;> simp only [stepUnplugged, h, hlive, hb, Bool.false_eq_true, if_false] <;> rfl

theorem stepUnplugged_empty {b : BayId} {r : BayReport} {s : State} (h : r.plug = false) (hlive : s.liveSlot b = none)
    (hwaiting : (s.bay b).state ≠ .waitingSlot) (hstopped : (s.bay b).state ≠ .stopped) : stepUnplugged b r s = s := by
  simp only [stepUnplugged, h, hlive, Bool.false_eq_true, if_false]
  cases hb : (s.bay b).state with
  | waitingSlot => exact absurd hb hwaiting
  | stopped => exact absurd hb hstopped
  | idle | occupied | fault | blocked => rfl

/-- The states of a session in a live state. -/
theorem live_cases {st : SessionState} (h : st.live = true) : st = .opening ∨ st = .ending ∨ st.queued = true := by
  cases st <;> simp [SessionState.live, SessionState.queued] at h ⊢

/-- An unplugged session that has a receipt is settled, and its bay is free (R44, R54, R57, R62). -/
theorem stepUnplugged_settles {b : BayId} {k : SlotId} {r : BayReport} {s : State} (h : r.plug = false)
    (hlive : s.liveSlot b = some k) (hbay : (s.slot k).bay = b)
    (hopening : (s.slot k).state = .opening → 0 < (s.slot k).energyWh ∧ (s.bay b).plug = false) :
    ∃ cause : Option EndCause, stepUnplugged b r s = settle k cause .idle s
      ∧ cause.or (s.slot k).endCause = if (s.slot k).state = .ending then (s.slot k).endCause else some .unplugged := by
  rcases live_cases (liveSlot_live hlive) with hk | hk | hk
  · obtain ⟨henergy, hplug⟩ := hopening hk
    refine ⟨some .unplugged, ?_, by rw [hk]; rfl⟩
    rw [stepUnplugged_opening h hlive hk, endOpening_energy _ henergy, hbay, hplug]
    rfl
  · exact ⟨none, stepUnplugged_ending h hlive hk, by rw [hk]; rfl⟩
  · refine ⟨some .unplugged, stepUnplugged_queued h hlive hk, ?_⟩
    rw [if_neg fun hending => by rw [hending] at hk; cases hk]
    rfl

/-! ## Steps 9 and 10: the stop button and the demand -/

theorem stepButton_pressed {b : BayId} {k : SlotId} {r : BayReport} {s : State} (h : r.stopButton = true)
    (hlive : s.liveSlot b = some k) : stepButton b r s = stopSession k .customerStop s := by
  simp only [stepButton, hlive, h, if_true]

theorem stepButton_kept {b : BayId} {r : BayReport} {s : State} (h : r.stopButton = false ∨ s.liveSlot b = none) :
    stepButton b r s = s := by
  cases hlive : s.liveSlot b with
  | none => simp only [stepButton, hlive]
  | some k =>
    have hbutton := h.resolve_right (by rw [hlive]; simp)
    simp only [stepButton, hlive, hbutton, Bool.false_eq_true, if_false]

/-- A session's slot with the demand its bay reports (R55). -/
def demandKept (k : SlotId) (demand : Nat) (s : State) : State := s.setSlot k { s.slot k with demand := demand }

theorem takeDemand_session {b : BayId} {k : SlotId} {s : State} (demand : Nat) (hlive : s.liveSlot b = some k) :
    takeDemand b demand s = compareDemand k demand (demandKept k demand s) := by
  simp only [takeDemand, hlive]
  rfl

theorem takeDemand_empty {b : BayId} {s : State} (demand : Nat) (hlive : s.liveSlot b = none) : takeDemand b demand s = s := by
  simp only [takeDemand, hlive]

theorem demandMoved_iff (new used : Nat) :
    demandMoved new used = true ↔ used + 2 ≤ new ∨ new + 2 ≤ used ∨ ¬(new = 0 ↔ used = 0) := by
  have hzero : ((new == 0) != (used == 0)) = true ↔ ¬(new = 0 ↔ used = 0) := by
    rw [bne_iff_ne, ne_eq, Bool.eq_iff_iff, beq_iff_eq, beq_iff_eq]
  rw [demandMoved, Bool.or_eq_true, Bool.or_eq_true, decide_eq_true_eq, decide_eq_true_eq, hzero]
  omega

/-- The one member of a queue that names a session. -/
theorem find_member {q : List Member} (hnodup : (q.map (·.slot)).Nodup) {m : Member} (hm : m ∈ q) :
    (q.find? fun x => x.slot == m.slot) = some m := by
  obtain ⟨x, hx⟩ : ∃ x, (q.find? fun x => x.slot == m.slot) = some x := by
    rw [← Option.isSome_iff_exists, List.find?_isSome]
    exact ⟨m, hm, beq_self_eq_true _⟩
  have hslot : x.slot = m.slot := by simpa using List.find?_some hx
  rw [hx, List.inj_on_of_nodup_map hnodup (List.mem_of_find?_eq_some hx) hm hslot]

theorem compareDemand_member {k : SlotId} {m : Member} {s : State} (demand : Nat) (hnodup : (s.al.queue.map (·.slot)).Nodup)
    (hm : m ∈ s.al.queue) (hk : m.slot = k) : compareDemand k demand s =
      requestPassIf (((s.slot k).state == .waiting || (s.slot k).state == .charging) && (s.slot k).runPermit
        && demandMoved demand m.demandInUse) s := by
  subst hk
  simp only [compareDemand, find_member hnodup hm]

theorem compareDemand_absent {k : SlotId} {s : State} (demand : Nat) (h : ∀ m ∈ s.al.queue, m.slot ≠ k) :
    compareDemand k demand s = s := by
  have hnone : (s.al.queue.find? fun m => m.slot == k) = none := by
    rw [List.find?_eq_none]
    intro m hm
    simpa using h m hm
  simp only [compareDemand, hnone]

/-- Settles O43: steps 4 to 6, 9 and 10 of a bay report. -/
theorem reportStepsTaken : Obligations.ReportStepsTaken := by
  refine ⟨fun b k r s hlive hbay => ?_, fun b r s => ⟨fun hnone => ?_, stepFault_kept, stepUnplugged_plugged s, fun h =>
    stepButton_kept (.inl h)⟩⟩
  · intro x y ended
    have hlivek : ∀ j, s.liveSlot b = some j → j = k := fun j h => Option.some.inj (h.symm.trans hlive)
    have hsettled : ∀ cause after, Settled k b (Option.or cause x.endCause) s (settle k cause after s) := fun cause after => by
      have h := settle_settled k cause after s
      rwa [hbay] at h
    have honly : ∀ cause after, OnlyAt k b s (settle k cause after s) := fun cause after => by
      have h := settle_only k cause after s
      rwa [hbay] at h
    have hafter : ∀ cause after, (settle k cause after s).bay b = bayAfterSettle k after y := fun cause after => by
      have h := settle_bay k cause after s
      rwa [hbay] at h
    refine ⟨fun hstate hoff => ?_, fun h => ?_, fun hcode hfault hblocked => ?_, fun hplug hstate henergy => ?_,
      fun hplug hopening => ?_, fun hbutton hqueued => ?_, fun hbutton hstate henergy => ?_, fun hbutton hstate henergy => ?_,
      fun hbutton hstate => ?_, fun demand => ⟨fun hnodup m hm hmk => ?_, fun habsent => ?_⟩⟩
    · intro t
      have ht : t = settle k none (afterByPlug r.plug) s := completeEnding_ending r hlive hstate
      rw [ht]
      exact ⟨stepAck_off s hoff, hsettled none _, settle_flags .., honly none _, (hafter none _).trans (bayAfterSettle_plug k _ y)⟩
    · refine stepAck_kept (h.imp_right fun hstate j hj => ?_)
      rw [hlivek j hj]
      exact hstate
    · intro t
      have ht : t = settle k (some .bayFault) .fault s := (stepFault_code hcode hfault hblocked).trans (failBay_session hlive)
      have hfailed := settle_failed k (some .bayFault) s
      rw [hbay] at hfailed
      rw [ht]
      refine ⟨hsettled (some .bayFault) _, hfailed, ?_, settle_flags .., honly _ _⟩
      rw [hafter]
      rfl
    · rw [stepUnplugged_opening hplug hlive hstate, endOpening_empty _ henergy, abandon_eq, hbay]
    · intro t
      obtain ⟨cause, ht, hcause⟩ := stepUnplugged_settles hplug hlive hbay hopening
      have hstep : t = settle k cause .idle s := ht
      rw [hstep, ← hcause]
      exact ⟨hsettled cause _, (hafter cause _).trans (bayAfterSettle_idle k y), settle_flags .., honly cause _⟩
    · intro t
      have ht : t = enterEnding k .customerStop s := (stepButton_pressed hbutton hlive).trans (stopSession_queued _ hqueued)
      rw [ht, ← hbay]
      exact ⟨enterEnding_entered k .customerStop s, enterEnding_lost k .customerStop s hqueued⟩
    · rw [stepButton_pressed hbutton hlive, stopSession_opening _ hstate, endOpening_empty _ henergy, abandon_eq, hbay]
    · intro t
      have ht : t = settle k (some .customerStop) (afterByPlug y.plug) s := by
        refine (stepButton_pressed hbutton hlive).trans ((stopSession_opening _ hstate).trans ?_)
        rw [endOpening_energy _ henergy, hbay]
      rw [ht]
      exact ⟨hsettled (some .customerStop) _, honly _ _, (hafter _ _).trans (bayAfterSettle_plug k _ y)⟩
    · rw [stepButton_pressed hbutton hlive, stopSession_ending _ hstate]
    · intro moved
      have hslot : (demandKept k demand s).slot k = { x with demand := demand } := slot_setSlot_same _ _ _
      have hstep := (takeDemand_session demand hlive).trans (compareDemand_member demand (s := demandKept k demand s) hnodup hm hmk)
      rw [hslot] at hstep
      have hiff : ((x.state == .waiting || x.state == .charging) && x.runPermit && demandMoved demand m.demandInUse) = true ↔
          (x.state = .waiting ∨ x.state = .charging) ∧ x.runPermit = true ∧ moved := by
        rw [Bool.and_eq_true, Bool.and_eq_true, Bool.or_eq_true, beq_iff_eq, beq_iff_eq, demandMoved_iff, and_assoc]
      refine ⟨fun hstate hpermit hmoved => hstep.trans ?_, fun hnot => hstep.trans ?_⟩
      · exact if_pos (hiff.mpr ⟨hstate, hpermit, hmoved⟩)
      · exact if_neg fun h => hnot (hiff.mp h)
    · exact (takeDemand_session demand hlive).trans (compareDemand_absent demand habsent)
  · refine ⟨fun hcode hfault hblocked => ?_, fun h => stepUnplugged_ends h hnone,
      fun h => stepUnplugged_empty h hnone, ?_,
      stepButton_kept (.inr hnone), fun demand => takeDemand_empty demand hnone⟩
    · intro t
      have ht : t = enterFault b s := (stepFault_code hcode hfault hblocked).trans (failBay_empty hnone)
      rw [ht]
      exact ⟨enterFault_failed b s, enterFault_bay b s, (At.enterFault 0 b s).bays, enterFault_counted b s, enterFault_st b s,
        enterFault_cs b s⟩
    · exact stepAck_kept (.inr fun k h => by rw [hnone] at h; cases h)

end Sys2Proof.Machine
end

section
/-! # A good report, and what the sources report (R17, R29, R35 to R37, R73, R74, R101) -/

namespace Sys2Proof.Machine

/-! ## A good report acts on the device entry (R29, R101) -/

/-- A device entry after a good report (R29). -/
def goodDevice (now : Nat) (d : Device) : Device := { d with missCount := 0, lastReportTime := now, link := .online }

theorem takeGood_online {e : Entry} {s : State} (h : (s.device e).link = .online) :
    takeGood e s = s.setDevice e (goodDevice s.runTimer (s.device e)) := if_neg (by rw [h]; decide)

theorem takeGood_offline {e : Entry} {s : State} (h : (s.device e).link = .offline) :
    takeGood e s = handReturn e (countLink e (s.setDevice e (goodDevice s.runTimer (s.device e)))) := if_pos h

theorem handReturn_bay {e : Entry} {b : BayId} (h : roleOf e = .bay b) (s : State) :
    handReturn e s = s.setBay b { s.bay b with lostDeadline := none } := by
  simp only [handReturn, h]
  rfl

theorem handReturn_source {e : Entry} (h : 48 ≤ e.val) (s : State) : handReturn e s = s := by
  have hrole := roleOf_ne_bay h
  unfold handReturn
  cases hr : roleOf e with
  | bay b => exact absurd hr (hrole b)
  | battery | canopy | meter => rfl

/-- The end of the wait for a lost link is a change of one bay alone (R101). -/
theorem handReturn_edits (e : Entry) (s : State) : Edits s (handReturn e s) := by
  unfold handReturn
  split
  · exact linkReturnBay_edits _ s
  all_goals exact Edits.refl s

theorem handReturn_others (e : Entry) (s : State) : (handReturn e s).st = s.st ∧ (handReturn e s).cs = s.cs
    ∧ (handReturn e s).hp = s.hp ∧ (handReturn e s).al = s.al := by
  unfold handReturn
  split <;> exact ⟨rfl, rfl, rfl, rfl⟩

theorem Counted.of_after {n : NoticeKind} {a key : Nat} {s t u : State} (h : Counted n a key s t) (hhp : u.hp = t.hp) :
    Counted n a key s u :=
  ⟨(notice_of_hp hhp n).trans h.1, fun m hm => (notice_of_hp hhp m).trans (h.2 m hm)⟩

/-- What a good report leaves before it is handed on (R29, R101). -/
structure GoodTaken (e : Entry) (s t : State) : Prop where
  device : t.device e = goodDevice s.runTimer (s.device e)
  devices : ∀ g, g ≠ e → t.device g = s.device g
  exchange : t.flc.exchange = s.flc.exchange
  gapFrom : t.flc.gapFrom = s.flc.gapFrom
  sc : t.sc = s.sc
  st : t.st = s.st
  cs : t.cs = s.cs
  tc : t.tc = s.tc
  runTimer : t.runTimer = s.runTimer
  queue : t.al.queue = s.al.queue
  results : ResultsKept s t
  usedLoad : t.al.usedLoad = s.al.usedLoad
  usedCanopy : t.al.usedCanopy = s.al.usedCanopy
  pass : PassPrior s t
  online : (s.device e).link = .online → t.hp = s.hp ∧ t.al = s.al ∧ t.bays = s.bays
  offline : (s.device e).link = .offline → Counted .loopDevice (loopAddress e) 0 s t ∧ t.hp.attn = t.attnDue
    ∧ t.hp.port = s.hp.port ∧ PassAsked s t
    ∧ ∀ b, roleOf e = .bay b → t.bay b = { s.bay b with lostDeadline := none } ∧ ∀ c, c ≠ b → t.bay c = s.bay c
  source : 48 ≤ e.val → t.bays = s.bays

theorem goodTaken (e : Entry) (s : State) : GoodTaken e s (takeGood e s) := by
  cases hlink : (s.device e).link with
  | online =>
    rw [takeGood_online hlink]
    exact {
      device := device_setDevice_same _ _ _, devices := fun g hg => device_setDevice_ne _ _ hg, exchange := rfl, gapFrom := rfl
      sc := rfl, st := rfl, cs := rfl, tc := rfl, runTimer := rfl, queue := rfl, results := ⟨rfl, rfl, rfl, rfl, rfl, rfl⟩
      usedLoad := rfl, usedCanopy := rfl, pass := .inl ⟨rfl, rfl⟩, online := fun _ => ⟨rfl, rfl, rfl⟩
      offline := fun h => absurd (hlink.symm.trans h) (by decide), source := fun _ => rfl }
  | offline =>
    rw [takeGood_offline hlink]
    have hw := countLink_counted e s (s.setDevice e (goodDevice s.runTimer (s.device e))).flc
    have hcount := (countLink_edits e (s.setDevice e (goodDevice s.runTimer (s.device e)))).untouched
    change LinkCounted e s (countLink e (s.setDevice e (goodDevice s.runTimer (s.device e)))) at hw
    generalize countLink e (s.setDevice e (goodDevice s.runTimer (s.device e))) = w at *
    have he := handReturn_edits e w
    obtain ⟨hst, hcs, hhp, hal⟩ := handReturn_others e w
    have hdevice := device_of_flc (he.untouched.flc.trans hcount.flc)
    have hasked : PassAsked s (handReturn e w) := hw.asked.edits he
    exact {
      device := (hdevice e).trans (device_setDevice_same _ _ _)
      devices := fun g hg => (hdevice g).trans (device_setDevice_ne _ _ hg)
      exchange := (congrArg FieldLoop.exchange (he.untouched.flc.trans hcount.flc)).trans (setDevice_flc_exchange s e _)
      gapFrom := (congrArg FieldLoop.gapFrom (he.untouched.flc.trans hcount.flc)).trans (setDevice_flc_gapFrom s e _)
      sc := he.untouched.sc.trans hw.sc, st := hst.trans hw.st, cs := hcs.trans hw.cs, tc := he.untouched.tc.trans hw.tc
      runTimer := he.untouched.runTimer.trans hw.runTimer, queue := (congrArg Allocator.queue hal).trans hw.queue
      results := hw.results.trans he.untouched.results
      usedLoad := he.untouched.usedLoad.trans hcount.usedLoad, usedCanopy := he.untouched.usedCanopy.trans hcount.usedCanopy
      pass := .inr hasked
      online := fun h => absurd (hlink.symm.trans h) (by decide)
      offline := fun _ => by
        refine ⟨hw.counted.of_after hhp, he.attn_eq hw.attn, he.untouched.port.trans hw.port, hasked, fun b hb => ?_⟩
        have hbay := bay_of_bays hw.bays
        rw [handReturn_bay hb]
        exact ⟨(bay_setBay_same _ _ _).trans (by rw [hbay]), fun c hc => (bay_setBay_ne _ _ hc).trans (hbay c)⟩
      source := fun h => by rw [handReturn_source h]; exact hw.bays }

/-! ## The reports of the sources (R35 to R37, R73, R74) -/

theorem PassPrior.frame {s t u : State} (h : PassPrior s t) (hpart : passPart u = passPart t) : PassPrior s u := by
  refine h.imp (fun hsame => ?_) (fun hasked => hasked.frame hpart)
  simp only [passPart, Prod.mk.injEq] at hpart
  exact ⟨hpart.2.1.trans hsame.passState, hpart.2.2.1.trans hsame.snapshot⟩

/-- A pass asked for, or asked for anew where a condition holds. -/
theorem PassPrior.askedIf {s t : State} (h : PassPrior s t) {c : Bool} (hc : c = true ∨ PassAsked s t) :
    PassAsked s (requestPassIf c t) := by
  rcases hc with rfl | hc
  · exact h.request
  · exact hc.edits (requestPassIf_edits c t)

theorem completed_al {t : State} (h : PassSampled t) : (completed t).al = t.al := by
  unfold completed
  rw [sampleIfBegun_of_sampled h]

theorem PassSampled.frame {s t : State} (h : PassSampled s) (hpass : SamePass s t) : PassSampled t := by
  unfold PassSampled
  rw [hpass.passState, hpass.snapshot]
  exact h

theorem canopyTotal_congr {s t : State} (hdevice : ∀ e, t.device e = s.device e) (hinverter : ∀ k, t.inverter k = s.inverter k) :
    t.canopyTotal = s.canopyTotal := by
  simp only [State.canopyTotal, hdevice, hinverter]

theorem takeReport_meter {e : Entry} (h : roleOf e = .meter) (load : Nat) (s : State) :
    takeReport e (.meter load) s = takeStoreLoad load (takeGood e s) := by
  simp only [takeReport, h]

theorem takeReport_canopy {e : Entry} {k : InverterId} (h : roleOf e = .canopy k) (power : Nat) (s : State) :
    takeReport e (.canopy power) s = takeCanopy k power (takeGood e s) := by
  simp only [takeReport, h]

theorem takeReport_battery {e : Entry} (h : roleOf e = .battery) (soe : Nat) (applied : Int) (s : State) :
    takeReport e (.battery soe applied) s = takeBattery soe applied (takeGood e s) := by
  simp only [takeReport, h]

theorem takeReport_bay {e : Entry} {b : BayId} (h : roleOf e = .bay b) (r : BayReport) (s : State) :
    takeReport e (.bay r) s = takeGoodBay b r (takeGood e s) := by
  simp only [takeReport, h]

/-- What a source report leaves: all but the records of AL, and the reserve. -/
structure SourceFrame (v u : State) : Prop where
  flc : u.flc = v.flc
  hp : u.hp = v.hp
  queue : u.al.queue = v.al.queue
  lastPass : u.al.lastPass = v.al.lastPass
  bays : u.bays = v.bays
  st : u.st = v.st
  cs : u.cs = v.cs
  tc : u.tc = v.tc
  gate : u.sc.gate = v.sc.gate

theorem SourceFrame.refl (v : State) : SourceFrame v v := ⟨rfl, rfl, rfl, rfl, rfl, rfl, rfl, rfl, rfl⟩

theorem attnDue_congr {s t : State} (hhp : t.hp = s.hp) (hgate : t.sc.gate = s.sc.gate) : t.attnDue = s.attnDue := by
  simp only [State.attnDue, hhp, hgate]

theorem SourceFrame.requestPassIf {v w : State} (h : SourceFrame v w) (c : Bool) : SourceFrame v (requestPassIf c w) :=
  ⟨(requestPassIf_flc c w).trans h.flc, (requestPassIf_hp c w).trans h.hp, (requestPassIf_queue c w).trans h.queue,
    (requestPassIf_edits c w).untouched.lastPass.trans h.lastPass, (requestPassIf_bays c w).trans h.bays,
    (requestPassIf_st c w).trans h.st, (requestPassIf_cs c w).trans h.cs, (requestPassIf_edits c w).untouched.tc.trans h.tc,
    (congrArg SiteConfig.gate (requestPassIf_sc c w)).trans h.gate⟩

/-- The record of the store load after a meter report (R37). -/
def loadTaken (load : Nat) (v : State) : State := { v with al.storeLoad := load }

theorem takeStoreLoad_eq (load : Nat) (v : State) :
    takeStoreLoad load v = requestPassIf (movedByTen load v.al.usedLoad) (loadTaken load v) := rfl

/-- The record of an inverter after its report (R35). -/
def canopyTaken (k : InverterId) (power : Nat) (v : State) : State :=
  v.setInverter k { v.inverter k with lastPower := min power (v.inverter k).rating }

theorem takeCanopy_eq (k : InverterId) (power : Nat) (v : State) : takeCanopy k power v =
    requestPassIf (movedByTen (canopyTaken k power v).canopyTotal v.al.usedCanopy) (canopyTaken k power v) := rfl

/-- The battery's record and the permit after a battery report (R36, R74). -/
def batteryTaken (soe : Nat) (applied : Int) (v : State) : State :=
  { v with
    al.battery := { v.al.battery with soe := min soe v.sc.eCap, applied := applied }
    al.permit := nextPermit (min soe v.sc.eCap) v.sc.eFloor v.sc.eCap v.al.permit }

/-- The battery's report taken, with the pass that a change of the permit asks for (R74). -/
def batteryAsked (soe : Nat) (applied : Int) (v : State) : State :=
  requestPassIf ((batteryTaken soe applied v).al.permit != v.al.permit) (batteryTaken soe applied v)

theorem grantReserve_ifZero (applied : Int) (w : State) : (if applied = 0 then grantReserve w else w) =
    { w with sc.reserve := if w.sc.reserve = .claimed ∧ applied = 0 then .granted else w.sc.reserve } := by
  split
  · next h => simp only [grantReserve_eq, h, and_true]
  · next h => simp only [h, and_false, if_false]

theorem takeBattery_eq (soe : Nat) (applied : Int) (v : State) : takeBattery soe applied v =
    { batteryAsked soe applied v with sc.reserve :=
        if (batteryAsked soe applied v).sc.reserve = .claimed ∧ applied = 0 then .granted
        else (batteryAsked soe applied v).sc.reserve } :=
  grantReserve_ifZero applied (batteryAsked soe applied v)

theorem takeReport_frame {e : Entry} (h : 48 ≤ e.val) (r : Report) (s : State) :
    SourceFrame (takeGood e s) (takeReport e r s) := by
  have hrole := roleOf_ne_bay h
  cases hr : roleOf e with
  | bay b => exact absurd hr (hrole b)
  | canopy k =>
    cases r with
    | canopy power =>
      rw [takeReport_canopy hr, takeCanopy_eq]
      have htaken : SourceFrame (takeGood e s) (canopyTaken k power (takeGood e s)) := ⟨rfl, rfl, rfl, rfl, rfl, rfl, rfl, rfl, rfl⟩
      exact htaken.requestPassIf _
    | bay | battery | meter =>
      simp only [takeReport, hr]
      exact .refl _
  | battery =>
    cases r with
    | battery soe applied =>
      have htaken : SourceFrame (takeGood e s) (batteryTaken soe applied (takeGood e s)) :=
        ⟨rfl, rfl, rfl, rfl, rfl, rfl, rfl, rfl, rfl⟩
      have hasked := htaken.requestPassIf ((batteryTaken soe applied (takeGood e s)).al.permit != (takeGood e s).al.permit)
      rw [takeReport_battery hr, takeBattery_eq]
      exact ⟨hasked.flc, hasked.hp, hasked.queue, hasked.lastPass, hasked.bays, hasked.st, hasked.cs, hasked.tc, hasked.gate⟩
    | bay | canopy | meter =>
      simp only [takeReport, hr]
      exact .refl _
  | meter =>
    cases r with
    | meter load =>
      rw [takeReport_meter hr, takeStoreLoad_eq]
      have htaken : SourceFrame (takeGood e s) (loadTaken load (takeGood e s)) := ⟨rfl, rfl, rfl, rfl, rfl, rfl, rfl, rfl, rfl⟩
      exact htaken.requestPassIf _
    | bay | canopy | battery =>
      simp only [takeReport, hr]
      exact .refl _

theorem exec_reported {p : Poll} {d : Nat} {chars : List RxChar} {r : Report} {s : State}
    (hawaiting : s.flc.exchange = .awaiting p d) (hkept : p.removed = false) (hjudge : judge p.entry chars = .ok r) :
    exec (.responseReceived chars) s = .next (completed (takeReport p.entry r (endExchange s))) := by
  rw [exec_responseReceived, execResponseReceived_awaiting chars hawaiting, concludeExchange_good s hkept hjudge]
  rfl

/-- A pass requested by a source report: the report's own reason, or the device come ONLINE. -/
theorem GoodTaken.requested {e : Entry} {s v w : State} (h : GoodTaken e s v) (hp : PassSampled s) (hpart : passPart w = passPart v)
    {c : Bool} (hc : (s.device e).link = .offline ∨ c = true) : PassRequested s (completed (requestPassIf c w)) := by
  refine PassAsked.completed hp ((h.pass.frame hpart).askedIf ?_)
  rcases hc with hc | hc
  · exact .inr ((h.offline hc).2.2.2.1.frame hpart)
  · exact .inl hc

/-- Without a reason to request a pass, AL is as the report leaves its records. -/
theorem GoodTaken.kept {e : Entry} {s v w : State} (h : GoodTaken e s v) (hp : PassSampled s) (hpart : passPart w = passPart v)
    (honline : (s.device e).link = .online) : (completed w).al = w.al := by
  refine completed_al (hp.frame ?_)
  have hal := (h.online honline).2.1
  simp only [passPart, Prod.mk.injEq] at hpart
  exact ⟨hpart.2.1.trans (by rw [hal]), hpart.2.2.1.trans (by rw [hal])⟩

theorem movedByTen_iff (new used : Nat) : movedByTen new used = true ↔ 10 ≤ new - used ∨ 10 ≤ used - new := by
  rw [movedByTen, Bool.or_eq_true, decide_eq_true_eq, decide_eq_true_eq]

/-- Settles O45: the reports of the store meter, of an inverter and of the battery. -/
theorem sourceReportsTaken : Obligations.SourceReportsTaken := by
  intro p d chars s hp hawaiting hkept link
  have hgood := goodTaken p.entry (endExchange s)
  refine ⟨fun load he hjudge => ?_, fun k power he hjudge => ?_, fun soe applied he hjudge => ?_, fun r he hjudge => ?_⟩
  · have hexec := exec_reported hawaiting hkept hjudge
    rw [takeReport_meter (by rw [he]; rfl), takeStoreLoad_eq] at hexec
    generalize takeGood p.entry (endExchange s) = v at *
    obtain ⟨hshare, hpermit, hinverters, hbattery, -, -⟩ := hgood.results
    have hused : v.al.usedLoad = s.al.usedLoad := hgood.usedLoad
    rw [hused] at hexec
    have hrequested := hgood.requested (w := loadTaken load v) hp rfl (c := movedByTen load s.al.usedLoad)
    have hkeptAl := hgood.kept (w := loadTaken load v) hp rfl
    have hun := (requestPassIf_edits (movedByTen load s.al.usedLoad) (loadTaken load v)).untouched
    refine ⟨_, hexec, ?_, fun h => hrequested ?_, fun honline hbelow habove => ?_, ?_, ?_, ?_, ?_, ?_⟩
    · rw [completed_storeLoad, hun.storeLoad]
      rfl
    · exact h.imp_right fun hmoved => (movedByTen_iff _ _).mpr hmoved
    · have hsame : movedByTen load s.al.usedLoad = false := by
        rw [Bool.eq_false_iff, ne_eq, movedByTen_iff]
        omega
      rw [hsame, requestPassIf_false, hkeptAl honline]
      exact congrArg (fun a : Allocator => { a with storeLoad := load }) (hgood.online honline).2.1
    · rw [completed_sc, hun.sc]
      exact hgood.sc
    · rw [completed_share, hun.share]
      exact hshare
    · rw [completed_battery, hun.battery]
      exact hbattery
    · rw [completed_inverters, hun.inverters]
      exact hinverters
    · rw [completed_permit, hun.permit]
      exact hpermit
  · have hexec := exec_reported hawaiting hkept hjudge
    rw [takeReport_canopy (roleOf_of_canopy he), takeCanopy_eq] at hexec
    generalize takeGood p.entry (endExchange s) = v at *
    obtain ⟨hshare, hpermit, hinverters, hbattery, hload, -⟩ := hgood.results
    have hused : v.al.usedCanopy = s.al.usedCanopy := hgood.usedCanopy
    have hinverter : ∀ j, v.inverter j = s.inverter j := fun j => by simp only [State.inverter, hinverters]; rfl
    have hrecord : (canopyTaken k power v).inverter k = { s.inverter k with lastPower := min power (s.inverter k).rating } := by
      rw [← hinverter]
      exact inverter_setInverter_same _ _ _
    have hothers : ∀ j, j ≠ k → (canopyTaken k power v).inverter j = s.inverter j :=
      fun j hj => (inverter_setInverter_ne _ _ hj).trans (hinverter j)
    have hpart : passPart (canopyTaken k power v) = passPart v := rfl
    have hal : (canopyTaken k power v).al = { v.al with inverters := (canopyTaken k power v).al.inverters } := rfl
    have hsc : (canopyTaken k power v).sc = v.sc := rfl
    rw [hused] at hexec
    generalize canopyTaken k power v = w at *
    have hun := (requestPassIf_edits (movedByTen w.canopyTotal s.al.usedCanopy) w).untouched
    have htotal : (completed (requestPassIf (movedByTen w.canopyTotal s.al.usedCanopy) w)).canopyTotal = w.canopyTotal :=
      canopyTotal_congr (fun e => by rw [completed_device, device_of_flc hun.flc])
        fun j => by rw [completed_inverter]; simp only [State.inverter, hun.inverters]
    refine ⟨_, hexec, ?_, fun j hj => ?_, fun h => hgood.requested hp hpart ?_, fun honline hbelow habove => ?_, ?_, ?_, ?_, ?_, ?_⟩
    · rw [completed_inverter, ← hrecord]
      simp only [State.inverter, hun.inverters]
    · rw [completed_inverter, ← hothers j hj]
      simp only [State.inverter, hun.inverters]
    · rw [htotal] at h
      exact h.imp_right fun hmoved => (movedByTen_iff _ _).mpr hmoved
    · rw [htotal] at hbelow habove
      have hsame : movedByTen w.canopyTotal s.al.usedCanopy = false := by
        rw [Bool.eq_false_iff, ne_eq, movedByTen_iff]
        omega
      rw [hsame, requestPassIf_false, hgood.kept hp hpart honline, hal, (hgood.online honline).2.1]
      rfl
    · rw [completed_sc, hun.sc, hsc]
      exact hgood.sc
    · rw [completed_share, hun.share, hal]
      exact hshare
    · rw [completed_battery, hun.battery, hal]
      exact hbattery
    · rw [completed_storeLoad, hun.storeLoad, hal]
      exact hload
    · rw [completed_permit, hun.permit, hal]
      exact hpermit
  · intro soe'
    have hexec := exec_reported hawaiting hkept hjudge
    rw [takeReport_battery (by rw [he]; rfl), takeBattery_eq] at hexec
    generalize takeGood p.entry (endExchange s) = v at *
    obtain ⟨hshare, hpermit, hinverters, hbattery, hload, -⟩ := hgood.results
    have hsc : v.sc = s.sc := hgood.sc
    have hpart : passPart (batteryTaken soe applied v) = passPart v := rfl
    have hrecord : (batteryTaken soe applied v).al.battery = { s.al.battery with soe := soe', applied := applied } := by
      simp only [batteryTaken, hsc, hbattery]
      rfl
    have hnext : (batteryTaken soe applied v).al.permit = if soe' ≤ s.sc.eFloor then false
        else if s.sc.eFloor + (s.sc.eCap + 99) / 100 ≤ soe' then true else s.al.permit := by
      simp only [batteryTaken, hsc, hpermit]
      rfl
    have htaken : (batteryTaken soe applied v).al =
        { v.al with battery := (batteryTaken soe applied v).al.battery, permit := (batteryTaken soe applied v).al.permit } := rfl
    have hun := (requestPassIf_edits ((batteryTaken soe applied v).al.permit != v.al.permit) (batteryTaken soe applied v)).untouched
    have hsame : (batteryAsked soe applied v).sc = s.sc := hun.sc.trans hsc
    have hasked := (hgood.pass.frame hpart).askedIf (c := (batteryTaken soe applied v).al.permit != v.al.permit)
    have hquiet : (batteryTaken soe applied v).al.permit = v.al.permit → batteryAsked soe applied v = batteryTaken soe applied v :=
      fun h => by rw [batteryAsked, h, bne_self_eq_false, requestPassIf_false]
    change Untouched (batteryTaken soe applied v) (batteryAsked soe applied v) at hun
    change _ → PassAsked _ (batteryAsked soe applied v) at hasked
    rw [hsame] at hexec
    generalize batteryAsked soe applied v = u at *
    generalize batteryTaken soe applied v = w at *
    refine ⟨_, hexec, ?_, ?_, fun h => PassAsked.completed hp ?_, fun honline h => ?_, ?_, ?_, ?_, ?_⟩
    · rw [completed_battery]
      exact hun.battery.trans hrecord
    · rw [completed_permit]
      exact hun.permit.trans hnext
    · rw [completed_permit] at h
      refine PassAsked.frame (t := u) (hasked ?_) rfl
      rcases h with h | h
      · exact .inr ((hgood.offline h).2.2.2.1.frame hpart)
      · refine .inl (bne_iff_ne.mpr fun heq => h (hun.permit.trans (heq.trans hpermit)))
    · rw [completed_permit] at h
      have hpermits : w.al.permit = v.al.permit := hun.permit.symm.trans (h.trans hpermit.symm)
      have huw := hquiet hpermits
      subst huw
      have hkeptAl := fun r => hgood.kept (w := { u with sc.reserve := r }) hp hpart honline
      rw [completed_battery, hkeptAl]
      dsimp only
      rw [htaken, hpermits, (hgood.online honline).2.1]
      rfl
    · rw [completed_sc]
      dsimp only
      rw [hsame]
    · rw [completed_share]
      exact hun.share.trans (by rw [htaken]; exact hshare)
    · rw [completed_inverters]
      exact hun.inverters.trans (by rw [htaken]; exact hinverters)
    · rw [completed_storeLoad]
      exact hun.storeLoad.trans (by rw [htaken]; exact hload)
  · have hexec := exec_reported hawaiting hkept hjudge
    have hframe := takeReport_frame he r (endExchange s)
    generalize takeGood p.entry (endExchange s) = v at *
    generalize takeReport p.entry r (endExchange s) = u at *
    have hdevice := device_of_flc hframe.flc
    refine ⟨_, hexec, ?_, fun e hne => ?_, ?_, ?_, fun honline => ?_, fun hoffline => ?_, ?_, ?_, ?_, ?_, ?_, ?_⟩
    · rw [completed_device, hdevice]
      exact hgood.device
    · rw [completed_device, hdevice]
      exact hgood.devices e hne
    · rw [completed_flc, hframe.flc]
      exact hgood.exchange
    · rw [completed_flc, hframe.flc]
      exact hgood.gapFrom
    · rw [completed_hp, hframe.hp]
      exact (hgood.online honline).1
    · obtain ⟨hcounted, hattn, hport, -, -⟩ := hgood.offline hoffline
      refine ⟨(hcounted.of_after hframe.hp).completed, ?_, ?_⟩
      · rw [completed_hp, completed_attnDue, attnDue_congr hframe.hp hframe.gate, hframe.hp]
        exact hattn
      · rw [completed_hp, hframe.hp]
        exact hport
    · rw [completed_queue, hframe.queue, hgood.queue]
      rfl
    · rw [completed_lastPass, hframe.lastPass]
      exact hgood.results.2.2.2.2.2
    · rw [completed_bays, hframe.bays]
      exact hgood.source he
    · rw [completed_st, hframe.st]
      exact hgood.st
    · rw [completed_cs, hframe.cs]
      exact hgood.cs
    · rw [completed_tc, hframe.tc]
      exact hgood.tc

end Sys2Proof.Machine
end

section
/-! # The hand-over of a bay report (R29 to R34, R38, R64, R98, R101) -/

namespace Sys2Proof.Machine

/-! ## The output of a bay that is not taken into service (R32, R98) -/

/-- A bay's record after a report of which the output alone is taken. -/
def outputShown (r : BayReport) (z : Bay) : Bay :=
  { z with output := r.output, grantAck := if r.output then z.grantAck else 0, ackWait := if r.output then z.ackWait else none }

/-- What a report of which the output alone is taken leaves. -/
structure OutputTaken (b : BayId) (r : BayReport) (s t : State) : Prop where
  bay : t.bay b = outputShown r (s.bay b)
  bays : ∀ c, c ≠ b → t.bay c = s.bay c
  st : t.st = s.st
  cs : t.cs = s.cs
  hp : t.hp = s.hp
  queue : t.al.queue = s.al.queue
  al : t.al = if (t.bay b).committed < (s.bay b).committed then (requestPass s).al else s.al
  edits : Edits s t

theorem takeBlockedOutput_taken (b : BayId) (r : BayReport) (s : State) :
    OutputTaken b r s (takeBlockedOutput b r s) := by
  have hshow : Edits s (s.setBay b { s.bay b with output := r.output }) := setBay_edits ⟨rfl, rfl, rfl, rfl, rfl, rfl⟩
  cases hout : r.output with
  | true =>
    have hstep : takeBlockedOutput b r s = s.setBay b { s.bay b with output := true } := by
      unfold takeBlockedOutput
      rw [hout]
      rfl
    have hbay : (s.setBay b { s.bay b with output := true }).bay b = outputShown r (s.bay b) := by
      rw [bay_setBay_same]
      simp only [outputShown, hout, if_true]
    rw [hout] at hshow
    rw [hstep]
    refine ⟨hbay, fun c hc => bay_setBay_ne _ _ hc, rfl, rfl, rfl, rfl, ?_, hshow⟩
    rw [bay_setBay_same]
    exact (if_neg (lt_irrefl _)).symm
  | false =>
    have hstep : takeBlockedOutput b r s = writeGrantAck b 0 (s.setBay b { s.bay b with output := false }) := by
      unfold takeBlockedOutput
      rw [hout]
      rfl
    have hal := writeGrantAck_al b 0 (s.setBay b { s.bay b with output := false })
    rw [requestPass_al_setBay, bay_setBay_same] at hal
    rw [hout] at hshow
    rw [hstep]
    refine ⟨?_, fun c hc => ?_, writeGrants_st b _ _ _, writeGrants_cs b _ _ _, writeGrants_hp b _ _ _, ?_, hal,
      hshow.trans (writeGrantAck_edits b 0 _)⟩
    · rw [writeGrantAck_bay, bay_setBay_same]
      simp only [outputShown, hout, Nat.zero_le, if_true, Bool.false_eq_true, if_false]
    · exact (writeGrants_bay_ne _ _ _ hc).trans (bay_setBay_ne _ _ hc)
    · simp [writeGrantAck, writeGrants]

/-! ## The identity check (R31, R32, R64) -/

theorem identityMatches_iff (y : Bay) (r : BayReport) :
    identityMatches y r = true ↔ r.idKind = y.kind ∧ y.kind.minSteps ≤ r.idMax := by
  rw [identityMatches, Bool.and_eq_true, beq_iff_eq, decide_eq_true_eq]

/-- A bay whose identity a report has refuted, before its state (R31). -/
def mismatchedState (b : BayId) (s : State) : State := s.setBay b { s.bay b with identity := .mismatch }

theorem mismatchedState_edits (b : BayId) (s : State) : Edits s (mismatchedState b s) := setBay_edits ⟨rfl, rfl, rfl, rfl, rfl, rfl⟩

theorem mismatchedState_liveSlot (b : BayId) (s : State) : (mismatchedState b s).liveSlot b = s.liveSlot b :=
  liveSlot_congr (by rw [mismatchedState, bay_setBay_same]) fun _ => rfl

theorem takeMismatch_blocked {b : BayId} {s : State} (h : (s.bay b).state = .blocked) :
    takeMismatch b s = mismatchedState b s := if_pos h

theorem takeMismatch_empty {b : BayId} {s : State} (h : (s.bay b).state ≠ .blocked) (hlive : s.liveSlot b = none) :
    takeMismatch b s = countNotice .bayFault b.val 0 (enterBlocked b (mismatchedState b s)) := by
  have hnone := (mismatchedState_liveSlot b s).trans hlive
  unfold mismatchedState at hnone
  simp only [takeMismatch, State.modBay, h, hnone, if_false]
  rfl

theorem takeMismatch_session {b : BayId} {k : SlotId} {s : State} (h : (s.bay b).state ≠ .blocked)
    (hlive : s.liveSlot b = some k) : takeMismatch b s =
      countNotice .bayFault b.val 0 (settle k (some .bayFault) .blocked (mismatchedState b s)) := by
  have hsome := (mismatchedState_liveSlot b s).trans hlive
  unfold mismatchedState at hsome
  simp only [takeMismatch, State.modBay, h, hsome, if_false]
  rfl

theorem takeGoodBay_held {b : BayId} {r : BayReport} {s : State} (hstate : (s.bay b).state = .blocked)
    (hidentity : (s.bay b).identity = .mismatch) : takeGoodBay b r s = takeBlockedOutput b r s := if_pos ⟨hstate, hidentity⟩

theorem takeGoodBay_refused {b : BayId} {r : BayReport} {s : State}
    (h : ¬((s.bay b).state = .blocked ∧ (s.bay b).identity = .mismatch))
    (hfits : ¬(r.idKind = (s.bay b).kind ∧ (s.bay b).kind.minSteps ≤ r.idMax)) :
    takeGoodBay b r s = takeBlockedOutput b r (takeMismatch b s) :=
  (if_neg h).trans (if_neg (by rw [identityMatches_iff]; exact hfits))

/-- A bay's record after a matching report (R31). -/
def matchedBay (b : BayId) (r : BayReport) (s : State) : Bay :=
  { s.bay b with identity := .matched, maxSteps := min (s.bayDevice b).declaredMax r.idMax }

theorem takeGoodBay_matched {b : BayId} {r : BayReport} {s : State}
    (h : ¬((s.bay b).state = .blocked ∧ (s.bay b).identity = .mismatch))
    (hfits : r.idKind = (s.bay b).kind ∧ (s.bay b).kind.minSteps ≤ r.idMax) : takeGoodBay b r s =
      handToBay b r (s.setBay b (if (s.bay b).state = .blocked then { matchedBay b r s with state := .idle } else matchedBay b r s)) := by
  have hmatches := (identityMatches_iff (s.bay b) r).mpr hfits
  refine (if_neg h).trans ((if_pos hmatches).trans ?_)
  split
  · refine congrArg (handToBay b r) ?_
    simp only [takeMatch, State.modBay, bay_setBay_same, setBay_setBay]
    rfl
  · rfl

theorem enterBlocked_bay (b : BayId) (s : State) : (enterBlocked b s).bay b =
    { s.bay b with state := .blocked, session := none, message := none, ackWait := none, grantSet := 0 } := by
  simp [enterBlocked, writeGrantSet, writeGrants_bay, Bay.withGrants]

/-- A write of the grants that lowers the committed power asks for a pass (R91). -/
theorem writeGrants_asked {b : BayId} {set ack : Nat} {s : State} (h : max set ack < (s.bay b).committed) :
    PassAsked s (writeGrants b set ack s) := by
  have hlower : decide (((s.bay b).withGrants set ack).committed < (s.bay b).committed) = true := decide_eq_true h
  rw [writeGrants, hlower, requestPassIf_true]
  exact PassAsked.ofEdits (setBay_edits (withGrants_sameDeclaration _ _ _))

theorem enterBlocked_asked {b : BayId} {s : State} (h : ((enterBlocked b s).bay b).committed < (s.bay b).committed) :
    PassAsked s (enterBlocked b s) := by
  have hlower : max 0 (s.bay b).grantAck < (s.bay b).committed := by
    rw [enterBlocked_bay] at h
    exact h
  unfold enterBlocked writeGrantSet
  refine PassAsked.of_al (writeGrants_asked ?_) (modBay_al s b _)
  rw [bay_modBay_same]
  exact hlower

/-- A pass asked for by the first or the second of two writes that each may lower a bay's committed power. -/
theorem OutputTaken.asked {b : BayId} {r : BayReport} {s u t : State} (h : OutputTaken b r u t) (he : Edits s u)
    (hfirst : (u.bay b).committed < (s.bay b).committed → PassAsked s u) (hlower : (t.bay b).committed < (s.bay b).committed) :
    PassAsked s t := by
  by_cases hless : (u.bay b).committed < (s.bay b).committed
  · exact (hfirst hless).edits h.edits
  · have hal := h.al
    rw [if_pos (by omega)] at hal
    have hasked : PassAsked s (requestPass u) := ((PassPrior.refl s).edits he).request
    refine hasked.frame ?_
    have hsc : t.sc = u.sc := h.edits.untouched.sc
    simp only [passPart, hal, hsc, requestPass_sc]

/-- A session settled before its bay's record or other notices are written is settled. -/
theorem Settled.later {k : SlotId} {b : BayId} {cause : Option EndCause} {s t u : State} (h : Settled k b cause s t)
    (he : Edits t u) (hslot : u.slot k = t.slot k)
    (hbay : (u.bay b).grantSet = (t.bay b).grantSet ∧ (u.bay b).scan = (t.bay b).scan
      ∧ (u.bay b).lostDeadline = (t.bay b).lostDeadline)
    (hqueue : u.al.queue = t.al.queue) (hnotice : u.notice .receiptReady = t.notice .receiptReady) : Settled k b cause s u where
  state := by rw [hslot]; exact h.state
  cause := by rw [hslot]; exact h.cause
  endTime := by rw [hslot]; exact h.endTime
  waits := by rw [hslot]; exact h.waits
  permit := by rw [hslot]; exact h.permit
  source := by rw [hslot]; exact h.source
  session := by rw [hslot]; exact h.session
  metered := by rw [hslot]; exact h.metered
  receipt := by rw [hslot]; exact h.receipt
  bay := by rw [hbay.1, hbay.2.1, hbay.2.2]; exact h.bay
  queue := by rw [hqueue]; exact h.queue
  asked := fun hqueued => (h.asked hqueued).edits he
  counted := by rw [hnotice]; exact h.counted
  attn := he.attn_eq h.attn

theorem settle_blocked_notice (k : SlotId) (cause : Option EndCause) (s : State) :
    (settle k cause .blocked s).notice .bayFault = s.notice .bayFault := by
  rw [settle_eq, makeReceipt, countNotice_ne _ _ _ (by decide)]
  have hbay : (settledBay k cause .blocked s).hp = s.hp := ((settleBay_hp _ _ _).2.2).trans (settle_hp_pre k cause s)
  simp only [State.notice, modSlot_hp, releaseHoldings_hp, hbay]

/-- A bay's record where its identity is refuted without a session (R31, R64, R98). -/
def refusedBay (y : Bay) : Bay :=
  { y with identity := .mismatch, state := .blocked, session := none, message := none, ackWait := none, grantSet := 0 }

/-- What a mismatching report of a bay without a session leaves, before its output is taken (R31, R64). -/
structure RefusedEmpty (b : BayId) (s u : State) : Prop where
  bay : u.bay b = refusedBay (s.bay b)
  bays : ∀ c, c ≠ b → u.bay c = s.bay c
  st : u.st = s.st
  cs : u.cs = s.cs
  counted : Counted .bayFault b.val 0 s u
  attn : u.hp.attn = u.attnDue
  asked : (u.bay b).committed < (s.bay b).committed → PassAsked s u
  edits : Edits s u

theorem takeMismatch_refusedEmpty {b : BayId} {s : State} (h : (s.bay b).state ≠ .blocked) (hlive : s.liveSlot b = none) :
    RefusedEmpty b s (takeMismatch b s) := by
  have hmarked : (mismatchedState b s).bay b = { s.bay b with identity := .mismatch } := bay_setBay_same _ _ _
  have hhp : (enterBlocked b (mismatchedState b s)).hp = s.hp := by simp [enterBlocked, writeGrantSet, mismatchedState]
  have hst : (enterBlocked b (mismatchedState b s)).st = s.st := by simp [enterBlocked, writeGrantSet, mismatchedState]
  have hcs : (enterBlocked b (mismatchedState b s)).cs = s.cs := by simp [enterBlocked, writeGrantSet, mismatchedState]
  have hbay := enterBlocked_bay b (mismatchedState b s)
  have hbays := (At.enterBlocked 0 b (mismatchedState b s)).bays
  have hedits := (mismatchedState_edits b s).trans (enterBlocked_edits b (mismatchedState b s))
  have hasked := enterBlocked_asked (b := b) (s := mismatchedState b s)
  rw [hmarked] at hbay hasked
  rw [takeMismatch_empty h hlive]
  generalize enterBlocked b (mismatchedState b s) = w at *
  have hcount := countNotice_edits .bayFault b.val 0 w
  exact ⟨hbay, fun c hc => (hbays c hc).trans (bay_setBay_ne _ _ hc), hst, hcs,
    (counted_countNotice .bayFault b.val 0 w).of_hp hhp, countNotice_attn _ _ _ _,
    fun hless => ((hasked hless).of_al rfl).edits hcount, hedits.trans hcount⟩

/-- What a mismatching report of a bay with a session leaves, its output taken (R31, R56, R64). -/
structure RefusedSession (k : SlotId) (b : BayId) (r : BayReport) (s v : State) : Prop where
  settled : Settled k b (some .bayFault) s v
  bay : v.bay b = outputShown r { refusedBay (s.bay b) with scan := .empty, lostDeadline := none, stopFlag := true }
  counted : (v.notice .bayFault).count = min 255 ((s.notice .bayFault).count + 1) ∧ (v.notice .bayFault).argument = b.val
  only : OnlyAt k b s v

theorem takeMismatch_refusedSession {b : BayId} {k : SlotId} (r : BayReport) {s : State} (h : (s.bay b).state ≠ .blocked)
    (hlive : s.liveSlot b = some k) (hb : (s.slot k).bay = b) :
    RefusedSession k b r s (takeBlockedOutput b r (takeMismatch b s)) := by
  have hb' : ((mismatchedState b s).slot k).bay = b := hb
  have hsettled := settle_after (some .bayFault) .blocked (mismatchedState_edits b s) hb rfl rfl rfl
  have hafter := settle_bay k (some .bayFault) .blocked (mismatchedState b s)
  have hat := At.settle k (some .bayFault) .blocked (mismatchedState b s)
  have hnotice := settle_blocked_notice k (some .bayFault) (mismatchedState b s)
  have hedits := (mismatchedState_edits b s).trans (settle_edits k (some .bayFault) .blocked (mismatchedState b s))
  have hmarked : (mismatchedState b s).bay b = { s.bay b with identity := .mismatch } := bay_setBay_same _ _ _
  rw [hb'] at hafter hat
  rw [hmarked] at hafter
  rw [takeMismatch_session h hlive]
  generalize settle k (some .bayFault) .blocked (mismatchedState b s) = u at *
  have hshown := takeBlockedOutput_taken b r (countNotice .bayFault b.val 0 u)
  generalize takeBlockedOutput b r (countNotice .bayFault b.val 0 u) = v at *
  have hlast := (countNotice_edits .bayFault b.val 0 u).trans hshown.edits
  have hbay : v.bay b = outputShown r (u.bay b) := hshown.bay
  have hcounted : v.notice .bayFault = (s.notice .bayFault).occur b.val 0 :=
    (notice_of_hp hshown.hp _).trans ((countNotice_same _ _ _ u).trans (by rw [hnotice]; rfl))
  refine ⟨hsettled.later hlast (slot_of_st hshown.st k) (by rw [hbay]; exact ⟨rfl, rfl, rfl⟩) hshown.queue
    ((notice_of_hp hshown.hp _).trans (countNotice_ne _ _ _ (by decide))), ?_, ?_, ?_⟩
  · rw [hbay, hafter]
    rfl
  · rw [hcounted]
    exact ⟨rfl, rfl⟩
  · have hfirst : At k b s u := (At.setBay k b s _).trans hat
    have hlastAt : At k b u v := (At.notice k b u .bayFault b.val 0).trans
      ⟨fun j _ => slot_of_st hshown.st j, hshown.bays, by rw [hshown.st], by rw [hshown.st]⟩
    exact At.only (hfirst.trans hlastAt) (hedits.trans hlast).untouched

/-! ## The scan handed on (R34) -/

/-- The state in which a bay report is taken: its scan tag kept in the device entry (R34). -/
def tagSeen (b : BayId) (r : BayReport) (s : State) : State :=
  s.setDevice (Role.bay b).entry { s.bayDevice b with lastScanTag := nextScanTag r (s.bayDevice b).lastScanTag }

theorem handToBay_eq (b : BayId) (r : BayReport) (s : State) :
    handToBay b r s = takeBayReport b r (handedScan r (s.bayDevice b).lastScanTag) (tagSeen b r s) :=
  congrArg (takeBayReport b r _) (rfl : _ = tagSeen b r s)

theorem handedScan_new {r : BayReport} {last : Nat} {sc : Scan} (hscan : r.scan = some sc) (htag : r.scanTag ≠ last)
    (hkey : sc.key ≠ 0) : handedScan r last = some sc := by
  simp only [handedScan, hscan, htag, hkey, or_self, if_false]

theorem handedScan_none {r : BayReport} {last : Nat}
    (h : r.scan = none ∨ r.scanTag = last ∨ ∃ sc, r.scan = some sc ∧ sc.key = 0) : handedScan r last = none := by
  unfold handedScan
  cases hscan : r.scan with
  | none => rfl
  | some sc =>
    refine if_pos ?_
    rcases h with h | h | ⟨sc', h, hkey⟩
    · simp [hscan] at h
    · exact .inl h
    · rw [hscan] at h
      cases h
      exact .inr hkey

/-- Settles O41: the end of the exchange, the device entry, the identity, the scan and the ten steps in their order. -/
theorem bayReportsHandedOn : Obligations.BayReportsHandedOn := by
  refine ⟨fun b p d chars r s hawaiting => ?_, fun e s => ?_, fun b r s => ?_, fun b r s => ?_, fun _ _ _ _ => rfl⟩
  · intro ended
    refine ⟨fun hremoved => ?_, fun hkept hentry hjudge => ?_⟩
    · rw [exec_responseReceived, execResponseReceived_awaiting chars hawaiting, concludeExchange_removed chars s hremoved]
      rfl
    · rw [exec_responseReceived, execResponseReceived_awaiting chars hawaiting, concludeExchange_good s hkept hjudge,
        takeReport_bay (roleOf_of_bay hentry)]
      rfl
  · have hgood := goodTaken e s
    refine ⟨hgood.device, hgood.devices, hgood.online, fun hoffline => ?_, hgood.exchange, hgood.sc, hgood.st, hgood.cs, hgood.tc⟩
    obtain ⟨hcounted, hattn, hport, hasked, hbay⟩ := hgood.offline hoffline
    exact ⟨hcounted, hattn, hport, hasked, hgood.results, hbay, hgood.source⟩
  · intro y fits shown known refused t
    refine ⟨fun hstate hidentity => ?_, fun hstate hidentity hfits => ?_, fun hstate hfits => ?_, fun hstate hidentity hfits => ?_,
      fun hstate hfits hnone => ?_, fun k hstate hfits hlive hb => ?_⟩
    · have ht : t = takeBlockedOutput b r s := takeGoodBay_held hstate hidentity
      obtain ⟨hbay, hbays, hst, hcs, hhp, -, hal, hedits⟩ := takeBlockedOutput_taken b r s
      rw [ht]
      exact ⟨hbay, hbays, hst, hcs, hhp, hedits.untouched.flc, hedits.untouched.sc, hedits.untouched.tc, hal⟩
    · refine (takeGoodBay_matched (fun h => hidentity h.2) hfits).trans ?_
      rw [if_pos hstate]
      rfl
    · refine (takeGoodBay_matched (fun h => hstate h.1) hfits).trans ?_
      rw [if_neg hstate]
      rfl
    · have ht : t = takeBlockedOutput b r (mismatchedState b s) :=
        (takeGoodBay_refused (fun h => hidentity h.2) hfits).trans (congrArg _ (takeMismatch_blocked hstate))
      obtain ⟨hbay, hbays, hst, hcs, hhp, -, -, hedits⟩ := takeBlockedOutput_taken b r (mismatchedState b s)
      rw [ht]
      refine ⟨?_, fun c hc => (hbays c hc).trans (bay_setBay_ne _ _ hc), hst, hcs, hhp, hedits.untouched.flc,
        hedits.untouched.sc, hedits.untouched.tc⟩
      rw [hbay, mismatchedState, bay_setBay_same]
      rfl
    · have ht : t = takeBlockedOutput b r (takeMismatch b s) := takeGoodBay_refused (fun h => hstate h.1) hfits
      obtain ⟨hbay, hbays, hst, hcs, hcounted, hattn, hasked, hedits⟩ := takeMismatch_refusedEmpty hstate hnone
      have hshown := takeBlockedOutput_taken b r (takeMismatch b s)
      have hun := (hedits.trans hshown.edits).untouched
      rw [ht]
      refine ⟨?_, fun c hc => (hshown.bays c hc).trans (hbays c hc), hcounted.of_after hshown.hp, hshown.edits.attn_eq hattn,
        hshown.asked hedits hasked, hshown.st.trans hst, hshown.cs.trans hcs, hun.flc, hun.sc, hun.tc⟩
      rw [hshown.bay, hbay]
      rfl
    · have ht : t = takeBlockedOutput b r (takeMismatch b s) := takeGoodBay_refused (fun h => hstate h.1) hfits
      obtain ⟨hsettled, hbay, hcounted, honly⟩ := takeMismatch_refusedSession r hstate hlive hb
      rw [ht]
      exact ⟨hsettled, hbay, hcounted.1, hcounted.2, honly⟩
  · intro last seen
    refine ⟨fun sc hscan htag hkey => ?_, fun h => ?_⟩
    · rw [handToBay_eq, handedScan_new hscan htag hkey]
      rfl
    · rw [handToBay_eq, handedScan_none h]
      rfl

end Sys2Proof.Machine
end

section
/-! # The judgement of a response (R27, R182, R183, Table 11-5) -/

namespace Sys2Proof.Machine

/-! ## The loop check and the parity (R182, R183) -/

theorem crc_append (bytes : List Byte) (b : Byte) : crc (bytes ++ [b]) = crcByte (crc bytes) b := by
  simp only [crc, List.foldl_append, List.foldl_cons, List.foldl_nil]

/-- The check value of the digits 1 to 9 (R183). -/
theorem crc_digits : crc [0x31, 0x32, 0x33, 0x34, 0x35, 0x36, 0x37, 0x38, 0x39] = 0x29B1#16 := by decide +kernel

theorem crcBit_eq (reg : BitVec 16) (b : Bool) :
    crcBit reg b = if reg.msb.xor b then reg <<< 1 ^^^ 0x1021#16 else reg <<< 1 := by
  rw [crcBit, BitVec.msb_eq_getLsbD_last]

/-- The exclusive or of bits is the parity of their number. -/
theorem foldl_xor {α : Type} (f : α → Bool) (l : List α) (p : Bool) :
    l.foldl (fun p i => p.xor (f i)) p = p.xor (decide ((l.filter f).length % 2 = 1)) := by
  induction l generalizing p with
  | nil => simp
  | cons x l ih =>
    rw [List.foldl_cons, ih, List.filter_cons]
    cases hx : f x with
    | false => simp
    | true =>
      have hflip : decide (((l.filter f).length + 1) % 2 = 1) = !decide ((l.filter f).length % 2 = 1) := by
        rw [← decide_not, decide_eq_decide]
        omega
      simp [hflip]

/-! ## The frame received (R23, R24, log 26) -/

theorem framePart_short {chars : List RxChar} (h : chars.length < 3) : framePart chars = chars := by
  match chars with
  | [] | [_] | [_, _] => rfl
  | _ :: _ :: _ :: _ =>
    simp only [List.length_cons] at h
    omega

theorem framePart_long {chars : List RxChar} {c : RxChar} (h : chars[2]? = some c) :
    framePart chars = chars.take (5 + c.data.toNat) := by
  match chars with
  | [] | [_] | [_, _] => simp at h
  | _ :: _ :: l :: _ =>
    simp only [List.getElem?_cons_succ, List.getElem?_cons_zero, Option.some.injEq] at h
    rw [← h]
    rfl

/-- The number of the last two of at least two bytes. -/
theorem beNat_lastTwo {bytes : List Byte} (h : 2 ≤ bytes.length) : beNat (bytes.drop (bytes.length - 2)) =
    (bytes.getD (bytes.length - 2) 0).toNat * 256 + (bytes.getD (bytes.length - 1) 0).toNat := by
  have hone : bytes.length - 2 < bytes.length := by omega
  have htwo : bytes.length - 2 + 1 < bytes.length := by omega
  have hnil : bytes.drop (bytes.length - 2 + 1 + 1) = [] := List.drop_eq_nil_of_le (by omega)
  rw [List.drop_eq_getElem_cons hone, List.drop_eq_getElem_cons htwo, hnil, List.getD_eq_getElem _ _ hone,
    List.getD_eq_getElem _ _ (show bytes.length - 1 < bytes.length by omega)]
  simp only [beNat, List.foldl_cons, List.foldl_nil, Nat.zero_mul, Nat.zero_add]
  congr 3
  omega

/-! ## The five checks in their order (R27) -/

theorem parity_wrong_iff (chars : List RxChar) :
    (chars.any fun c => c.parity != evenParity c.data) = true ↔ ¬∀ c ∈ chars, c.parity = evenParity c.data := by
  rw [List.any_eq_true]
  push Not
  simp only [bne_iff_ne]

theorem stop_wrong_iff (chars : List RxChar) : (chars.any fun c => !c.stop) = true ↔ ¬∀ c ∈ chars, c.stop = true := by
  rw [List.any_eq_true]
  push Not
  simp only [Bool.not_eq_true', ne_eq, Bool.not_eq_true]

theorem frameComplete_iff (bytes : List Byte) :
    frameComplete bytes = true ↔ 5 ≤ bytes.length ∧ bytes.length = 5 + (bytes.getD 2 0).toNat := by
  rw [frameComplete, Bool.and_eq_true, decide_eq_true_eq, beq_iff_eq]

/-- The frame received, as bytes. -/
def receivedBytes (chars : List RxChar) : List Byte := (framePart chars).map (·.data)

/-- The judgement of a payload whose frame has passed the four checks (R27, check 5). -/
def payloadJudged (e : Entry) (bytes : List Byte) : Except MissKind Report :=
  match parseReport (roleOf e) (bytes.getD 1 0).toNat ((bytes.drop 3).take (bytes.length - 5)) with
  | some r => .ok r
  | none => .error .frame

theorem framed {chars : List RxChar} (hstops : ∀ c ∈ framePart chars, c.stop = true)
    (hcomplete : frameComplete (receivedBytes chars) = true) :
    ¬(((framePart chars).any fun c => !c.stop) || !frameComplete (receivedBytes chars)) = true := by
  rw [Bool.or_eq_true, stop_wrong_iff, hcomplete]
  simp only [Bool.not_true, Bool.false_eq_true, or_false, not_not]
  exact hstops

section Checks

variable {e : Entry} {chars : List RxChar}

theorem judge_parity (h : ¬∀ c ∈ framePart chars, c.parity = evenParity c.data) : judge e chars = .error .parity :=
  if_pos ((parity_wrong_iff _).mpr h)

variable (hparity : ∀ c ∈ framePart chars, c.parity = evenParity c.data)
include hparity

theorem judge_frame (h : ¬((∀ c ∈ framePart chars, c.stop = true) ∧ frameComplete (receivedBytes chars) = true)) :
    judge e chars = .error .frame := by
  refine (if_neg fun hw => (parity_wrong_iff _).mp hw hparity).trans (if_pos ?_)
  rw [Bool.or_eq_true, stop_wrong_iff, Bool.not_eq_true']
  by_cases hstop : ∀ c ∈ framePart chars, c.stop = true
  · exact .inr (Bool.eq_false_iff.mpr fun hc => h ⟨hstop, hc⟩)
  · exact .inl hstop

variable (hstops : ∀ c ∈ framePart chars, c.stop = true) (hcomplete : frameComplete (receivedBytes chars) = true)
include hstops hcomplete

theorem judge_check (h : crc ((receivedBytes chars).take ((receivedBytes chars).length - 2)) ≠
    BitVec.ofNat 16 (beNat ((receivedBytes chars).drop ((receivedBytes chars).length - 2)))) : judge e chars = .error .check :=
  (if_neg fun hw => (parity_wrong_iff _).mp hw hparity).trans ((if_neg (framed hstops hcomplete)).trans (if_pos h))

variable (hcheck : crc ((receivedBytes chars).take ((receivedBytes chars).length - 2)) =
    BitVec.ofNat 16 (beNat ((receivedBytes chars).drop ((receivedBytes chars).length - 2))))
include hcheck

theorem judge_address (h : ((receivedBytes chars).getD 0 0).toNat ≠ loopAddress e) : judge e chars = .error .address :=
  (if_neg fun hw => (parity_wrong_iff _).mp hw hparity).trans ((if_neg (framed hstops hcomplete)).trans
    ((if_neg (not_not.mpr hcheck)).trans (if_pos h)))

theorem judge_payload (h : ((receivedBytes chars).getD 0 0).toNat = loopAddress e) :
    judge e chars = payloadJudged e (receivedBytes chars) :=
  (if_neg fun hw => (parity_wrong_iff _).mp hw hparity).trans ((if_neg (framed hstops hcomplete)).trans
    ((if_neg (not_not.mpr hcheck)).trans (if_neg (not_not.mpr h))))

end Checks

/-! ## A frame as its sender builds it (R182, R183) -/

/-- The bytes of a loop frame before its check. -/
def frameBody (address kind : Nat) (payload : List Byte) : List Byte :=
  BitVec.ofNat 8 address :: BitVec.ofNat 8 kind :: BitVec.ofNat 8 payload.length :: payload

theorem loopFrame_eq (address kind : Nat) (payload : List Byte) : loopFrame address kind payload =
    frameBody address kind payload ++ be 2 (crc (frameBody address kind payload)).toNat := rfl

theorem charsOf_data (frame : List Byte) : (charsOf frame).map (·.data) = frame := by
  simp [charsOf, Function.comp_def]

theorem framePart_charsOf {address kind : Nat} {payload : List Byte} (h : payload.length < 256) :
    framePart (charsOf (loopFrame address kind payload)) = charsOf (loopFrame address kind payload) := by
  have hthird : (charsOf (loopFrame address kind payload))[2]? =
      some ⟨BitVec.ofNat 8 payload.length, evenParity (BitVec.ofNat 8 payload.length), true⟩ := rfl
  rw [framePart_long hthird]
  refine List.take_of_length_le ?_
  rw [charsOf, List.length_map, loopFrame_eq, List.length_append, be_length, frameBody]
  simp only [List.length_cons, BitVec.toNat_ofNat]
  omega

theorem evenParity_charsOf (frame : List Byte) : ∀ c ∈ charsOf frame, c.parity = evenParity c.data ∧ c.stop = true := by
  intro c hc
  obtain ⟨d, -, rfl⟩ := List.mem_map.mp hc
  exact ⟨rfl, rfl⟩

theorem frameBody_length (address kind : Nat) (payload : List Byte) : (frameBody address kind payload).length = payload.length + 3 :=
  rfl

theorem loopFrame_length (address kind : Nat) (payload : List Byte) :
    (loopFrame address kind payload).length = payload.length + 5 := by
  rw [loopFrame_eq, List.length_append, be_length, frameBody_length]

theorem loopFrame_check (address kind : Nat) (payload : List Byte) :
    (loopFrame address kind payload).take ((loopFrame address kind payload).length - 2) = frameBody address kind payload
      ∧ (loopFrame address kind payload).drop ((loopFrame address kind payload).length - 2)
        = be 2 (crc (frameBody address kind payload)).toNat := by
  have hlen : (loopFrame address kind payload).length - 2 = (frameBody address kind payload).length := by
    rw [loopFrame_length, frameBody_length]
    rfl
  rw [hlen, loopFrame_eq]
  exact ⟨List.take_left, List.drop_left⟩

theorem beNat_be_two {n : Nat} (h : n < 65536) : beNat (be 2 n) = n := by
  rw [be_two]
  simp only [beNat, List.foldl_cons, List.foldl_nil, BitVec.toNat_ofNat]
  omega

theorem loopAddress_lt (e : Entry) : loopAddress e < 256 := by
  unfold loopAddress
  split
  · omega
  · split <;> decide

/-- A frame as a device sends it is judged by its kind and payload alone. -/
theorem judge_charsOf (e : Entry) {kind : Nat} {payload : List Byte} (hkind : kind < 256) (hpayload : payload.length < 256) :
    judge e (charsOf (loopFrame (loopAddress e) kind payload)) =
      match parseReport (roleOf e) kind payload with
      | some r => .ok r
      | none => .error .frame := by
  have hpart := framePart_charsOf (address := loopAddress e) (kind := kind) hpayload
  have hchars := evenParity_charsOf (loopFrame (loopAddress e) kind payload)
  have hbytes : receivedBytes (charsOf (loopFrame (loopAddress e) kind payload)) = loopFrame (loopAddress e) kind payload := by
    rw [receivedBytes, hpart, charsOf_data]
  have hlength := loopFrame_length (loopAddress e) kind payload
  obtain ⟨htake, hdrop⟩ := loopFrame_check (loopAddress e) kind payload
  have hcomplete : frameComplete (loopFrame (loopAddress e) kind payload) = true := by
    rw [frameComplete_iff, hlength]
    refine ⟨by omega, ?_⟩
    change _ = 5 + (BitVec.ofNat 8 payload.length).toNat
    rw [BitVec.toNat_ofNat]
    omega
  rw [judge_payload (e := e)]
  · have hbody : (loopFrame (loopAddress e) kind payload).drop 3 =
        payload ++ be 2 (crc (frameBody (loopAddress e) kind payload)).toNat := rfl
    have hkindByte : ((loopFrame (loopAddress e) kind payload).getD 1 0).toNat = kind := by
      change (BitVec.ofNat 8 kind).toNat = kind
      rw [BitVec.toNat_ofNat]
      omega
    rw [payloadJudged, hbytes, hkindByte, hbody, hlength, Nat.add_sub_cancel, List.take_left]
  · rw [hpart]
    exact fun c hc => (hchars c hc).1
  · rw [hpart]
    exact fun c hc => (hchars c hc).2
  · rw [hbytes]
    exact hcomplete
  · rw [hbytes, htake, hdrop, beNat_be_two (BitVec.isLt _), BitVec.ofNat_toNat, BitVec.setWidth_eq]
  · rw [hbytes]
    change (BitVec.ofNat 8 (loopAddress e)).toNat = _
    rw [BitVec.toNat_ofNat]
    have := loopAddress_lt e
    omega

/-! ## The payload of a report (Table 11-5) -/

theorem arg_zero_one {p : List Byte} (h : 0 < p.length) : arg p 0 1 = (p.getD 0 0).toNat := by
  obtain ⟨b, rest, rfl⟩ := List.exists_cons_of_length_pos h
  simp [arg, beNat]

theorem idKindOf_eq (n : Nat) : idKindOf n =
    if 1 ≤ n ∧ n ≤ 3 then some (if n = 1 then .ac1 else if n = 2 then .ac3 else .dc) else none := by
  match n with
  | 0 | 1 | 2 | 3 => rfl
  | n + 4 => exact (if_neg (by omega)).symm

theorem scanKindOf_eq (n : Nat) : scanKindOf n =
    if n = 1 ∨ n = 2 then some (if n = 1 then .token else .receipt) else none := by
  match n with
  | 0 | 1 | 2 => rfl
  | n + 3 => exact (if_neg (by omega)).symm

/-- The payload of a BAY_REPORT whose enumerated fields are in their sets (Table 11-5). -/
def bayReportOf (p : List Byte) : BayReport where
  plug := (arg p 0 1).testBit 0
  output := (arg p 0 1).testBit 1
  stopButton := (arg p 0 1).testBit 2
  cardCap := if (arg p 0 1).testBit 3 then some (arg p 10 2) else none
  applied := arg p 1 2
  demand := arg p 3 2
  register := arg p 5 4
  faultCode := arg p 9 1
  scanTag := arg p 12 1
  scan := if arg p 12 1 = 0 then none else some ⟨if arg p 13 1 = 1 then .token else .receipt, arg p 14 4⟩
  idKind := if arg p 18 1 = 1 then .ac1 else if arg p 18 1 = 2 then .ac3 else .dc
  idMax := arg p 19 2

/-- The enumerated fields of a BAY_REPORT are in their sets. -/
def BayReportAllowed (p : List Byte) : Prop :=
  1 ≤ arg p 18 1 ∧ arg p 18 1 ≤ 3 ∧ (arg p 12 1 = 0 ∨ arg p 13 1 = 1 ∨ arg p 13 1 = 2)

theorem parseBayReport_allowed {p : List Byte} (hlen : 0 < p.length) (h : BayReportAllowed p) :
    parseBayReport p = some (bayReportOf p) := by
  obtain ⟨hlow, hhigh, hscan⟩ := h
  have hstatus : ∀ i, (p.getD 0 0).getLsbD i = (arg p 0 1).testBit i := fun i => by
    rw [arg_zero_one hlen, BitVec.testBit_toNat]
  unfold parseBayReport
  rw [idKindOf_eq, if_pos ⟨hlow, hhigh⟩]
  simp only [hstatus, Option.bind_eq_bind, Option.bind_some, Option.pure_def]
  by_cases htag : arg p 12 1 = 0
  · simp only [htag, if_true, bayReportOf]
  · have hkind := hscan.resolve_left htag
    simp only [htag, if_false, scanKindOf_eq, hkind, if_true, Option.map_some, Option.bind_some, bayReportOf]

theorem parseBayReport_refused {p : List Byte} (h : ¬BayReportAllowed p) : parseBayReport p = none := by
  unfold parseBayReport
  by_cases hid : 1 ≤ arg p 18 1 ∧ arg p 18 1 ≤ 3
  · have hscan : ¬(arg p 12 1 = 0 ∨ arg p 13 1 = 1 ∨ arg p 13 1 = 2) := fun hs => h ⟨hid.1, hid.2, hs⟩
    rw [not_or] at hscan
    rw [idKindOf_eq, if_pos hid]
    simp only [Option.bind_eq_bind, Option.bind_some, hscan.1, if_false, scanKindOf_eq, hscan.2, Option.map_none, Option.bind_none]
  · rw [idKindOf_eq, if_neg hid]
    rfl

theorem parseReport_bay_refused {b : BayId} {kind : Nat} {p : List Byte} (h : ¬(kind = 2 ∧ p.length = 21 ∧ BayReportAllowed p)) :
    parseReport (.bay b) kind p = none := by
  by_cases hform : kind = 2 ∧ p.length = 21
  · refine (if_pos hform).trans ?_
    rw [parseBayReport_refused fun ha => h ⟨hform.1, hform.2, ha⟩]
    rfl
  · exact if_neg hform

theorem parseReport_bay_allowed {b : BayId} {kind : Nat} {p : List Byte} (hkind : kind = 2) (hlen : p.length = 21)
    (h : BayReportAllowed p) : parseReport (.bay b) kind p = some (.bay (bayReportOf p)) := by
  refine (if_pos ⟨hkind, hlen⟩).trans ?_
  rw [parseBayReport_allowed (by omega) h]
  rfl

theorem signed16_eq (n : Nat) : signed16 n = if 32768 ≤ n then (n : Int) - 65536 else n := by
  unfold signed16
  by_cases h : n < 32768
  · rw [if_pos h, if_neg (by omega)]
  · rw [if_neg h, if_pos (by omega)]

/-- Settles O39: the loop check, the frame received, the five checks in order and the payloads. -/
theorem responsesJudged : Obligations.ResponsesJudged := by
  refine ⟨⟨crc_digits, rfl, fun bytes b => ?_⟩, fun chars => ⟨framePart_short, fun c => framePart_long⟩, fun e chars => ?_,
    fun e kind payload hkind hpayload => judge_charsOf e hkind hpayload, fun d => ?_, fun b kind p => ?_, fun kind p => ?_⟩
  · rw [crc_append, crcByte]
    simp only [crcBit_eq]
  · intro received bytes n even stops complete checked addressed
    have hcomplete : complete ↔ frameComplete (receivedBytes chars) = true := (frameComplete_iff _).symm
    have hchecked : complete → (checked ↔ crc ((receivedBytes chars).take ((receivedBytes chars).length - 2)) =
        BitVec.ofNat 16 (beNat ((receivedBytes chars).drop ((receivedBytes chars).length - 2)))) := fun hc => by
      have hlen : 5 ≤ (receivedBytes chars).length := hc.1
      rw [beNat_lastTwo (by omega)]
      rfl
    refine ⟨judge_parity, fun heven h => ?_, fun heven hstops hc hno => ?_, fun heven hstops hc hyes hno => ?_,
      fun heven hstops hc hyes ha => ?_⟩
    · rw [hcomplete] at h
      exact judge_frame heven h
    · exact judge_check heven hstops (hcomplete.mp hc) fun h => hno ((hchecked hc).mpr h)
    · exact judge_address heven hstops (hcomplete.mp hc) ((hchecked hc).mp hyes) hno
    · exact judge_payload heven hstops (hcomplete.mp hc) ((hchecked hc).mp hyes) ha
  · rw [evenParity, foldl_xor, Bool.false_xor]
  · intro allowed
    exact ⟨parseReport_bay_refused, fun ⟨hkind, hlen, ha⟩ => parseReport_bay_allowed hkind hlen ha⟩
  · refine ⟨fun k => rfl, rfl, ?_⟩
    rw [← signed16_eq]
    rfl

end Sys2Proof.Machine
end

section
/-! # A plug opens a session (R10, R31, R42, R46, R47, R140) -/

namespace Sys2Proof.Machine

/-! ## The opening (R46, R47) -/

theorem setBay_self (s : State) (b : BayId) : s.setBay b (s.bay b) = s := by
  simp [State.setBay, State.bay]

theorem freeSlot_lowest {s : State} {k : SlotId} (hfree : (s.slot k).state = .free)
    (hlowest : ∀ j, j < k → (s.slot j).state ≠ .free) : s.freeSlot = some k := by
  cases hfound : s.freeSlot with
  | none =>
    have hno := List.find?_eq_none.mp hfound k (List.mem_finRange k)
    simp [hfree] at hno
  | some j =>
    have hj := freeSlot_state hfound
    have hle : j ≤ k := find_least (List.pairwise_lt_finRange 64) hfound k (List.mem_finRange k) (by simp [hfree])
    rcases hle.lt_or_eq with hlt | rfl
    · exact absurd hj (hlowest j hlt)
    · rfl

theorem freeSlot_shortage {s : State} (h : ∀ k, (s.slot k).state ≠ .free) : s.freeSlot = none := by
  rw [State.freeSlot, List.find?_eq_none]
  exact fun k _ => by simpa using h k

theorem attemptOpening_closed {b : BayId} {s : State} (h : s.sc.gate = .closed) : attemptOpening b s = s := if_pos h

theorem attemptOpening_free {b : BayId} {k : SlotId} {s : State} (h : s.sc.gate = .opened) (hfree : s.freeSlot = some k) :
    attemptOpening b s = openedState b k s := by
  simp only [attemptOpening, h, hfree, reduceCtorEq, if_false]
  rfl

/-- A bay that waits for a slot (R47). -/
def waitingState (b : BayId) (s : State) : State := s.setBay b { s.bay b with state := .waitingSlot }

theorem attemptOpening_shortage {b : BayId} {s : State} (h : s.sc.gate = .opened) (hfree : s.freeSlot = none) :
    attemptOpening b s = if (s.bay b).state = .idle then countNotice .slotShortage b.val 0 (waitingState b s)
      else waitingState b s := by
  simp only [attemptOpening, h, hfree, reduceCtorEq, if_false]
  rfl

theorem waitingState_again {b : BayId} {s : State} (h : (s.bay b).state = .waitingSlot) : waitingState b s = s := by
  rw [waitingState, ← h]
  exact setBay_self s b

theorem stepOpening_attempted {b : BayId} {r : BayReport} {s : State} (hplug : r.plug = true)
    (h : (s.bay b).state = .idle ∨ (s.bay b).state = .waitingSlot) : stepOpening b r s = attemptOpening b s := if_pos ⟨hplug, h⟩

/-- What an opening with a slot leaves (R45, R46). -/
structure Opened (b : BayId) (k : SlotId) (s t : State) : Prop where
  slot : t.slot k = s.openedSlot b
  bay : t.bay b = { s.bay b with state := .occupied, session := some k, stopFlag := false }
  slots : ∀ j, j ≠ k → t.slot j = s.slot j
  bays : ∀ c, c ≠ b → t.bay c = s.bay c
  sequence : t.st.sequence = if 65535 ≤ s.st.sequence then 1 else s.st.sequence + 1
  rest : t = { s with st := t.st, bays := t.bays }
  arrival : t.st.arrival = s.st.arrival

theorem openedState_opened (b : BayId) (k : SlotId) (s : State) : Opened b k s (openedState b k s) where
  slot := slot_setSlot_same _ _ _
  bay := bay_modBay_same _ _ _
  slots := fun _ hj => slot_setSlot_ne s _ hj
  bays := fun _ hc => bay_modBay_ne _ _ hc
  sequence := rfl
  rest := rfl
  arrival := rfl

/-! ## The later steps of a report with the plug and no other item -/

/-- A report of a plug with the output off and no other item. -/
structure QuietReport (r : BayReport) : Prop where
  plug : r.plug = true
  output : r.output = false
  faultCode : r.faultCode = 0
  stopButton : r.stopButton = false
  cardCap : r.cardCap = none

/-- An acknowledgement of 0 where 0 was acknowledged ends the ack wait and nothing else (R92, R95). -/
theorem writeGrantAck_zero {b : BayId} {s : State} (h : (s.bay b).grantAck = 0) :
    writeGrantAck b 0 s = s.setBay b { s.bay b with ackWait := none } := by
  have hnew : (s.bay b).withGrants (s.bay b).grantSet 0 = { s.bay b with ackWait := none } := by
    rw [Bay.withGrants, if_pos (Nat.zero_le _), ← h]
  rw [writeGrantAck, writeGrants, hnew]
  have hsame : decide (({ s.bay b with ackWait := none } : Bay).committed < (s.bay b).committed) = false :=
    decide_eq_false (lt_irrefl _)
  rw [hsame, requestPassIf_false]

theorem waitEnded_eq {b : BayId} {s : State} (h : (s.bay b).grantAck = 0) : writeGrantAck b 0 s = waitEnded b s :=
  writeGrantAck_zero h

/-- The steps of a bay report after the opening. -/
def laterSteps (b : BayId) (r : BayReport) (demand : Nat) (s : State) : State :=
  takeDemand b demand (stepButton b r (stepScan b none (stepCard b r
    (stepUnplugged b r (stepFault b r (stepAck b r (stepMeter b r s)))))))

/-- The baseline of a session whose register is read for the first time (R140). -/
def baselined (b : BayId) (k : SlotId) (register : Nat) (s : State) : State :=
  (s.setSlot k { s.slot k with baselineSet := true }).setBay b
    { s.bay b with lastRegister := register, lastReportTime := s.runTimer }

theorem absorb_baseline {b : BayId} {k : SlotId} {s : State} (register : Nat) (h : (s.slot k).baselineSet = false) :
    absorb b k register s = baselined b k register s := if_pos h

theorem compareDemand_opening {k : SlotId} {s : State} (demand : Nat) (h : (s.slot k).state = .opening) :
    compareDemand k demand s = s := by
  have hnot : ((s.slot k).state == .waiting || (s.slot k).state == .charging) = false := by rw [h]; rfl
  unfold compareDemand
  dsimp only
  split
  · rw [hnot, Bool.false_and, Bool.false_and, requestPassIf_false]
  · rfl

section LaterSteps

variable {b : BayId} {r : BayReport} (hr : QuietReport r)
include hr

/-- Steps 5 to 9 find nothing in a quiet report. -/
theorem middleSteps_quiet (s : State) :
    stepButton b r (stepScan b none (stepCard b r (stepUnplugged b r (stepFault b r s)))) = s := by
  rw [stepFault_kept (.inl hr.faultCode), stepUnplugged_plugged s hr.plug]
  have hcard : stepCard b r s = s := stepCard_none (.inl hr.cardCap)
  rw [hcard]
  exact stepButton_kept (.inl hr.stopButton)

theorem laterSteps_empty {demand : Nat} {s : State} (hlive : s.liveSlot b = none) (hack : (s.bay b).grantAck = 0) :
    laterSteps b r demand s = waitEnded b s := by
  have hmeter : stepMeter b r s = s := by simp only [stepMeter, hlive]
  have hstep : stepAck b r s = waitEnded b s := by
    rw [stepAck_kept (.inr fun k h => by rw [hlive] at h; cases h), takeAck_off hr.output, waitEnded_eq hack]
  rw [laterSteps, middleSteps_quiet hr, hmeter, hstep, takeDemand_empty _ ((waitEnded_liveSlot b s).trans hlive)]

theorem laterSteps_opening {k : SlotId} {demand : Nat} {s : State} (hlive : s.liveSlot b = some k)
    (hstate : (s.slot k).state = .opening) (hbase : (s.slot k).baselineSet = false) (hack : (s.bay b).grantAck = 0) :
    laterSteps b r demand s =
      demandKept k demand (waitEnded b (baselined b k (r.register % 2 ^ (s.bay b).meterWidth) s)) := by
  have hmeter : stepMeter b r s = baselined b k (r.register % 2 ^ (s.bay b).meterWidth) s := by
    simp only [stepMeter, hlive]
    exact absorb_baseline _ hbase
  rw [laterSteps, middleSteps_quiet hr, hmeter]
  have hslot : (baselined b k (r.register % 2 ^ (s.bay b).meterWidth) s).slot k = { s.slot k with baselineSet := true } :=
    slot_setSlot_same _ _ _
  have hbay : (baselined b k (r.register % 2 ^ (s.bay b).meterWidth) s).bay b =
      { s.bay b with lastRegister := r.register % 2 ^ (s.bay b).meterWidth, lastReportTime := s.runTimer } :=
    bay_setBay_same _ _ _
  have hlive' : (baselined b k (r.register % 2 ^ (s.bay b).meterWidth) s).liveSlot b = some k := by
    rw [← hlive]
    refine liveSlot_congr (by rw [hbay]) fun j => ?_
    by_cases hj : j = k
    · rw [hj, hslot]
    · exact congrArg Slot.state (slot_setSlot_ne s _ hj)
  generalize baselined b k (r.register % 2 ^ (s.bay b).meterWidth) s = u at *
  have hopening : (u.slot k).state = .opening := by rw [hslot]; exact hstate
  have hnot : ∀ j, u.liveSlot b = some j → (u.slot j).state ≠ .ending := fun j hj => by
    obtain rfl := Option.some.inj (hlive'.symm.trans hj)
    rw [hopening]
    decide
  have hend : (waitEnded b u).slot k = u.slot k := rfl
  rw [stepAck_kept (.inr hnot), takeAck_off hr.output, waitEnded_eq (by rw [hbay]; exact hack),
    takeDemand_session demand ((waitEnded_liveSlot b u).trans hlive'), compareDemand_opening]
  rw [demandKept, slot_setSlot_same, hend]
  exact hopening

end LaterSteps

theorem takeBayReport_eq (b : BayId) (r : BayReport) (s : State) : takeBayReport b r none s =
    laterSteps b r (min r.demand (s.bay b).maxSteps)
      (stepOpening b r (s.setBay b { s.bay b with plug := r.plug, output := r.output })) := rfl

/-! ## A plug reported by an ONLINE bay -/

/-- The bay's record as a quiet report of the bay's own kind shows it, before the opening (R31, R42). -/
def pluggedBay (b : BayId) (r : BayReport) (s : State) : Bay :=
  { s.bay b with plug := true, output := false, identity := .matched, maxSteps := min (s.bayDevice b).declaredMax r.idMax }

/-- The state in which the opening is attempted: but for the loop's records, the bay's record alone is changed. -/
structure Plugged (b : BayId) (r : BayReport) (s u : State) : Prop where
  bay : u.bay b = pluggedBay b r s
  bays : ∀ c, c ≠ b → u.bay c = s.bay c
  st : u.st = s.st
  hp : u.hp = s.hp
  al : u.al = s.al
  cs : u.cs = s.cs
  tc : u.tc = s.tc
  sc : u.sc = s.sc
  runTimer : u.runTimer = s.runTimer

/-- A good report of a quiet plug at an ONLINE bay of its kind reaches its opening. -/
theorem exec_plugged {b : BayId} {p : Poll} {d : Nat} {chars : List RxChar} {r : BayReport} {s : State}
    (hawaiting : s.flc.exchange = .awaiting p d) (hentry : p.entry.val = b.val) (hkept : p.removed = false)
    (honline : (s.bayDevice b).link = .online) (hjudge : judge p.entry chars = .ok (.bay r)) (hr : QuietReport r)
    (hscan : r.scan = none) (hfits : r.idKind = (s.bay b).kind ∧ (s.bay b).kind.minSteps ≤ r.idMax)
    (hstate : (s.bay b).state = .idle ∨ (s.bay b).state = .waitingSlot) :
    ∃ u, Plugged b r s u ∧ exec (.responseReceived chars) s = .next (completed
      (laterSteps b r (min r.demand (min (s.bayDevice b).declaredMax r.idMax)) (stepOpening b r u))) := by
  have he : p.entry = (Role.bay b).entry := Fin.ext hentry
  have hgood := goodTaken p.entry (endExchange s)
  have hlink : ((endExchange s).device p.entry).link = .online := by rw [he]; exact honline
  obtain ⟨hhp, hal, hbays⟩ := hgood.online hlink
  have hexec := exec_reported hawaiting hkept hjudge
  rw [takeReport_bay (roleOf_of_bay hentry)] at hexec
  have hdevice : (takeGood p.entry (endExchange s)).bayDevice b = goodDevice s.runTimer (s.bayDevice b) := by
    have hd := hgood.device
    rw [he] at hd ⊢
    exact hd
  obtain ⟨hst, hcs, htc, hsc, hnow⟩ :
      (takeGood p.entry (endExchange s)).st = s.st ∧ (takeGood p.entry (endExchange s)).cs = s.cs
        ∧ (takeGood p.entry (endExchange s)).tc = s.tc ∧ (takeGood p.entry (endExchange s)).sc = s.sc
        ∧ (takeGood p.entry (endExchange s)).runTimer = s.runTimer :=
    ⟨hgood.st, hgood.cs, hgood.tc, hgood.sc, hgood.runTimer⟩
  generalize takeGood p.entry (endExchange s) = v at *
  have hbay : ∀ c, v.bay c = s.bay c := bay_of_bays hbays
  have hup : (v.bay b).state ≠ .blocked := by
    rw [hbay]
    rcases hstate with h | h <;> rw [h] <;> decide
  rw [takeGoodBay_matched (fun h => hup h.1) (by rw [hbay]; exact hfits), if_neg hup, handToBay_eq,
    handedScan_none (.inl hscan), takeBayReport_eq] at hexec
  have hmatched : (tagSeen b r (v.setBay b (matchedBay b r v))).bay b =
      { s.bay b with identity := .matched, maxSteps := min (s.bayDevice b).declaredMax r.idMax } := by
    rw [tagSeen, setDevice_bay, bay_setBay_same, matchedBay, hbay, hdevice]
    rfl
  rw [hmatched, hr.plug, hr.output] at hexec
  refine ⟨_, ?_, hexec⟩
  exact ⟨bay_setBay_same _ _ _, fun c hc => (bay_setBay_ne _ _ hc).trans ((bay_setBay_ne _ _ hc).trans (hbay c)), hst, hhp, hal,
    hcs, htc, hsc, hnow⟩

/-- A good report is a payload that its device may send. -/
theorem judge_ok {e : Entry} {chars : List RxChar} {r : Report} (h : judge e chars = .ok r) :
    ∃ kind payload, parseReport (roleOf e) kind payload = some r := by
  by_cases hparity : ∀ c ∈ framePart chars, c.parity = evenParity c.data
  · by_cases hframe : (∀ c ∈ framePart chars, c.stop = true) ∧ frameComplete (receivedBytes chars) = true
    · by_cases hcheck : crc ((receivedBytes chars).take ((receivedBytes chars).length - 2)) =
          BitVec.ofNat 16 (beNat ((receivedBytes chars).drop ((receivedBytes chars).length - 2)))
      · by_cases haddress : ((receivedBytes chars).getD 0 0).toNat = loopAddress e
        · rw [judge_payload hparity hframe.1 hframe.2 hcheck haddress, payloadJudged] at h
          split at h
          · next r' hparse =>
            cases h
            exact ⟨_, _, hparse⟩
          · cases h
        · rw [judge_address hparity hframe.1 hframe.2 hcheck haddress] at h
          cases h
      · rw [judge_check hparity hframe.1 hframe.2 hcheck] at h
        cases h
    · rw [judge_frame hparity hframe] at h
      cases h
  · rw [judge_parity hparity] at h
    cases h

/-- A report with tag 0 has no scan (Table 11-5). -/
theorem scan_none_of_tag {e : Entry} {b : BayId} {chars : List RxChar} {r : BayReport} (he : e.val = b.val)
    (h : judge e chars = .ok (.bay r)) (htag : r.scanTag = 0) : r.scan = none := by
  obtain ⟨kind, payload, hparse⟩ := judge_ok h
  rw [roleOf_of_bay he] at hparse
  by_cases hallowed : kind = 2 ∧ payload.length = 21 ∧ BayReportAllowed payload
  · rw [parseReport_bay_allowed hallowed.1 hallowed.2.1 hallowed.2.2] at hparse
    cases hparse
    exact if_pos htag
  · rw [parseReport_bay_refused hallowed] at hparse
    cases hparse

/-- What the steps after the plug of a quiet report leave, whatever the opening gives. -/
structure QuietFrame (b : BayId) (u t : State) : Prop where
  bays : ∀ c, c ≠ b → t.bay c = u.bay c
  sc : t.sc = u.sc
  al : t.al = u.al
  cs : t.cs = u.cs
  tc : t.tc = u.tc
  port : t.hp.port = u.hp.port

theorem QuietFrame.trans {b : BayId} {u v w : State} (h : QuietFrame b u v) (g : QuietFrame b v w) : QuietFrame b u w :=
  ⟨fun c hc => (g.bays c hc).trans (h.bays c hc), g.sc.trans h.sc, g.al.trans h.al, g.cs.trans h.cs, g.tc.trans h.tc,
    g.port.trans h.port⟩

theorem waitEnded_frame (b : BayId) (u : State) : QuietFrame b u (waitEnded b u) :=
  ⟨fun _ hc => bay_setBay_ne _ _ hc, rfl, rfl, rfl, rfl, rfl⟩

theorem openedState_frame (b : BayId) (k : SlotId) (u : State) : QuietFrame b u (openedState b k u) :=
  ⟨fun _ hc => bay_modBay_ne _ _ hc, rfl, rfl, rfl, rfl, rfl⟩

theorem baselined_frame (b : BayId) (k : SlotId) (register : Nat) (u : State) : QuietFrame b u (baselined b k register u) :=
  ⟨fun _ hc => bay_setBay_ne _ _ hc, rfl, rfl, rfl, rfl, rfl⟩

theorem demandKept_frame (b : BayId) (k : SlotId) (demand : Nat) (u : State) : QuietFrame b u (demandKept k demand u) :=
  ⟨fun _ _ => rfl, rfl, rfl, rfl, rfl, rfl⟩

/-- The session of an opening, its baseline and demand taken from the report that opened it (R46, R55, R140). -/
def openedSession (b : BayId) (k : SlotId) (r : BayReport) (demand : Nat) (u : State) : State :=
  demandKept k demand (waitEnded b (baselined b k (r.register % 2 ^ ((openedState b k u).bay b).meterWidth) (openedState b k u)))

section Openings

variable {b : BayId} {k : SlotId} {r : BayReport} {u : State} (hr : QuietReport r) (demand : Nat)

theorem openedSession_slot : (openedSession b k r demand u).slot k =
    { u.openedSlot b with baselineSet := true, demand := demand } := by
  have hopened := (openedState_opened b k u).slot
  rw [openedSession, demandKept, slot_setSlot_same, waitEnded, setBay_slot, baselined, setBay_slot, slot_setSlot_same, hopened]

theorem openedSession_bay : (openedSession b k r demand u).bay b = { u.bay b with
    state := .occupied, session := some k, stopFlag := false, ackWait := none
    lastRegister := r.register % 2 ^ (u.bay b).meterWidth, lastReportTime := u.runTimer } := by
  have hopened := (openedState_opened b k u).bay
  have hnow : (openedState b k u).runTimer = u.runTimer := rfl
  rw [openedSession, demandKept, setSlot_bay, waitEnded, bay_setBay_same, baselined, bay_setBay_same, hopened, hnow]

theorem openedSession_slot_ne {j : SlotId} (hj : j ≠ k) : (openedSession b k r demand u).slot j = u.slot j :=
  (slot_setSlot_ne _ _ hj).trans ((slot_setSlot_ne _ _ hj).trans ((openedState_opened b k u).slots j hj))

theorem openedSession_frame : QuietFrame b u (openedSession b k r demand u) :=
  (((openedState_frame b k u).trans (baselined_frame b k _ _)).trans (waitEnded_frame b _)).trans (demandKept_frame b k demand _)

include hr

theorem laterSteps_opened (hack : (u.bay b).grantAck = 0) :
    laterSteps b r demand (openedState b k u) = openedSession b k r demand u := by
  have hopened := openedState_opened b k u
  have hlive : (openedState b k u).liveSlot b = some k := by
    unfold State.liveSlot
    rw [hopened.bay]
    dsimp only
    rw [hopened.slot]
    rfl
  exact laterSteps_opening hr hlive (by rw [hopened.slot]; rfl) (by rw [hopened.slot]; rfl) (by rw [hopened.bay]; exact hack)

end Openings

/-- The state in which a bay waits for a slot, SLOT_SHORTAGE counted if it was IDLE (R47). -/
def shortState (b : BayId) (u : State) : State :=
  if (u.bay b).state = .idle then countNotice .slotShortage b.val 0 (waitingState b u) else waitingState b u

theorem shortState_bay (b : BayId) (u : State) : (shortState b u).bay b = { u.bay b with state := .waitingSlot } := by
  unfold shortState
  split <;> exact bay_setBay_same _ _ _

theorem waitingState_frame (b : BayId) (u : State) : QuietFrame b u (waitingState b u) :=
  ⟨fun _ hc => bay_setBay_ne _ _ hc, rfl, rfl, rfl, rfl, rfl⟩

theorem countNotice_frame (b : BayId) (n : NoticeKind) (a key : Nat) (u : State) : QuietFrame b u (countNotice n a key u) :=
  have hun := (countNotice_edits n a key u).untouched
  ⟨fun _ _ => rfl, hun.sc, rfl, rfl, hun.tc, hun.port⟩

theorem shortState_frame (b : BayId) (u : State) : QuietFrame b u (shortState b u) := by
  unfold shortState
  split
  · exact (waitingState_frame b u).trans (countNotice_frame b _ _ _ _)
  · exact waitingState_frame b u

theorem shortState_st (b : BayId) (u : State) : (shortState b u).st = u.st := by
  unfold shortState
  split
  · rw [countNotice_st]
    rfl
  · rfl

theorem shortState_idle {b : BayId} {u : State} (h : (u.bay b).state = .idle) :
    Counted .slotShortage b.val 0 u (shortState b u) ∧ (shortState b u).hp.attn = (shortState b u).attnDue := by
  rw [shortState, if_pos h]
  exact ⟨(counted_countNotice .slotShortage b.val 0 (waitingState b u)).of_hp rfl, countNotice_attn _ _ _ _⟩

theorem shortState_waiting {b : BayId} {u : State} (h : (u.bay b).state = .waitingSlot) : (shortState b u).hp = u.hp := by
  rw [shortState, if_neg (by rw [h]; decide)]
  rfl

/-- Settles O40: the opening of step 2, and the whole of a plug reported by an ONLINE bay. -/
theorem plugInOpensSession : Obligations.PlugInOpensSession := by
  refine ⟨fun b r s => ?_, fun b p d chars r s hp hawaiting hentry hkept honline hjudge hplug houtput hfault hbutton hcard htag
    hkind hmin hstate hsession hack => ?_⟩
  · intro y attempted t
    have hstep : attempted → t = attemptOpening b s := fun h => stepOpening_attempted h.1 h.2
    refine ⟨fun h => if_neg h, fun h hgate => (hstep h).trans (attemptOpening_closed hgate), fun k h hgate hfree hlowest => ?_,
      fun h hgate hshort => ?_⟩
    · obtain ⟨hslot, hbay, hslots, hbays, hsequence, hrest, harrival⟩ := openedState_opened b k s
      rw [(hstep h).trans (attemptOpening_free hgate (freeSlot_lowest hfree hlowest))]
      exact ⟨hslot, hbay, hslots, hbays, hsequence, hrest, harrival⟩
    · have hattempt := (hstep h).trans (attemptOpening_shortage hgate (freeSlot_shortage hshort))
      refine ⟨fun hwaiting => ?_, fun hidle => ?_⟩
      · rw [hattempt, if_neg (by rw [hwaiting]; decide), waitingState_again hwaiting]
      · rw [hattempt, if_pos hidle]
        exact ⟨rfl, counted_countNotice .slotShortage b.val 0 (waitingState b s), countNotice_attn _ _ _ _, rfl, rfl⟩
  · intro y seen
    have hr : QuietReport r := ⟨hplug, houtput, hfault, hbutton, hcard⟩
    obtain ⟨u, hu, hexec⟩ := exec_plugged hawaiting hentry hkept honline hjudge hr (scan_none_of_tag hentry hjudge htag)
      ⟨hkind, hmin⟩ hstate
    have hubay : u.bay b = pluggedBay b r s := hu.bay
    have hustate : (u.bay b).state = .idle ∨ (u.bay b).state = .waitingSlot := by rw [hubay]; exact hstate
    have hulive : u.liveSlot b = none := by
      have hnone : (u.bay b).session = none := by rw [hubay]; exact hsession
      simp only [State.liveSlot, hnone]
    have huack : (u.bay b).grantAck = 0 := by rw [hubay]; exact hack
    rw [stepOpening_attempted hplug hustate] at hexec
    have hsame : ∀ {t}, QuietFrame b u t → (completed t).al = s.al := fun {t} ht => by
      have hal : t.al = s.al := ht.al.trans hu.al
      rw [completed_al (hp.frame ⟨by rw [hal], by rw [hal]⟩), hal]
    have hframes : ∀ {t}, QuietFrame b u t → (∀ c, c ≠ b → (completed t).bay c = s.bay c) ∧ (completed t).sc = s.sc
        ∧ (completed t).al.queue = s.al.queue ∧ (completed t).cs = s.cs ∧ (completed t).tc = s.tc
        ∧ (completed t).hp.port = s.hp.port := fun {t} ht => by
      refine ⟨fun c hc => ?_, ?_, by rw [hsame ht], ?_, ?_, ?_⟩
      · rw [completed_bay, ht.bays c hc, hu.bays c hc]
      · rw [completed_sc, ht.sc, hu.sc]
      · rw [completed_cs, ht.cs, hu.cs]
      · rw [completed_tc, ht.tc, hu.tc]
      · rw [completed_hp, ht.port, hu.hp]
    have hslots : ∀ k, u.slot k = s.slot k := slot_of_st hu.st
    cases hgate : s.sc.gate with
    | closed =>
      rw [attemptOpening_closed (by rw [hu.sc]; exact hgate), laterSteps_empty hr hulive huack] at hexec
      refine ⟨_, hexec, fun _ => ⟨?_, ?_, ?_⟩, fun k h => (by cases h), fun h => (by cases h), hframes (waitEnded_frame b u)⟩
      · rw [completed_bay, waitEnded, bay_setBay_same, hubay]
        rfl
      · rw [completed_st]
        exact hu.st
      · rw [completed_hp]
        exact hu.hp
    | opened =>
      have hugate : u.sc.gate = .opened := by rw [hu.sc]; exact hgate
      cases hfound : u.freeSlot with
      | some j =>
        rw [attemptOpening_free hugate hfound, laterSteps_opened hr _ huack] at hexec
        have hj : (s.slot j).state = .free := by
          rw [← hslots]
          exact freeSlot_state hfound
        refine ⟨_, hexec, fun h => (by cases h), fun k _ hfree hlowest => ?_, fun _ hshort => absurd hj (hshort j),
          hframes (openedSession_frame _)⟩
        have hk : u.freeSlot = some k := freeSlot_lowest (by rw [hslots]; exact hfree) fun i hi => by
          rw [hslots]
          exact hlowest i hi
        obtain rfl := Option.some.inj (hfound.symm.trans hk)
        refine ⟨?_, ?_, fun i hi => ?_, ?_, ?_⟩
        · rw [completed_slot, openedSession_slot, State.openedSlot, hubay, State.stamp, hu.st, hu.tc, hu.sc, hu.runTimer]
          rfl
        · rw [completed_bay, openedSession_bay, hubay, hu.runTimer]
          rfl
        · rw [completed_slot, openedSession_slot_ne _ hi, hslots]
        · rw [completed_st, ← hu.st]
          exact (openedState_opened b j u).sequence
        · rw [completed_hp]
          exact hu.hp
      | none =>
        rw [attemptOpening_shortage hugate hfound] at hexec
        change exec (.responseReceived chars) s = .next (completed (laterSteps b r _ (shortState b u))) at hexec
        have hbay := shortState_bay b u
        have hlive : (shortState b u).liveSlot b = none := by
          rw [← hulive]
          exact liveSlot_congr (by rw [hbay]) fun k => by rw [slot_of_st (shortState_st b u)]
        rw [laterSteps_empty hr hlive (by rw [hbay]; exact huack)] at hexec
        refine ⟨_, hexec, fun h => (by cases h), fun k _ hfree hlowest => ?_, fun _ hshort => ⟨?_, ?_, fun hidle => ?_, fun hwaiting => ?_⟩,
          hframes ((shortState_frame b u).trans (waitEnded_frame b _))⟩
        · have hno := List.find?_eq_none.mp hfound k (List.mem_finRange k)
          simp [hslots, hfree] at hno
        · rw [completed_bay, waitEnded, bay_setBay_same, hbay, hubay]
          rfl
        · rw [completed_st]
          exact (shortState_st b u).trans hu.st
        · obtain ⟨hcounted, hattn⟩ := shortState_idle (b := b) (u := u) (by rw [hubay]; exact hidle)
          refine ⟨Counted.completed ?_, ?_⟩
          · exact hcounted.of_hp hu.hp
          · rw [completed_hp, completed_attnDue]
            exact hattn
        · rw [completed_hp]
          exact (shortState_waiting (by rw [hubay]; exact hwaiting)).trans hu.hp

end Sys2Proof.Machine
end

section
/-! # The absorption of a meter register (R33, R139 to R148) -/

namespace Sys2Proof.Machine

/-! ## Drawing while a part is covered (R133, R135, R146) -/

/-- A session without a source, or with a whole Wh or more in its open block. -/
def Stocked (k : SlotId) (s : State) : Prop := (s.slot k).source = none ∨ 1000 ≤ (s.slot k).blockLeft

/-- The end of a source leaves the session without one. -/
theorem exhaust_source {k : SlotId} {src : Source} {s : State} (h : (s.slot k).source = some src) :
    ((exhaust k src s).slot k).source = none := by
  obtain ⟨hold, hslot⟩ := releaseSource_slot h
  have hnone : ((countExhausted (releaseSource k s) src).slot k).source = none := by
    rw [countExhausted_slot, hslot]
    rfl
  rw [exhaust_eq]
  generalize countExhausted (releaseSource k s) src = u at *
  split
  · next hends =>
    cases honline : u.bayOnline (u.slot k).bay with
    | true =>
      rw [(enterEnding_entered k .creditExhausted u honline).slot]
      exact hnone
    | false => exact (enterEnding_lost k .creditExhausted u hends.2 honline).settled.source
  · exact hnone

/-- A draw opens a block of at least one Wh, or leaves no source (R133, R135). -/
theorem draw_stocked {k : SlotId} {s : State} (hsize : 0 < s.cs.blockSize) (hsource : (s.slot k).source ≠ none) :
    Stocked k (draw k s) := by
  obtain ⟨src, hsrc⟩ := Option.ne_none_iff_exists'.mp hsource
  by_cases havail : 0 < s.available src
  · have hdraw : draw k s = (takeFrom (min s.cs.blockSize (s.available src)) s src).modSlot k
        (drawnSlot (min s.cs.blockSize (s.available src)) (s.available src == min s.cs.blockSize (s.available src))) := by
      simp only [draw, hsrc, if_pos havail]
      rfl
    refine .inr ?_
    rw [hdraw, slot_modSlot_same]
    change 1000 ≤ min s.cs.blockSize (s.available src) * 1000
    omega
  · rw [draw_exhausted hsrc havail]
    exact .inl (exhaust_source hsrc)

/-- The state in which a part of the energy has been taken from the open block (R146). -/
def blockUsed (k : SlotId) (part : Nat) (s : State) : State :=
  s.setSlot k { s.slot k with
    covered := (s.slot k).covered + min part (s.slot k).blockLeft
    blockLeft := (s.slot k).blockLeft - min part (s.slot k).blockLeft }

theorem coverPart_done {k : SlotId} {part : Nat} {s : State} (fuel : Nat) (h : part = 0 ∨ (s.slot k).source = none) :
    coverPart k fuel part s = (part, s) := by
  cases fuel with
  | zero => rfl
  | succ fuel => exact if_pos h

theorem coverPart_within {k : SlotId} {part : Nat} {s : State} (fuel : Nat) (hpart : 0 < part)
    (hsource : (s.slot k).source ≠ none) (h : part < (s.slot k).blockLeft) :
    coverPart k (fuel + 1) part s = (0, blockUsed k part s) := by
  have hmin : min part (s.slot k).blockLeft = part := min_eq_left h.le
  refine (if_neg (not_or.mpr ⟨hpart.ne', hsource⟩)).trans ?_
  dsimp only
  rw [if_neg (by rw [hmin]; omega), hmin, Nat.sub_self, coverPart_done fuel (.inl rfl), blockUsed, hmin]
  rfl

theorem coverPart_beyond {k : SlotId} {part : Nat} {s : State} (fuel : Nat) (hpart : 0 < part)
    (hsource : (s.slot k).source ≠ none) (h : (s.slot k).blockLeft ≤ part) :
    coverPart k (fuel + 1) part s = coverPart k fuel (part - (s.slot k).blockLeft) (draw k (blockUsed k part s)) := by
  have hmin : min part (s.slot k).blockLeft = (s.slot k).blockLeft := min_eq_right h
  refine (if_neg (not_or.mpr ⟨hpart.ne', hsource⟩)).trans ?_
  dsimp only
  rw [if_pos (by rw [hmin, Nat.sub_self]), hmin, blockUsed, hmin]
  rfl

theorem blockUsed_slot (k : SlotId) (part : Nat) (s : State) : (blockUsed k part s).slot k = { s.slot k with
    covered := (s.slot k).covered + min part (s.slot k).blockLeft
    blockLeft := (s.slot k).blockLeft - min part (s.slot k).blockLeft } := slot_setSlot_same _ _ _

/-- More rounds than the Wh of the part change nothing, where every block holds at least one Wh. -/
theorem coverPart_fuel {k : SlotId} (part : Nat) : ∀ (fuel more : Nat) (s : State), 0 < s.cs.blockSize → Stocked k s →
    part / 1000 + 1 ≤ fuel → part / 1000 + 1 ≤ more → coverPart k fuel part s = coverPart k more part s := by
  induction part using Nat.strong_induction_on with
  | _ part ih =>
    intro fuel more s hsize hstocked hfuel hmore
    obtain ⟨f, rfl⟩ := Nat.exists_eq_add_of_le' (show 1 ≤ fuel by omega)
    obtain ⟨m, rfl⟩ := Nat.exists_eq_add_of_le' (show 1 ≤ more by omega)
    by_cases hdone : part = 0 ∨ (s.slot k).source = none
    · rw [coverPart_done _ hdone, coverPart_done _ hdone]
    · obtain ⟨hpart, hsource⟩ := not_or.mp hdone
      by_cases hless : part < (s.slot k).blockLeft
      · rw [coverPart_within f (by omega) hsource hless, coverPart_within m (by omega) hsource hless]
      · have hblock : 1000 ≤ (s.slot k).blockLeft := hstocked.resolve_left hsource
        rw [coverPart_beyond f (by omega) hsource (by omega), coverPart_beyond m (by omega) hsource (by omega)]
        have hsize' : 0 < (draw k (blockUsed k part s)).cs.blockSize := by
          rw [(draw_edits k (blockUsed k part s)).untouched.blockSize]
          exact hsize
        refine ih _ (by omega) f m _ hsize' (draw_stocked hsize ?_) (by omega) (by omega)
        rw [blockUsed_slot]
        exact hsource

/-- The next round of a cover is a cover of what is left of the part (R146). -/
theorem cover_beyond {k : SlotId} {part : Nat} {s : State} (hpart : 0 < part) (hsource : (s.slot k).source ≠ none)
    (h : (s.slot k).blockLeft ≤ part) (hsize : 0 < s.cs.blockSize) :
    cover k part s = cover k (part - (s.slot k).blockLeft) (draw k (blockUsed k part s)) := by
  refine (coverPart_beyond (part / 1000 + 1) hpart hsource h).trans ?_
  refine coverPart_fuel _ _ _ _ ?_ (draw_stocked hsize ?_) (by omega) (by omega)
  · rw [(draw_edits k (blockUsed k part s)).untouched.blockSize]
    exact hsize
  · rw [blockUsed_slot]
    exact hsource

theorem coverAll_none {k : SlotId} {s : State} (solar battery grid : Nat) (h : (s.slot k).source = none) :
    coverAll k solar battery grid s = ⟨solar, battery, grid, s⟩ := by
  simp only [coverAll, h]

theorem coverAll_solarOnly {k : SlotId} {src : Source} {s : State} (solar battery grid : Nat)
    (h : (s.slot k).source = some src) (hsolar : s.sourceSolarOnly src = true) :
    coverAll k solar battery grid s = ⟨(cover k solar s).1, battery, grid, (cover k solar s).2⟩ := by
  simp only [coverAll, h, hsolar, if_true]

theorem coverAll_all {k : SlotId} {src : Source} {s : State} (solar battery grid : Nat)
    (h : (s.slot k).source = some src) (hsolar : s.sourceSolarOnly src = false) :
    coverAll k solar battery grid s = ⟨(cover k solar s).1, (cover k battery (cover k solar s).2).1,
      (cover k grid (cover k battery (cover k solar s).2).2).1, (cover k grid (cover k battery (cover k solar s).2).2).2⟩ := by
  simp only [coverAll, h, hsolar, Bool.false_eq_true, if_false]

/-! ## The cases of an absorption (R140 to R143) -/

theorem plausible_iff (y : Bay) (x : Slot) (now delta : Nat) : plausible y x now delta = true ↔
    delta ≤ (y.maxSteps * max 1 ((now - y.lastReportTime) / 1000) + 35) / 36 + 50 ∧ x.energyWh + delta ≤ 4294967295 := by
  rw [plausible, Bool.and_eq_true, decide_eq_true_eq, decide_eq_true_eq]
  exact Iff.rfl

section Absorption

variable {b : BayId} {k : SlotId} {register : Nat} {s : State} (hbase : (s.slot k).baselineSet = true)
include hbase

theorem absorb_same (hdelta : meterDelta (s.bay b).meterWidth register (s.bay b).lastRegister = 0) :
    absorb b k register s = rebase b register s := by
  refine (if_neg (by rw [hbase]; decide)).trans ?_
  rw [hdelta, if_pos rfl]

theorem absorb_jump (hdelta : meterDelta (s.bay b).meterWidth register (s.bay b).lastRegister ≠ 0)
    (hjump : ¬plausible (s.bay b) (s.slot k) s.runTimer (meterDelta (s.bay b).meterWidth register (s.bay b).lastRegister) = true) :
    absorb b k register s = rebase b register (meterJump k b s) := by
  refine (if_neg (by rw [hbase]; decide)).trans ?_
  rw [if_neg hdelta, if_neg hjump]

theorem absorb_accrued (hdelta : meterDelta (s.bay b).meterWidth register (s.bay b).lastRegister ≠ 0)
    (hgood : plausible (s.bay b) (s.slot k) s.runTimer (meterDelta (s.bay b).meterWidth register (s.bay b).lastRegister) = true) :
    absorb b k register s =
      rebase b register (accrue k (meterDelta (s.bay b).meterWidth register (s.bay b).lastRegister) s) := by
  refine (if_neg (by rw [hbase]; decide)).trans ?_
  rw [if_neg hdelta, if_pos hgood]

end Absorption

/-- A slot whose meter has jumped (R143). -/
def jumpedState (k : SlotId) (s : State) : State :=
  s.setSlot k { s.slot k with flags := { (s.slot k).flags with meterDiscontinuity := true } }

theorem meterJump_eq (k : SlotId) (b : BayId) (s : State) :
    meterJump k b s = countNotice .meterJump b.val 0 (jumpedState k s) := rfl

/-- A slot with a difference of its meter added, by the shares (R145). -/
def accruedSlot (delta : Nat) (share : ShareRecord) (x : Slot) : Slot :=
  { x with
    energyWh := x.energyWh + delta
    solar := x.solar + delta * share.solar
    battery := x.battery + delta * share.battery
    grid := x.grid + delta * share.grid }

/-- What a session without a source and without a cap leaves of a difference: it is priced, and covers and ends nothing. -/
theorem accrue_plain {k : SlotId} {s : State} (delta : Nat) (hsource : (s.slot k).source = none)
    (hcap : (s.slot k).spendCap = none) : accrue k delta s = s.setSlot k { accruedSlot delta s.al.share (s.slot k) with
      cost := (s.slot k).cost + (delta * s.al.share.solar * s.tc.canopyPrice
        + (delta * s.al.share.battery + delta * s.al.share.grid) * s.tc.bandPrice) } := by
  have hslot : (s.modSlot k fun x => accruedSlot delta s.al.share x).slot k = accruedSlot delta s.al.share (s.slot k) :=
    slot_modSlot_same _ _ _
  have hcover := coverAll_none (k := k) (s := s.modSlot k fun x => accruedSlot delta s.al.share x) (delta * s.al.share.solar)
    (delta * s.al.share.battery) (delta * s.al.share.grid) (by rw [hslot]; exact hsource)
  have hstep : accrue k delta s = testSpendCap k ((s.modSlot k fun x => accruedSlot delta s.al.share x).modSlot k fun x =>
      { x with cost := x.cost + (delta * s.al.share.solar * s.tc.canopyPrice
        + (delta * s.al.share.battery + delta * s.al.share.grid) * s.tc.bandPrice) }) := by
    unfold accruedSlot at hcover
    unfold accrue
    dsimp only
    rw [hcover]
    rfl
  rw [hstep, testSpendCap_kept]
  · simp only [State.modSlot, slot_setSlot_same, setSlot_setSlot]
    rfl
  · rintro ⟨-, -, cap, h, -⟩
    rw [slot_modSlot_same, hslot] at h
    exact absurd (h.symm.trans hcap) (by simp)

theorem rebase_eq {b : BayId} {register : Nat} {s u : State} (he : Edits s u) : rebase b register u =
    u.setBay b { u.bay b with lastRegister := register, lastReportTime := s.runTimer } := by
  rw [rebase, he.untouched.runTimer]
  rfl

/-- A register absorbed without an end of the session leaves the bay's other fields, the other records and the queue. -/
structure AbsorbedAlone (b : BayId) (k : SlotId) (register : Nat) (s t : State) : Prop where
  bay : t.bay b = { s.bay b with lastRegister := register, lastReportTime := s.runTimer }
  slots : ∀ j, j ≠ k → t.slot j = s.slot j
  bays : ∀ c, c ≠ b → t.bay c = s.bay c
  cs : t.cs = s.cs
  al : t.al = s.al

theorem rebase_alone {b : BayId} {k : SlotId} {register : Nat} {s u : State} (he : Edits s u) (hbays : u.bays = s.bays)
    (hslots : ∀ j, j ≠ k → u.slot j = s.slot j) (hcs : u.cs = s.cs) (hal : u.al = s.al) :
    AbsorbedAlone b k register s (rebase b register u) := by
  have hbay := bay_of_bays hbays
  rw [rebase_eq he]
  exact ⟨(bay_setBay_same _ _ _).trans (by rw [hbay]), hslots, fun c hc => (bay_setBay_ne _ _ hc).trans (hbay c), hcs, hal⟩

/-- Settles O52: the register handed on, its absorption, and the coverage of the parts. -/
theorem registerAbsorbed : Obligations.RegisterAbsorbed := by
  refine ⟨fun b r s => ⟨fun k hlive => ?_, fun hnone => ?_⟩, fun b k register s => ?_, fun k solar battery grid s => ?_,
    fun s i => rfl, fun s hinv c hc => ?_, fun k part s => ?_⟩
  · simp only [stepMeter, hlive]
  · simp only [stepMeter, hnone]
  · intro x y delta bound t
    have hun := (absorb_edits b k register s).untouched
    have hplausible : plausible y x s.runTimer delta = true ↔ delta ≤ bound ∧ x.energyWh + delta ≤ 4294967295 :=
      plausible_iff y x s.runTimer delta
    have hkept : x.baselineSet = true → delta = 0 → t = rebase b register s := fun hbase hdelta => absorb_same hbase hdelta
    have hfirst : x.baselineSet = false → t = rebase b register (s.setSlot k { x with baselineSet := true }) := fun hbase =>
      if_pos hbase
    have hjump : x.baselineSet = true → 0 < delta → bound < delta ∨ 4294967295 < x.energyWh + delta →
        t = rebase b register (countNotice .meterJump b.val 0 (jumpedState k s)) := fun hbase hdelta hno =>
      absorb_jump hbase (Nat.pos_iff_ne_zero.mp hdelta) fun h => by
        obtain ⟨hbound, henergy⟩ := hplausible.mp h
        omega
    have hgood : x.baselineSet = true → 0 < delta → delta ≤ bound → x.energyWh + delta ≤ 4294967295 →
        t = rebase b register (accrue k delta s) := fun hbase hdelta hbound henergy =>
      absorb_accrued hbase (Nat.pos_iff_ne_zero.mp hdelta) (hplausible.mpr ⟨hbound, henergy⟩)
    have hjumped : Edits s (countNotice .meterJump b.val 0 (jumpedState k s)) :=
      (setSlot_edits s k _).trans (countNotice_edits _ _ _ _)
    have hcases : ∃ u, Edits s u ∧ t = rebase b register u := by
      cases hbase : x.baselineSet with
      | false => exact ⟨_, setSlot_edits s k _, hfirst hbase⟩
      | true =>
        rcases Nat.eq_zero_or_pos delta with hdelta | hdelta
        · exact ⟨s, .refl s, hkept hbase hdelta⟩
        · by_cases hno : bound < delta ∨ 4294967295 < x.energyWh + delta
          · exact ⟨_, hjumped, hjump hbase hdelta hno⟩
          · exact ⟨_, accrue_edits k delta s, hgood hbase hdelta (by omega) (by omega)⟩
    have halone : x.baselineSet = false ∨ delta = 0 ∨ bound < delta ∨ 4294967295 < x.energyWh + delta
        ∨ (x.source = none ∧ x.spendCap = none) → AbsorbedAlone b k register s t := fun h => by
      have hothers : ∀ (z : Slot) j, j ≠ k → (s.setSlot k z).slot j = s.slot j := fun z j hj => slot_setSlot_ne s z hj
      cases hbase : x.baselineSet with
      | false =>
        rw [hfirst hbase]
        exact rebase_alone (setSlot_edits s k _) rfl (hothers _) rfl rfl
      | true =>
        rcases Nat.eq_zero_or_pos delta with hdelta | hdelta
        · rw [hkept hbase hdelta]
          exact rebase_alone (.refl s) rfl (fun _ _ => rfl) rfl rfl
        · by_cases hno : bound < delta ∨ 4294967295 < x.energyWh + delta
          · rw [hjump hbase hdelta hno]
            exact rebase_alone hjumped rfl (hothers _) rfl rfl
          · obtain ⟨hsource, hcap⟩ : x.source = none ∧ x.spendCap = none := by
              rcases h with h | h | h | h | h
              · rw [hbase] at h
                cases h
              · omega
              · exact absurd (.inl h) hno
              · exact absurd (.inr h) hno
              · exact h
            rw [hgood hbase hdelta (by omega) (by omega), accrue_plain delta hsource hcap]
            exact rebase_alone (setSlot_edits s k _) rfl (hothers _) rfl rfl
    refine ⟨?_, ?_, fun hbase => ?_, fun hbase hdelta => ?_, fun hbase hdelta hno => ?_, fun h => ?_,
      fun hbase hdelta hbound henergy => ?_, hun.sc, hun.flc, hun.tc⟩
    · obtain ⟨u, he, ht⟩ := hcases
      rw [ht, rebase_eq he, bay_setBay_same]
    · obtain ⟨u, he, ht⟩ := hcases
      rw [ht, rebase_eq he, bay_setBay_same]
    · rw [hfirst hbase]
      exact ⟨slot_setSlot_same _ _ _, rfl⟩
    · rw [hkept hbase hdelta]
      exact ⟨rfl, rfl⟩
    · rw [hjump hbase hdelta hno]
      exact ⟨slot_setSlot_same _ _ _, counted_countNotice .meterJump b.val 0 (jumpedState k s)⟩
    · obtain ⟨hbay, hslots, hbays, hcs, hal⟩ := halone h
      exact ⟨hbay, hslots, hbays, hcs, hal⟩
    · intro solar battery grid accrued u z price priced
      have ht := hgood hbase hdelta hbound henergy
      refine ⟨?_, fun hsource hcap => ?_⟩
      · rw [ht, rebase_eq (accrue_edits k delta s)]
        rfl
      · rw [ht, accrue_plain delta hsource hcap]
        exact ⟨rfl, slot_setSlot_same _ _ _⟩
  · intro u c1 c2 c3
    exact ⟨coverAll_none solar battery grid, fun src hsource =>
      ⟨coverAll_solarOnly solar battery grid hsource, coverAll_all solar battery grid hsource⟩⟩
  · simp only [State.sourceSolarOnly, hinv.find hc]
  · intro x take taken
    obtain ⟨n, hn, hcovers⟩ := coverPart_covers k (part / 1000 + 2) part s
    refine ⟨fun h => coverPart_done _ h, fun hsource hpart h => ?_, fun hsource hpart h hsize => ?_, ?_, ?_⟩
    · exact coverPart_within (part / 1000 + 1) hpart hsource h
    · have hmin : take = x.blockLeft := min_eq_right h
      rw [cover_beyond hpart hsource h hsize, ← hmin]
      rfl
    · exact (Nat.le_add_left _ n).trans_eq hn
    · have hpart : n = part - (cover k part s).1 := Nat.eq_sub_of_add_eq hn
      rw [← hpart]
      exact hcovers.covered

end Sys2Proof.Machine
end

section
/-! # Admission and sharing (R81, R82) -/

namespace Sys2Proof.Machine

/-! ## Claims that differ in their grants alone -/

/-- The same claim with another grant. -/
def SameClaim (x y : Claim) : Prop := y = { x with g := y.g }

theorem SameClaim.refl (x : Claim) : SameClaim x x := rfl

theorem SameClaim.granted (x : Claim) (g : Nat) : SameClaim x { x with g := g } := rfl

theorem SameClaim.trans {x y z : Claim} (h : SameClaim x y) (h' : SameClaim y z) : SameClaim x z := by
  unfold SameClaim at *
  rw [h', h]

theorem SameClaim.feeder {x y : Claim} (h : SameClaim x y) : y.feeder = x.feeder := by
  unfold SameClaim at h
  rw [h]

theorem SameClaim.min {x y : Claim} (h : SameClaim x y) : y.min = x.min := by
  unfold SameClaim at h
  rw [h]

theorem SameClaim.h {x y : Claim} (same : SameClaim x y) : y.h = x.h := by
  unfold SameClaim at same
  rw [same]

theorem SameClaim.bay {x y : Claim} (h : SameClaim x y) : y.bay = x.bay := by
  unfold SameClaim at h
  rw [h]

theorem SameClaim.cap {x y : Claim} (h : SameClaim x y) : y.cap = x.cap := by
  unfold SameClaim at h
  rw [h]

/-- The sum of the grants of a list. -/
def granted (l : List Claim) : Nat := (l.map (·.g)).sum

/-- The claims on one feeder. -/
def onFeeder (f : FeederId) (l : List Claim) : List Claim := l.filter fun z => z.feeder == f

theorem granted_cons (c : Claim) (l : List Claim) : granted (c :: l) = c.g + granted l := by
  simp only [granted, List.map_cons, List.sum_cons]

theorem onFeeder_cons (f : FeederId) (c : Claim) (l : List Claim) :
    onFeeder f (c :: l) = if c.feeder = f then c :: onFeeder f l else onFeeder f l := by
  rw [onFeeder, List.filter_cons]
  simp only [beq_iff_eq]
  rfl

theorem granted_onFeeder_cons (f : FeederId) (c : Claim) (l : List Claim) :
    granted (onFeeder f (c :: l)) = (if c.feeder = f then c.g else 0) + granted (onFeeder f l) := by
  rw [onFeeder_cons]
  split
  · exact granted_cons _ _
  · exact (Nat.zero_add _).symm

theorem Rooms.give_feeder (r : Rooms) (f e : FeederId) (g : Nat) :
    (r.give f g).feeder e = r.feeder e - if f = e then g else 0 := by
  simp only [Rooms.give, Rooms.feeder, Vector.getElem_set, Fin.val_inj]
  split
  · next h => rw [h]
  · rfl

theorem Rooms.give_site (r : Rooms) (f : FeederId) (g : Nat) : (r.give f g).site = r.site - g := rfl

/-- A claim on the same feeder with a grant no larger. -/
def Below (x y : Claim) : Prop := x.feeder = y.feeder ∧ x.g ≤ y.g

theorem granted_mono {l m : List Claim} (h : List.Forall₂ Below l m) : granted l ≤ granted m := by
  induction h with
  | nil => exact le_rfl
  | cons hxy _ ih =>
    rw [granted_cons, granted_cons]
    exact Nat.add_le_add hxy.2 ih

theorem onFeeder_below (f : FeederId) {l m : List Claim} (h : List.Forall₂ Below l m) :
    List.Forall₂ Below (onFeeder f l) (onFeeder f m) := by
  induction h with
  | nil => exact .nil
  | cons hxy _ ih =>
    rw [onFeeder_cons, onFeeder_cons, hxy.1]
    split
    · exact .cons hxy ih
    · exact ih

/-! ## The walk of the queue (R81) -/

theorem admitWalk_cons (c : Claim) (cs : List Claim) (r : Rooms) : (admitWalk (c :: cs) r).1 =
      { c with g := admitOne c r } :: (admitWalk cs (r.give c.feeder (admitOne c r))).1
    ∧ (admitWalk (c :: cs) r).2 = (admitWalk cs (r.give c.feeder (admitOne c r))).2 := ⟨rfl, rfl⟩

theorem admitWalk_same (cs : List Claim) (r : Rooms) : List.Forall₂ SameClaim cs (admitWalk cs r).1 := by
  induction cs generalizing r with
  | nil => exact .nil
  | cons c cs ih =>
    rw [(admitWalk_cons c cs r).1]
    exact .cons (.granted c _) (ih _)

/-- The rooms left by the walk are those at its start less what it has granted. -/
theorem admitWalk_rooms (cs : List Claim) (r : Rooms) : (admitWalk cs r).2.site = r.site - granted (admitWalk cs r).1
    ∧ ∀ f, (admitWalk cs r).2.feeder f = r.feeder f - granted (onFeeder f (admitWalk cs r).1) := by
  induction cs generalizing r with
  | nil => exact ⟨rfl, fun _ => rfl⟩
  | cons c cs ih =>
    obtain ⟨hsite, hfeeder⟩ := ih (r.give c.feeder (admitOne c r))
    obtain ⟨hlist, hrooms⟩ := admitWalk_cons c cs r
    rw [hlist, hrooms]
    refine ⟨?_, fun f => ?_⟩
    · rw [hsite, Rooms.give_site, granted_cons, Nat.sub_sub]
    · rw [hfeeder, Rooms.give_feeder, granted_onFeeder_cons, Nat.sub_sub]

/-- Each session's grant is the first grant of R81 in the rooms that those before it have left. -/
theorem admitWalk_get (cs : List Claim) (r : Rooms) (i : Nat) {c : Claim} (h : cs[i]? = some c) :
    ∃ here : Rooms, here.site = r.site - granted ((admitWalk cs r).1.take i)
      ∧ (∀ f, here.feeder f = r.feeder f - granted (onFeeder f ((admitWalk cs r).1.take i)))
      ∧ (admitWalk cs r).1[i]? = some { c with g := admitOne c here } := by
  induction cs generalizing r i with
  | nil => simp at h
  | cons d cs ih =>
    rw [(admitWalk_cons d cs r).1]
    cases i with
    | zero =>
      rw [List.getElem?_cons_zero] at h ⊢
      cases h
      exact ⟨r, rfl, fun _ => rfl, rfl⟩
    | succ i =>
      rw [List.getElem?_cons_succ] at h ⊢
      obtain ⟨here, hsite, hfeeder, hget⟩ := ih (r.give d.feeder (admitOne d r)) i h
      refine ⟨here, ?_, fun f => ?_, hget⟩
      · rw [hsite, Rooms.give_site, List.take_succ_cons, granted_cons, Nat.sub_sub]
      · rw [hfeeder, Rooms.give_feeder, List.take_succ_cons, granted_onFeeder_cons, Nat.sub_sub]

theorem admitOne_le (c : Claim) (r : Rooms) : admitOne c r ≤ r.site ∧ admitOne c r ≤ r.feeder c.feeder := by
  unfold admitOne
  dsimp only
  split
  · omega
  · split
    · omega
    · split <;> omega

/-- The walk grants no more than the rooms at its start. -/
theorem admitWalk_le (cs : List Claim) (r : Rooms) : granted (admitWalk cs r).1 ≤ r.site
    ∧ ∀ f, granted (onFeeder f (admitWalk cs r).1) ≤ r.feeder f := by
  induction cs generalizing r with
  | nil => exact ⟨Nat.zero_le _, fun _ => Nat.zero_le _⟩
  | cons c cs ih =>
    obtain ⟨hsite, hfeeder⟩ := ih (r.give c.feeder (admitOne c r))
    obtain ⟨hlesite, hlefeeder⟩ := admitOne_le c r
    rw [(admitWalk_cons c cs r).1]
    refine ⟨?_, fun f => ?_⟩
    · rw [Rooms.give_site] at hsite
      rw [granted_cons]
      dsimp only
      omega
    · have hf := hfeeder f
      rw [Rooms.give_feeder] at hf
      rw [granted_onFeeder_cons]
      dsimp only
      split at hf
      · next h =>
        rw [if_pos h]
        rw [h] at hlefeeder
        omega
      · next h =>
        rw [if_neg h]
        omega

/-! ## The rounds (R82) -/

/-- A claim after its visit in a round. -/
def visited (c : Claim) (r : Rooms) : Claim := if takes c r then { c with g := c.g + 1 } else c

/-- The rooms after a visit in a round. -/
def afterVisit (c : Claim) (r : Rooms) : Rooms := if takes c r then r.give c.feeder 1 else r

theorem shareRound_cons (c : Claim) (cs : List Claim) (r : Rooms) :
    (shareRound (c :: cs) r).1 = visited c r :: (shareRound cs (afterVisit c r)).1
      ∧ (shareRound (c :: cs) r).2 = (shareRound cs (afterVisit c r)).2 := by
  cases h : takes c r <;> simp [shareRound, visited, afterVisit, h]

/-- A claim whose grant is raised, within its cap, or left. -/
def Raised (x y : Claim) : Prop := SameClaim x y ∧ x.g ≤ y.g ∧ (y.g = x.g ∨ (0 < x.g ∧ y.g ≤ x.cap))

theorem Raised.below {x y : Claim} (h : Raised x y) : Below x y := ⟨h.1.feeder.symm, h.2.1⟩

theorem Raised.refl (x : Claim) : Raised x x := ⟨.refl x, le_rfl, .inl rfl⟩

theorem takes_iff (c : Claim) (r : Rooms) :
    takes c r = true ↔ c.cls ≠ .firm ∧ 0 < c.g ∧ c.g < c.cap ∧ 1 ≤ r.site ∧ 1 ≤ r.feeder c.feeder := by
  simp only [takes, Bool.and_eq_true, bne_iff_ne, decide_eq_true_eq]
  tauto

theorem visited_raised (c : Claim) (r : Rooms) : Raised c (visited c r) := by
  unfold visited
  split
  · next h =>
    obtain ⟨-, hg, hcap, -, -⟩ := (takes_iff c r).mp h
    exact ⟨.granted c _, Nat.le_succ _, .inr ⟨hg, hcap⟩⟩
  · exact .refl c

theorem shareRound_raised (cs : List Claim) (r : Rooms) : List.Forall₂ Raised cs (shareRound cs r).1 := by
  induction cs generalizing r with
  | nil => exact .nil
  | cons c cs ih =>
    rw [(shareRound_cons c cs r).1]
    exact .cons (visited_raised c r) (ih _)

theorem afterVisit_site (c : Claim) (r : Rooms) : (afterVisit c r).site = r.site - ((visited c r).g - c.g) := by
  unfold afterVisit visited
  split
  · rw [Rooms.give_site]
    dsimp only
    omega
  · omega

theorem afterVisit_feeder (c : Claim) (r : Rooms) (f : FeederId) :
    (afterVisit c r).feeder f = r.feeder f - if c.feeder = f then (visited c r).g - c.g else 0 := by
  unfold afterVisit visited
  split
  · rw [Rooms.give_feeder, Nat.add_sub_cancel_left]
  · rw [Nat.sub_self, ite_self, Nat.sub_zero]

/-- Each session's step in a round is taken in the rooms that those before it have left. -/
theorem shareRound_get (cs : List Claim) (r : Rooms) (i : Nat) {c : Claim} (h : cs[i]? = some c) :
    ∃ here : Rooms, here.site = r.site - (granted ((shareRound cs r).1.take i) - granted (cs.take i))
      ∧ (∀ f, here.feeder f =
        r.feeder f - (granted (onFeeder f ((shareRound cs r).1.take i)) - granted (onFeeder f (cs.take i))))
      ∧ (shareRound cs r).1[i]? = some (visited c here) := by
  induction cs generalizing r i with
  | nil => simp at h
  | cons d cs ih =>
    rw [(shareRound_cons d cs r).1]
    cases i with
    | zero =>
      rw [List.getElem?_cons_zero] at h ⊢
      cases h
      exact ⟨r, rfl, fun _ => rfl, rfl⟩
    | succ i =>
      rw [List.getElem?_cons_succ] at h ⊢
      obtain ⟨here, hsite, hfeeder, hget⟩ := ih (afterVisit d r) i h
      have hraised := List.forall₂_take i ((shareRound_raised cs (afterVisit d r)).imp fun _ _ => Raised.below)
      have hvisit := visited_raised d r
      refine ⟨here, ?_, fun f => ?_, hget⟩
      · have hmono := granted_mono hraised
        have hd := hvisit.2.1
        rw [hsite, afterVisit_site, List.take_succ_cons, List.take_succ_cons, granted_cons, granted_cons]
        omega
      · have hmono := granted_mono (onFeeder_below f hraised)
        have hd := hvisit.2.1
        rw [hfeeder, afterVisit_feeder, List.take_succ_cons, List.take_succ_cons, granted_onFeeder_cons,
          granted_onFeeder_cons, hvisit.1.feeder]
        split <;> omega

/-- A round takes from the rooms what it adds to the grants. -/
theorem shareRound_rooms (cs : List Claim) (r : Rooms) :
    granted (shareRound cs r).1 + (shareRound cs r).2.site = granted cs + r.site
      ∧ ∀ f, granted (onFeeder f (shareRound cs r).1) + (shareRound cs r).2.feeder f
        = granted (onFeeder f cs) + r.feeder f := by
  induction cs generalizing r with
  | nil => exact ⟨rfl, fun _ => rfl⟩
  | cons c cs ih =>
    obtain ⟨hsite, hfeeder⟩ := ih (afterVisit c r)
    obtain ⟨hlist, hrooms⟩ := shareRound_cons c cs r
    have hroom : (visited c r).g - c.g ≤ r.site ∧ (visited c r).g - c.g ≤ r.feeder c.feeder := by
      unfold visited
      split
      · next h =>
        obtain ⟨-, -, -, hs, hf⟩ := (takes_iff c r).mp h
        dsimp only
        omega
      · omega
    have hvisit := visited_raised c r
    have hd := hvisit.2.1
    rw [hlist, hrooms]
    refine ⟨?_, fun f => ?_⟩
    · rw [afterVisit_site] at hsite
      rw [granted_cons, granted_cons]
      omega
    · have hf := hfeeder f
      rw [afterVisit_feeder] at hf
      rw [granted_onFeeder_cons, granted_onFeeder_cons, hvisit.1.feeder]
      split at hf
      · next h =>
        rw [h] at hroom
        rw [if_pos h, if_pos h]
        omega
      · next h =>
        rw [if_neg h, if_neg h]
        omega

/-- A round in which the site's room stays has no taker. -/
theorem shareRound_still (cs : List Claim) (r : Rooms) (h : (shareRound cs r).2.site = r.site) : (shareRound cs r).1 = cs := by
  have hsum : granted (shareRound cs r).1 = granted cs := by
    have := (shareRound_rooms cs r).1
    omega
  have hraised := shareRound_raised cs r
  generalize (shareRound cs r).1 = m at *
  clear h
  induction hraised with
  | nil => rfl
  | @cons x y l m hxy hrest ih =>
    rw [granted_cons, granted_cons] at hsum
    have hmono := granted_mono (hrest.imp fun _ _ => Raised.below)
    have hg := hxy.2.1
    have hsame : y = x := by
      have hy : y = { x with g := y.g } := hxy.1
      rw [hy, show y.g = x.g by omega]
    rw [hsame, ih (by omega)]

end Sys2Proof.Machine
end

section
/-! # Hold-back (R83) -/

namespace Sys2Proof.Machine

/-! ## Claims that are trimmed -/

/-- A claim whose grant is lowered, to 0 or to its minimum or above where it was so. -/
def Trimmed (x y : Claim) : Prop :=
  SameClaim x y ∧ y.g ≤ x.g ∧ (x.g = 0 ∨ x.min ≤ x.g → y.g = 0 ∨ x.min ≤ y.g)

theorem Trimmed.refl (x : Claim) : Trimmed x x := ⟨.refl x, le_rfl, id⟩

theorem Trimmed.trans {x y z : Claim} (h : Trimmed x y) (h' : Trimmed y z) : Trimmed x z := by
  obtain ⟨hsame, hle, hmin⟩ := h
  obtain ⟨hsame', hle', hmin'⟩ := h'
  rw [hsame.min] at hmin'
  exact ⟨hsame.trans hsame', hle'.trans hle, fun hx => hmin' (hmin hx)⟩

theorem Trimmed.below {x y : Claim} (h : Trimmed x y) : Below y x := ⟨h.1.feeder, h.2.1⟩

/-- A list of claims, trimmed in place. -/
def AllTrimmed : List Claim → List Claim → Prop := List.Forall₂ Trimmed

theorem AllTrimmed.refl (l : List Claim) : AllTrimmed l l := List.forall₂_same.mpr fun x _ => .refl x

theorem AllTrimmed.trans {l m k : List Claim} (h : AllTrimmed l m) (h' : AllTrimmed m k) : AllTrimmed l k := by
  induction h generalizing k with
  | nil => exact h'
  | cons hxy _ ih =>
    cases h' with
    | cons hyz hrest => exact .cons (hxy.trans hyz) (ih hrest)

theorem AllTrimmed.same {l m : List Claim} (h : AllTrimmed l m) : List.Forall₂ SameClaim l m := h.imp fun _ _ h => h.1

theorem AllTrimmed.below {l m : List Claim} (h : AllTrimmed l m) : List.Forall₂ Below m l :=
  List.Forall₂.flip (h.imp fun _ _ => Trimmed.below)

/-! ## What a sum counts -/

/-- The standing powers of the claims of a sum. -/
def standingSum (inSum : Claim → Bool) (cs : List Claim) : Nat := ((cs.filter inSum).map (·.h)).sum

/-- A sum reads no grant. -/
def ReadsNoGrant (inSum : Claim → Bool) : Prop := ∀ x y, SameClaim x y → inSum y = inSum x

theorem readsNoGrant_feeder (f : FeederId) : ReadsNoGrant fun c => c.feeder == f := fun _ _ h => congrArg (· == f) h.feeder

theorem readsNoGrant_all : ReadsNoGrant fun _ => true := fun _ _ _ => rfl

theorem countedSum_cons (inSum : Claim → Bool) (c : Claim) (cs : List Claim) : countedSum inSum (c :: cs) =
    (if inSum c = true then max c.g c.h else 0) + countedSum inSum cs := by
  unfold countedSum
  rw [List.filter_cons]
  split
  · rw [List.map_cons, List.sum_cons]
  · exact (Nat.zero_add _).symm

theorem standingSum_cons (inSum : Claim → Bool) (c : Claim) (cs : List Claim) : standingSum inSum (c :: cs) =
    (if inSum c = true then c.h else 0) + standingSum inSum cs := by
  unfold standingSum
  rw [List.filter_cons]
  split
  · rw [List.map_cons, List.sum_cons]
  · exact (Nat.zero_add _).symm

theorem countedSum_reverse (inSum : Claim → Bool) (cs : List Claim) : countedSum inSum cs.reverse = countedSum inSum cs := by
  rw [countedSum, List.filter_reverse, List.map_reverse, List.sum_reverse, countedSum]

theorem standingSum_reverse (inSum : Claim → Bool) (cs : List Claim) : standingSum inSum cs.reverse = standingSum inSum cs := by
  rw [standingSum, List.filter_reverse, List.map_reverse, List.sum_reverse, standingSum]

theorem standingSum_le_countedSum (inSum : Claim → Bool) (cs : List Claim) : standingSum inSum cs ≤ countedSum inSum cs := by
  induction cs with
  | nil => exact le_rfl
  | cons c cs ih =>
    rw [standingSum_cons, countedSum_cons]
    split <;> omega

theorem standingSum_same {inSum : Claim → Bool} (hin : ReadsNoGrant inSum) {l m : List Claim}
    (h : List.Forall₂ SameClaim l m) : standingSum inSum m = standingSum inSum l := by
  induction h with
  | nil => rfl
  | cons hxy _ ih => rw [standingSum_cons, standingSum_cons, hin _ _ hxy, hxy.h, ih]

theorem countedSum_trimmed {inSum : Claim → Bool} (hin : ReadsNoGrant inSum) {l m : List Claim} (h : AllTrimmed l m) :
    countedSum inSum m ≤ countedSum inSum l := by
  induction h with
  | nil => exact le_rfl
  | cons hxy _ ih =>
    obtain ⟨hsame, hle, -⟩ := hxy
    rw [countedSum_cons, countedSum_cons, hin _ _ hsame, hsame.h]
    split <;> omega

theorem claimed_same {l m : List Claim} (h : List.Forall₂ SameClaim l m) (b : BayId) : claimed m b = claimed l b := by
  unfold claimed
  induction h with
  | nil => rfl
  | cons hxy _ ih => rw [List.any_cons, List.any_cons, hxy.bay, ih]

theorem idleStanding_same (n : Snapshot) {l m : List Claim} (h : List.Forall₂ SameClaim l m) (on : SnapBay → Bool) :
    n.idleStanding m on = n.idleStanding l on := by
  simp only [Snapshot.idleStanding, claimed_same h]

/-! ## The walk of the increases -/

theorem trimmedGrant_le (c : Claim) (excess : Nat) (h : c.h < c.g) : trimmedGrant c excess ≤ c.g := by
  unfold trimmedGrant
  dsimp only
  split
  · split <;> omega
  · omega

theorem trimmedGrant_min (c : Claim) (excess : Nat) : trimmedGrant c excess = 0 ∨ c.min ≤ trimmedGrant c excess := by
  unfold trimmedGrant
  dsimp only
  split
  · split <;> omega
  · omega

/-- A trimmed increase falls by the excess, or to its standing power. -/
theorem trimmedGrant_falls (c : Claim) (excess : Nat) :
    max (trimmedGrant c excess) c.h + excess ≤ c.g ∨ max (trimmedGrant c excess) c.h = c.h := by
  unfold trimmedGrant
  dsimp only
  split
  · split <;> omega
  · omega

theorem trimWalk_zero (inSum : Claim → Bool) (cs : List Claim) : trimWalk inSum cs 0 = cs := by
  cases cs with
  | nil => rfl
  | cons c cs => exact if_pos rfl

theorem trimWalk_lowers {inSum : Claim → Bool} {c : Claim} {excess : Nat} (cs : List Claim) (he : excess ≠ 0)
    (hin : inSum c = true) (hlt : c.h < c.g) : trimWalk inSum (c :: cs) excess =
      { c with g := trimmedGrant c excess } :: trimWalk inSum cs (excess - (c.g - max (trimmedGrant c excess) c.h)) := by
  rw [trimWalk, if_neg he, if_pos (by rw [hin, decide_eq_true hlt]; rfl)]

theorem trimWalk_passes {inSum : Claim → Bool} {c : Claim} {excess : Nat} (cs : List Claim) (he : excess ≠ 0)
    (h : ¬ (inSum c = true ∧ c.h < c.g)) : trimWalk inSum (c :: cs) excess = c :: trimWalk inSum cs excess := by
  rw [trimWalk, if_neg he, if_neg (by simpa only [Bool.and_eq_true, decide_eq_true_eq] using h)]

theorem trimWalk_trimmed (inSum : Claim → Bool) (cs : List Claim) (excess : Nat) :
    AllTrimmed cs (trimWalk inSum cs excess) := by
  induction cs generalizing excess with
  | nil => exact .nil
  | cons c cs ih =>
    by_cases he : excess = 0
    · rw [he, trimWalk_zero]
      exact .refl _
    by_cases h : inSum c = true ∧ c.h < c.g
    · rw [trimWalk_lowers cs he h.1 h.2]
      exact .cons ⟨.granted c _, trimmedGrant_le c excess h.2, fun _ => trimmedGrant_min c excess⟩ (ih _)
    · rw [trimWalk_passes cs he h]
      exact .cons (.refl c) (ih _)

/-- The walk takes the excess off the sum, or leaves in it the standing powers alone. -/
theorem trimWalk_falls {inSum : Claim → Bool} (hread : ReadsNoGrant inSum) (cs : List Claim) (excess : Nat) :
    countedSum inSum (trimWalk inSum cs excess) ≤ max (countedSum inSum cs - excess) (standingSum inSum cs) := by
  induction cs generalizing excess with
  | nil => exact Nat.zero_le _
  | cons c cs ih =>
    by_cases he : excess = 0
    · rw [he, trimWalk_zero]
      exact le_max_left _ _
    have hbase := standingSum_le_countedSum inSum cs
    rw [countedSum_cons, standingSum_cons]
    by_cases h : inSum c = true ∧ c.h < c.g
    · obtain ⟨hin, hlt⟩ := h
      have hrest := ih (excess - (c.g - max (trimmedGrant c excess) c.h))
      have hfall := trimmedGrant_falls c excess
      have hle := trimmedGrant_le c excess hlt
      rw [trimWalk_lowers cs he hin hlt, countedSum_cons, hread c _ (.granted c _), if_pos hin, if_pos hin, if_pos hin]
      dsimp only
      omega
    · have hrest := ih excess
      rw [trimWalk_passes cs he h, countedSum_cons]
      by_cases hin : inSum c = true
      · have hge : c.g ≤ c.h := not_lt.mp fun hlt => h ⟨hin, hlt⟩
        rw [if_pos hin, if_pos hin]
        omega
      · rw [if_neg hin, if_neg hin]
        omega

/-! ## The five sums -/

/-- What a sum counts is within its limit, or no more than the standing power in it. -/
def Snapshot.WithinLimit (n : Snapshot) (on : SnapBay → Bool) (inSum : Claim → Bool) (limit : Nat) (cs : List Claim) : Prop :=
  countedSum inSum cs + n.idleStanding cs on ≤ max limit (standingSum inSum cs + n.idleStanding cs on)

theorem Snapshot.WithinLimit.trimmed {n : Snapshot} {on : SnapBay → Bool} {inSum : Claim → Bool} {limit : Nat}
    {l m : List Claim} (hread : ReadsNoGrant inSum) (h : n.WithinLimit on inSum limit l) (ht : AllTrimmed l m) :
    n.WithinLimit on inSum limit m := by
  unfold Snapshot.WithinLimit at *
  have hle := countedSum_trimmed hread ht
  rw [idleStanding_same n ht.same, standingSum_same hread ht.same]
  omega

theorem holdBackSum_trimmed (inSum : Claim → Bool) (idle limit : Nat) (cs : List Claim) :
    AllTrimmed cs (holdBackSum inSum idle limit cs) := by
  have h := trimWalk_trimmed inSum cs.reverse (countedSum inSum cs + idle - limit)
  unfold AllTrimmed holdBackSum
  rw [← List.forall₂_reverse_iff, List.reverse_reverse]
  exact h

theorem holdBackSum_within (n : Snapshot) (on : SnapBay → Bool) {inSum : Claim → Bool} (hread : ReadsNoGrant inSum)
    (limit : Nat) (cs : List Claim) :
    n.WithinLimit on inSum limit (holdBackSum inSum (n.idleStanding cs on) limit cs) := by
  have hsame := (holdBackSum_trimmed inSum (n.idleStanding cs on) limit cs).same
  have hfall := trimWalk_falls hread cs.reverse (countedSum inSum cs + n.idleStanding cs on - limit)
  unfold Snapshot.WithinLimit
  rw [idleStanding_same n hsame, standingSum_same hread hsame, holdBackSum, countedSum_reverse]
  rw [countedSum_reverse, standingSum_reverse] at hfall
  omega

/-- The sums of a list of feeders, in their order. -/
def Snapshot.holdFeeders (n : Snapshot) (fs : List FeederId) (cs : List Claim) : List Claim :=
  fs.foldl (fun cs f =>
    holdBackSum (fun c => c.feeder == f) (n.idleStanding cs fun y => y.feeder == f) n.feederLimits[f.val] cs) cs

theorem holdFeeders_cons (n : Snapshot) (f : FeederId) (fs : List FeederId) (cs : List Claim) :
    n.holdFeeders (f :: fs) cs = n.holdFeeders fs
      (holdBackSum (fun c => c.feeder == f) (n.idleStanding cs fun y => y.feeder == f) n.feederLimits[f.val] cs) := rfl

theorem holdFeeders_trimmed (n : Snapshot) (fs : List FeederId) (cs : List Claim) : AllTrimmed cs (n.holdFeeders fs cs) := by
  induction fs generalizing cs with
  | nil => exact .refl cs
  | cons f fs ih => exact (holdBackSum_trimmed _ _ _ cs).trans (ih _)

theorem holdFeeders_within (n : Snapshot) {fs : List FeederId} {f : FeederId} (hf : f ∈ fs) (cs : List Claim) :
    n.WithinLimit (fun y => y.feeder == f) (fun c => c.feeder == f) n.feederLimits[f.val] (n.holdFeeders fs cs) := by
  induction fs generalizing cs with
  | nil => exact absurd hf List.not_mem_nil
  | cons e fs ih =>
    rw [holdFeeders_cons]
    rcases List.mem_cons.mp hf with heq | hrest
    · rw [← heq]
      exact (holdBackSum_within n _ (readsNoGrant_feeder f) _ cs).trimmed (readsNoGrant_feeder f)
        (holdFeeders_trimmed n fs _)
    · exact ih hrest _

theorem holdBack_eq (n : Snapshot) (b : Nat) (cs : List Claim) : n.holdBack b cs =
    holdBackSum (fun _ => true) (n.idleStanding (n.holdFeeders (indices 4) cs) fun _ => true) b
      (n.holdFeeders (indices 4) cs) := rfl

theorem holdBack_trimmed (n : Snapshot) (b : Nat) (cs : List Claim) : AllTrimmed cs (n.holdBack b cs) := by
  rw [holdBack_eq]
  exact (holdFeeders_trimmed n _ cs).trans (holdBackSum_trimmed _ _ _ _)

theorem holdBack_within_feeder (n : Snapshot) (b : Nat) (cs : List Claim) (f : FeederId) :
    n.WithinLimit (fun y => y.feeder == f) (fun c => c.feeder == f) n.feederLimits[f.val] (n.holdBack b cs) := by
  rw [holdBack_eq]
  exact (holdFeeders_within n (List.mem_finRange f) cs).trimmed (readsNoGrant_feeder f) (holdBackSum_trimmed _ _ _ _)

theorem holdBack_within_site (n : Snapshot) (b : Nat) (cs : List Claim) :
    n.WithinLimit (fun _ => true) (fun _ => true) b (n.holdBack b cs) := by
  rw [holdBack_eq]
  exact holdBackSum_within n _ readsNoGrant_all b _

/-- Settles O49: the count of each sum is within its limit after its own walk, and no later walk raises it. -/
theorem holdBackKeepsLimits : Obligations.HoldBackKeepsLimits := by
  unfold Obligations.HoldBackKeepsLimits
  intro n b
  refine ⟨fun f => holdBack_within_feeder n b _ f, ?_⟩
  have hsite := holdBack_within_site n b (n.share b)
  unfold Snapshot.WithinLimit countedSum standingSum at hsite
  rw [List.filter_true] at hsite
  exact hsite

end Sys2Proof.Machine
end

section
/-! # What a pass grants (R81 to R84) -/

namespace Sys2Proof.Machine

/-! ## Wants, minimums and caps -/

/-- A want that is 0, or lies between the minimum and the cap. -/
def Claim.WantsBetween (c : Claim) : Prop := c.want = 0 ∨ (c.min ≤ c.want ∧ c.want ≤ c.cap)

/-- A grant that is 0, or lies between the minimum and the cap. -/
def Claim.GrantBetween (c : Claim) : Prop := c.g = 0 ∨ (c.min ≤ c.g ∧ c.g ≤ c.cap)

theorem wantCap_between (cls : SessionClass) (demand firm lo hi : Nat) : (wantCap cls demand firm lo hi).1 = 0
    ∨ (lo ≤ (wantCap cls demand firm lo hi).1 ∧ (wantCap cls demand firm lo hi).1 ≤ (wantCap cls demand firm lo hi).2) := by
  unfold wantCap
  dsimp only
  split
  · exact .inl rfl
  · cases cls with
    | firm => exact .inr ⟨le_max_right _ _, le_rfl⟩
    | rapid => exact .inr ⟨le_rfl, le_max_right _ _⟩
    | ordinary => exact .inr ⟨le_rfl, le_max_right _ _⟩

theorem claims_wantsBetween (n : Snapshot) : ∀ c ∈ n.claims, c.WantsBetween := by
  intro c hc
  obtain ⟨m, -, rfl⟩ := List.mem_map.mp hc
  exact wantCap_between _ _ _ _ _

theorem admitOne_between {c : Claim} (h : c.WantsBetween) (r : Rooms) :
    Claim.GrantBetween { c with g := admitOne c r } := by
  unfold Claim.GrantBetween admitOne
  dsimp only
  split
  · exact .inl rfl
  next hwant =>
    obtain ⟨hmin, hcap⟩ := h.resolve_left hwant
    split
    · exact .inr ⟨hmin, hcap⟩
    · split
      · next hpart =>
        obtain ⟨-, hroom⟩ := hpart
        omega
      · exact .inl rfl

theorem admitWalk_between {cs : List Claim} (h : ∀ c ∈ cs, c.WantsBetween) (r : Rooms) :
    ∀ x ∈ (admitWalk cs r).1, x.GrantBetween := by
  induction cs generalizing r with
  | nil => exact fun x hx => absurd hx List.not_mem_nil
  | cons c cs ih =>
    obtain ⟨hc, hcs⟩ := List.forall_mem_cons.mp h
    rw [(admitWalk_cons c cs r).1]
    exact List.forall_mem_cons.mpr ⟨admitOne_between hc r, ih hcs _⟩

/-- What a relation keeps of each claim, a list of claims in that relation keeps. -/
theorem forall_mem_of_forall₂ {R : Claim → Claim → Prop} {P : Claim → Prop} (hR : ∀ x y, R x y → P x → P y)
    {l m : List Claim} (h : List.Forall₂ R l m) (hl : ∀ x ∈ l, P x) : ∀ y ∈ m, P y := by
  induction h with
  | nil => exact fun y hy => absurd hy List.not_mem_nil
  | cons hxy _ ih =>
    obtain ⟨hx, hrest⟩ := List.forall_mem_cons.mp hl
    exact List.forall_mem_cons.mpr ⟨hR _ _ hxy hx, ih hrest⟩

theorem Raised.between {x y : Claim} (h : Raised x y) (hx : x.GrantBetween) : y.GrantBetween := by
  obtain ⟨hsame, hle, hcap⟩ := h
  unfold Claim.GrantBetween at *
  rw [hsame.min, hsame.cap]
  omega

theorem Trimmed.between {x y : Claim} (h : Trimmed x y) (hx : x.GrantBetween) : y.GrantBetween := by
  obtain ⟨hsame, hle, hmin⟩ := h
  unfold Claim.GrantBetween at *
  rw [hsame.min, hsame.cap]
  omega

/-! ## The rooms at the start -/

theorem idleStanding_eq (n : Snapshot) (cs : List Claim) (on : SnapBay → Bool) : n.idleStanding cs on =
    ((List.finRange 48).map fun y : BayId =>
      if (n.bays[y.val]).declared = true ∧ on n.bays[y.val] = true ∧ (∀ c ∈ cs, c.bay ≠ y) then (n.bays[y.val]).standing
      else 0).sum := by
  have hclaimed : ∀ y : BayId, (!claimed cs y) = true ↔ ∀ c ∈ cs, c.bay ≠ y := by
    intro y
    simp only [claimed, Bool.not_eq_true', List.any_eq_false, beq_iff_eq, ne_eq]
  simp only [Snapshot.idleStanding, indices, Bool.and_eq_true, hclaimed, and_assoc]

theorem startRooms_feeder (n : Snapshot) (cs : List Claim) (b : Nat) (f : FeederId) :
    (n.startRooms cs b).feeder f = n.feederLimits[f.val] - n.idleStanding cs fun y => y.feeder == f := by
  simp only [Rooms.feeder, Snapshot.startRooms, Vector.getElem_ofFn]

/-! ## Stages 5 and 6 together -/

/-- One round on the claims and the rooms. -/
def roundStep (p : List Claim × Rooms) : List Claim × Rooms := shareRound p.1 p.2

theorem shareRounds_done {cs : List Claim} {r : Rooms} (fuel : Nat) (h : r.site = 0) : shareRounds fuel cs r = cs := by
  cases fuel with
  | zero => rfl
  | succ fuel => exact if_pos h

/-- The rounds end when the site has no room left or a round has no taker: every other round takes a step of the site's room. -/
theorem shareRounds_iterate (fuel : Nat) (cs : List Claim) (r : Rooms) (h : r.site ≤ fuel) : ∃ rounds : Nat,
    shareRounds fuel cs r = (roundStep^[rounds] (cs, r)).1
      ∧ ((roundStep^[rounds] (cs, r)).2.site = 0
        ∨ (roundStep (roundStep^[rounds] (cs, r))).1 = (roundStep^[rounds] (cs, r)).1) := by
  induction fuel generalizing cs r with
  | zero => exact ⟨0, rfl, .inl (Nat.le_zero.mp h)⟩
  | succ fuel ih =>
    by_cases hsite : r.site = 0
    · exact ⟨0, shareRounds_done _ hsite, .inl hsite⟩
    by_cases hstill : (shareRound cs r).2.site = r.site
    · refine ⟨0, ?_, .inr (shareRound_still cs r hstill)⟩
      rw [shareRounds, if_neg hsite]
      exact if_pos hstill
    · have hmono := granted_mono ((shareRound_raised cs r).imp fun _ _ => Raised.below)
      have hsum := (shareRound_rooms cs r).1
      obtain ⟨rounds, hshared, hlast⟩ := ih (shareRound cs r).1 (shareRound cs r).2 (by omega)
      refine ⟨rounds + 1, ?_, hlast⟩
      rw [shareRounds, if_neg hsite]
      exact (if_neg hstill).trans hshared

/-- What admission and the rounds keep of the claims and the rooms they began with. -/
structure SharedFrom (cs : List Claim) (r : Rooms) (p : List Claim × Rooms) : Prop where
  same : List.Forall₂ SameClaim cs p.1
  between : ∀ x ∈ p.1, x.GrantBetween
  site : granted p.1 + p.2.site = r.site
  feeder : ∀ f, granted (onFeeder f p.1) + p.2.feeder f = r.feeder f

theorem sharedFrom_admitWalk {cs : List Claim} (h : ∀ c ∈ cs, c.WantsBetween) (r : Rooms) :
    SharedFrom cs r (admitWalk cs r) := by
  obtain ⟨hsite, hfeeder⟩ := admitWalk_rooms cs r
  obtain ⟨hlesite, hlefeeder⟩ := admitWalk_le cs r
  refine ⟨admitWalk_same cs r, admitWalk_between h r, ?_, fun f => ?_⟩
  · rw [hsite]
    exact Nat.add_sub_cancel' hlesite
  · rw [hfeeder]
    exact Nat.add_sub_cancel' (hlefeeder f)

theorem SameClaim.trans_all {l m k : List Claim} (h : List.Forall₂ SameClaim l m) (h' : List.Forall₂ SameClaim m k) :
    List.Forall₂ SameClaim l k := by
  induction h generalizing k with
  | nil => exact h'
  | cons hxy _ ih =>
    cases h' with
    | cons hyz hrest => exact .cons (hxy.trans hyz) (ih hrest)

theorem SharedFrom.roundStep {cs : List Claim} {r : Rooms} {p : List Claim × Rooms} (h : SharedFrom cs r p) :
    SharedFrom cs r (roundStep p) := by
  obtain ⟨hsite, hfeeder⟩ := shareRound_rooms p.1 p.2
  have hraised := shareRound_raised p.1 p.2
  exact {
    same := SameClaim.trans_all h.same (hraised.imp fun _ _ hxy => hxy.1)
    between := forall_mem_of_forall₂ (fun _ _ hxy => hxy.between) hraised h.between
    site := hsite.trans h.site
    feeder := fun f => (hfeeder f).trans (h.feeder f) }

/-- The shares of a pass are the last of some rounds after the walk of the queue. -/
theorem share_iterate (n : Snapshot) (b : Nat) : ∃ rounds : Nat,
    n.share b = (roundStep^[rounds] (admitWalk n.claims (n.startRooms n.claims b))).1
      ∧ ((roundStep^[rounds] (admitWalk n.claims (n.startRooms n.claims b))).2.site = 0
        ∨ (roundStep (roundStep^[rounds] (admitWalk n.claims (n.startRooms n.claims b)))).1
          = (roundStep^[rounds] (admitWalk n.claims (n.startRooms n.claims b))).1) :=
  shareRounds_iterate _ _ _ le_rfl

theorem share_from (n : Snapshot) (b : Nat) : ∃ r : Rooms, SharedFrom n.claims (n.startRooms n.claims b) (n.share b, r) := by
  obtain ⟨rounds, hshare, -⟩ := share_iterate n b
  have hlast := Function.Iterate.rec (SharedFrom n.claims (n.startRooms n.claims b))
    (sharedFrom_admitWalk (claims_wantsBetween n) (n.startRooms n.claims b)) (fun _ h => h.roundStep) rounds
  exact ⟨_, by rw [hshare]; exact hlast⟩

theorem share_same (n : Snapshot) (b : Nat) : List.Forall₂ SameClaim n.claims (n.share b) := by
  obtain ⟨r, hshared⟩ := share_from n b
  exact hshared.same

/-- The shares are between minimum and cap, and within the rooms. -/
theorem share_within (n : Snapshot) (b : Nat) : (∀ x ∈ n.share b, x.GrantBetween)
    ∧ granted (n.share b) ≤ (n.startRooms n.claims b).site
    ∧ ∀ f, granted (onFeeder f (n.share b)) ≤ (n.startRooms n.claims b).feeder f := by
  obtain ⟨r, hshared⟩ := share_from n b
  exact ⟨hshared.between, hshared.site ▸ Nat.le_add_right _ _, fun f => hshared.feeder f ▸ Nat.le_add_right _ _⟩

/-- The grants after the hold-back are between minimum and cap, and no larger than the shares on the site and on each feeder. -/
theorem holdBack_below (n : Snapshot) (b : Nat) (cs : List Claim) (h : ∀ x ∈ cs, x.GrantBetween) :
    (∀ x ∈ n.holdBack b cs, x.GrantBetween) ∧ granted (n.holdBack b cs) ≤ granted cs
      ∧ ∀ f, granted (onFeeder f (n.holdBack b cs)) ≤ granted (onFeeder f cs) := by
  have htrim := holdBack_trimmed n b cs
  exact ⟨forall_mem_of_forall₂ (fun _ _ hxy => hxy.between) htrim h, granted_mono htrim.below,
    fun f => granted_mono (onFeeder_below f htrim.below)⟩

/-! ## The statement -/

theorem visited_eq (c : Claim) (r : Rooms) : visited c r =
    if c.cls ≠ .firm ∧ 0 < c.g ∧ c.g < c.cap ∧ 1 ≤ r.site ∧ 1 ≤ r.feeder c.feeder then { c with g := c.g + 1 } else c :=
  if_congr (takes_iff c r) rfl rfl

/-- Settles O48: the walk and the rounds are each followed session by session in the rooms left by those before, the rounds as an
iterate; the hold-back only lowers grants. -/
theorem admissionAndSharing : Obligations.AdmissionAndSharing := by
  unfold Obligations.AdmissionAndSharing
  refine ⟨fun n b => ?_, fun cs r => ?_⟩
  · intro cs idle site feeder admitted shared final
    have hsite : (n.startRooms cs b).site = site := congrArg (b - ·) (idleStanding_eq n cs _)
    have hfeeder : ∀ f, (n.startRooms cs b).feeder f = feeder f := fun f =>
      (startRooms_feeder n cs b f).trans (congrArg (n.feederLimits[f.val] - ·) (idleStanding_eq n cs _))
    obtain ⟨hroomsite, hroomfeeder⟩ := admitWalk_rooms cs (n.startRooms cs b)
    obtain ⟨hbetween, hwithin, hwithinfeeder⟩ := share_within n b
    obtain ⟨hbetween', hless, hlessfeeder⟩ := holdBack_below n b (n.share b) hbetween
    refine ⟨hsite, hfeeder, (admitWalk_same cs _).length_eq.symm, fun i c hc => ?_, ?_, fun f => ?_,
      share_iterate n b, hbetween, hbetween', hsite ▸ hwithin, hsite ▸ hless.trans hwithin,
      fun f => ⟨hfeeder f ▸ hwithinfeeder f, hfeeder f ▸ (hlessfeeder f).trans (hwithinfeeder f)⟩,
      (holdBack_trimmed n b _).imp fun _ _ h => ⟨h.1, h.2.1⟩⟩
    · intro before room
      obtain ⟨here, hheresite, hherefeeder, hget⟩ := admitWalk_get cs (n.startRooms cs b) i hc
      have hroom : min here.site (here.feeder c.feeder) = room := by
        rw [hheresite, hherefeeder, hsite, hfeeder]
        rfl
      rw [← hroom]
      exact hget
    · rw [← hsite]
      exact hroomsite
    · rw [← hfeeder]
      exact hroomfeeder f
  · intro next
    refine ⟨(shareRound_raised cs r).length_eq.symm, fun i c hc => ?_⟩
    intro given here site feeder
    obtain ⟨left, hsite, hfeeder, hget⟩ := shareRound_get cs r i hc
    have hsite' : left.site = site := hsite
    have hfeeder' : left.feeder c.feeder = feeder := hfeeder c.feeder
    rw [← hsite', ← hfeeder', ← visited_eq]
    exact hget

end Sys2Proof.Machine
end

section
/-! # The stages of a pass computed from its snapshot (R75 to R80) -/

namespace Sys2Proof.Machine

/-! ## Claims and members -/

theorem eligible_iff (n : Snapshot) (m : SnapMember) : n.eligible m = true ↔
    (m.state = .waiting ∨ m.state = .charging) ∧ m.runPermit = true
      ∧ (n.bays[m.bay.val]).online = true ∧ (n.bays[m.bay.val]).state = .occupied
      ∧ (n.bays[m.bay.val]).session = some m.slot ∧ (n.bays[m.bay.val]).stopFlag = false := by
  simp only [Snapshot.eligible, Bool.and_eq_true, Bool.or_eq_true, beq_iff_eq, Bool.not_eq_true', and_assoc]

theorem wantCap_none {cls : SessionClass} {demand firm lo hi : Nat} (h : min demand hi = 0) :
    wantCap cls demand firm lo hi = (0, 0) := if_pos h

theorem wantCap_firm {demand firm lo hi : Nat} (h : 0 < min demand hi) : wantCap .firm demand firm lo hi =
    (max (min firm (min demand hi)) lo, max (min firm (min demand hi)) lo) := if_neg h.ne'

theorem wantCap_other {cls : SessionClass} {demand firm lo hi : Nat} (h : 0 < min demand hi) (hcls : cls ≠ .firm) :
    wantCap cls demand firm lo hi = (lo, max (min demand hi) lo) := by
  have hd := h.ne'
  cases cls with
  | firm => exact absurd rfl hcls
  | rapid => exact if_neg hd
  | ordinary => exact if_neg hd

theorem wantCap_cap_le (cls : SessionClass) (demand firm : Nat) {lo hi : Nat} (h : lo ≤ hi) :
    (wantCap cls demand firm lo hi).2 ≤ hi := by
  rcases Nat.eq_zero_or_pos (min demand hi) with hd | hd
  · rw [wantCap_none hd]
    exact Nat.zero_le _
  by_cases hcls : cls = .firm
  · rw [hcls, wantCap_firm hd]
    dsimp only
    omega
  · rw [wantCap_other hd hcls]
    dsimp only
    omega

/-- A claim is that of a member of the snapshot, whatever its grant. -/
def Snapshot.ClaimOf (n : Snapshot) (m : SnapMember) (x : Claim) : Prop := x = { n.claim m with g := x.g }

/-- What the claim of a member says of it. -/
theorem Snapshot.ClaimOf.fields {n : Snapshot} {m : SnapMember} {x : Claim} (h : n.ClaimOf m x) :
    x.slot = m.slot ∧ x.sequence = m.sequence ∧ x.bay = m.bay ∧ x.cls = m.cls ∧ x.feeder = (n.bays[m.bay.val]).feeder
      ∧ x.min = (n.bays[m.bay.val]).minSteps ∧ x.h = (n.bays[m.bay.val]).standing
      ∧ (min m.demand (n.bays[m.bay.val]).maxSteps = 0 → x.want = 0 ∧ x.cap = 0)
      ∧ (0 < min m.demand (n.bays[m.bay.val]).maxSteps → m.cls = .firm →
        x.want = max (min m.firmSteps (min m.demand (n.bays[m.bay.val]).maxSteps)) (n.bays[m.bay.val]).minSteps
          ∧ x.cap = x.want)
      ∧ (0 < min m.demand (n.bays[m.bay.val]).maxSteps → m.cls ≠ .firm →
        x.want = (n.bays[m.bay.val]).minSteps
          ∧ x.cap = max (min m.demand (n.bays[m.bay.val]).maxSteps) (n.bays[m.bay.val]).minSteps) := by
  unfold Snapshot.ClaimOf at h
  rw [h]
  refine ⟨rfl, rfl, rfl, rfl, rfl, rfl, rfl, fun hd => ?_, fun hd hcls => ?_, fun hd hcls => ?_⟩
  · simp only [Snapshot.claim, wantCap_none hd, and_self]
  · simp only [Snapshot.claim, hcls, wantCap_firm hd, and_self]
  · simp only [Snapshot.claim, wantCap_other hd hcls, and_self]

/-- The claims without their grants. -/
def ungranted (l : List Claim) : List Claim := l.map fun x => { x with g := 0 }

theorem ungranted_same {l m : List Claim} (h : List.Forall₂ SameClaim l m) : ungranted m = ungranted l := by
  induction h with
  | nil => rfl
  | @cons x y l m hxy _ ih =>
    have hhead : { y with g := 0 } = { x with g := 0 } := by
      unfold SameClaim at hxy
      rw [hxy]
    rw [ungranted, List.map_cons, hhead]
    exact congrArg _ ih

theorem ungranted_claims (n : Snapshot) : ungranted n.claims = n.claims := by
  rw [ungranted, Snapshot.claims, List.map_map]
  rfl

/-- The claims a pass has computed are the claims of its snapshot, with grants. -/
theorem compute_ungranted (n : Snapshot) : ungranted n.compute.claims = n.claims := by
  rw [compute_claims, ungranted_same (holdBack_trimmed n _ _).same, ungranted_same (share_same n _), ungranted_claims]

theorem map_ungranted {α : Type} {f : Claim → α} (hf : ∀ x : Claim, f { x with g := 0 } = f x) (l : List Claim) :
    (ungranted l).map f = l.map f := by
  rw [ungranted, List.map_map]
  exact List.map_congr_left fun x _ => hf x

theorem compute_member (n : Snapshot) {x : Claim} (hx : x ∈ n.compute.claims) :
    ∃ m ∈ n.queue, n.eligible m = true ∧ n.ClaimOf m x := by
  have hmem : { x with g := 0 } ∈ n.claims := compute_ungranted n ▸ List.mem_map_of_mem hx
  obtain ⟨m, hm, heq⟩ := List.mem_map.mp hmem
  obtain ⟨hqueue, helig⟩ := List.mem_filter.mp hm
  refine ⟨m, hqueue, helig, ?_⟩
  unfold Snapshot.ClaimOf
  rw [heq]

theorem compute_claim (n : Snapshot) {m : SnapMember} (hm : m ∈ n.queue) (helig : n.eligible m = true) :
    ∃ x ∈ n.compute.claims, n.ClaimOf m x := by
  have hmem : n.claim m ∈ ungranted n.compute.claims :=
    (compute_ungranted n).symm ▸ List.mem_map_of_mem (List.mem_filter.mpr ⟨hm, helig⟩)
  obtain ⟨x, hx, heq⟩ := List.mem_map.mp hmem
  refine ⟨x, hx, ?_⟩
  unfold Snapshot.ClaimOf
  rw [← heq]

theorem compute_slots (n : Snapshot) : (n.compute.claims.map (·.slot)).Sublist (n.queue.map (·.slot)) := by
  have hslots : n.compute.claims.map (·.slot) = (n.queue.filter n.eligible).map (·.slot) := by
    rw [← map_ungranted (fun _ => rfl), compute_ungranted, Snapshot.claims, List.map_map]
    rfl
  rw [hslots]
  exact List.filter_sublist.map _

theorem Snapshot.ClaimOf.cap_le {n : Snapshot} {m : SnapMember} {x : Claim} (hclaim : n.ClaimOf m x)
    (h : (n.bays[x.bay.val]).minSteps ≤ (n.bays[x.bay.val]).maxSteps) : x.cap ≤ (n.bays[x.bay.val]).maxSteps := by
  have hbay : x.bay = m.bay := congrArg Claim.bay hclaim
  have hcap : x.cap = (wantCap m.cls m.demand m.firmSteps (n.bays[m.bay.val]).minSteps (n.bays[m.bay.val]).maxSteps).2 :=
    congrArg Claim.cap hclaim
  simp only [hbay] at h ⊢
  rw [hcap]
  exact wantCap_cap_le _ _ _ h

/-! ## Battery and budget (R79, R80) -/

theorem batteryAvailable_iff (n : Snapshot) :
    n.batteryAvailable = true ↔ n.batteryDeclared = true ∧ n.batteryOnline = true ∧ n.reserve = .free := by
  simp only [Snapshot.batteryAvailable, Bool.and_eq_true, beq_iff_eq, and_assoc]

theorem discharge_eq {n : Snapshot} {dm : Nat} (hlt : n.b0 < dm) (ha : n.batteryAvailable = true) (hp : n.permit = true) :
    (n.discharge dm : Int) = min (n.pDis : Int) (dm - n.b0) := by
  rw [Snapshot.discharge, if_pos ⟨hlt, ha, hp⟩]
  omega

theorem discharge_none {n : Snapshot} {dm : Nat} (h : ¬ (n.b0 < dm ∧ n.batteryAvailable = true ∧ n.permit = true)) :
    n.discharge dm = 0 := if_neg h

theorem charge_eq {n : Snapshot} {dm : Nat} (hlt : (dm : Int) < n.b0) (ha : n.batteryAvailable = true)
    (hs : n.soe < n.eCap) : (n.charge dm : Int) = min (n.pCh : Int) (min (n.b0 - dm) n.canopy) := by
  rw [Snapshot.charge, if_pos ⟨hlt, ha, hs⟩]
  omega

theorem charge_none {n : Snapshot} {dm : Nat} (h : ¬ ((dm : Int) < n.b0 ∧ n.batteryAvailable = true ∧ n.soe < n.eCap)) :
    n.charge dm = 0 := if_neg h

theorem discharge_or_charge (n : Snapshot) (dm : Nat) : n.discharge dm = 0 ∨ n.charge dm = 0 := by
  by_cases h : n.b0 < dm
  · refine .inr (charge_none ?_)
    rintro ⟨hlt, -, -⟩
    omega
  · refine .inl (discharge_none ?_)
    rintro ⟨hlt, -, -⟩
    exact h hlt

theorem compute_held (n : Snapshot) : n.compute.held = (n.compute.claims.filter Claim.held).length := by
  rw [Snapshot.compute]

theorem compute_trimmed (n : Snapshot) :
    n.compute.trimmed = trimmedCount (n.share n.compute.budget) n.compute.claims := by
  rw [compute_budget, compute_discharge, compute_charge, Snapshot.compute]

/-! ## The snapshot -/

theorem takeSnapshot_bay (s : State) (b : BayId) : s.takeSnapshot.bays[b.val] = s.snapBay b := by
  simp only [State.takeSnapshot, Vector.getElem_ofFn]

theorem takeSnapshot_inverter (s : State) (k : InverterId) : s.takeSnapshot.inverters[k.val] = s.snapInverter k := by
  simp only [State.takeSnapshot, Vector.getElem_ofFn]

theorem standing_undeclared {s : State} {b : BayId} (h : (s.bay b).declared = false) : s.standing b = 0 := by
  rw [State.standing, h]
  rfl

theorem standing_declared {s : State} {b : BayId} (h : (s.bay b).declared = true) :
    s.standing b = max (s.bay b).committed (s.wireStanding b) := if_pos h

theorem bayEntry_iff (e : Entry) (b : BayId) : e = (Role.bay b).entry ↔ e.val = b.val := Fin.ext_iff

theorem wireStanding_sending {s : State} {b : BayId} {p : Poll} (h : s.flc.exchange = .sending p)
    (he : p.entry.val = b.val) (hr : p.removed = false) : s.wireStanding b =
      max ((s.bay b).kind.toSteps (s.bayDevice b).lastSent.toNat) ((s.bay b).kind.toSteps p.value.toNat) := by
  unfold State.wireStanding
  rw [h]
  exact if_pos ⟨(bayEntry_iff _ b).mpr he, hr⟩

theorem wireStanding_idle {s : State} {b : BayId}
    (h : ∀ p, s.flc.exchange = .sending p → p.entry.val ≠ b.val ∨ p.removed = true) :
    s.wireStanding b = (s.bay b).kind.toSteps (s.bayDevice b).lastSent.toNat := by
  unfold State.wireStanding
  cases hx : s.flc.exchange with
  | sending p =>
    refine if_neg ?_
    rintro ⟨he, hr⟩
    rcases h p hx with hne | hremoved
    · exact hne ((bayEntry_iff _ b).mp he)
    · exact Bool.false_ne_true (hr.symm.trans hremoved)
  | _ => rfl

/-- Settles O47: each stage has its equation; the claims with their grants taken away are those of the eligible members. -/
theorem budgetComputed : Obligations.BudgetComputed := by
  unfold Obligations.BudgetComputed
  refine ⟨fun n => ?_, fun s => ?_⟩
  · intro c eligible claims available
    have havailable : n.batteryAvailable = true ↔ available := batteryAvailable_iff n
    refine ⟨?_, compute_canopy n, ?_, fun x hx => ?_, fun m hm helig => ?_, compute_slots n, compute_ungranted n,
      fun x hx hlt => ?_, ?_, fun hlt ha hp => ?_, fun h => ?_, fun hlt ha hs => ?_, fun h => ?_, ?_, ?_,
      compute_claims n, ?_, compute_trimmed n⟩
    · rw [show c.load = n.load from compute_load n, Snapshot.load]
      simp only [Bool.and_eq_true]
    · rw [show c.b0 = n.b0 from compute_b0 n, show c.load = n.load from compute_load n,
        show c.canopy = n.canopy from compute_canopy n]
      rfl
    · obtain ⟨m, hm, helig, hclaim⟩ := compute_member n hx
      exact ⟨m, hm, (eligible_iff n m).mp helig, hclaim.fields⟩
    · obtain ⟨x, hx, hclaim⟩ := compute_claim n hm ((eligible_iff n m).mpr helig)
      exact ⟨x, hx, hclaim.fields⟩
    · obtain ⟨m, -, -, hclaim⟩ := compute_member n hx
      exact hclaim.cap_le hlt
    · rw [← map_ungranted (fun _ => rfl), compute_ungranted]
      exact compute_dm n
    · rw [show c.discharge = n.discharge c.dm from compute_discharge n]
      exact discharge_eq hlt (havailable.mpr ha) hp
    · refine (compute_discharge n).trans (discharge_none ?_)
      rw [havailable]
      exact h
    · rw [show c.charge = n.charge c.dm from compute_charge n]
      exact charge_eq hlt (havailable.mpr ha) hs
    · refine (compute_charge n).trans (charge_none ?_)
      rw [havailable]
      exact h
    · rw [show c.discharge = n.discharge c.dm from compute_discharge n,
        show c.charge = n.charge c.dm from compute_charge n]
      exact discharge_or_charge n _
    · rw [show c.budget = n.budget c.discharge c.charge from compute_budget n, Snapshot.budget, Int.toNat_eq_max, max_comm]
      rfl
    · rw [show c.held = _ from compute_held n]
      refine congrArg List.length (List.filter_congr fun x _ => ?_)
      simp only [Claim.held, Bool.decide_and, beq_eq_decide]
  · intro n
    refine ⟨⟨rfl, rfl, rfl, rfl, rfl, rfl, rfl, rfl, rfl, rfl, rfl, rfl⟩, ?_, ⟨rfl, beq_iff_eq, rfl, beq_iff_eq⟩,
      fun k => ?_, rfl, fun b => ?_⟩
    · change s.takeSnapshot.fallbackLoad = _
      unfold State.takeSnapshot
      cases hf : s.sc.fallback <;> rfl
    · rw [takeSnapshot_inverter, State.snapInverter, beq_eq_decide]
    · intro y sent
      refine ⟨takeSnapshot_bay s b, standing_undeclared, fun hd => ⟨fun p hp he hr => ?_, fun h => ?_⟩⟩
      · rw [standing_declared hd, wireStanding_sending hp he hr]
      · rw [standing_declared hd, wireStanding_idle h]

end Sys2Proof.Machine
end

section
/-! # The end of a pass (R69, R84 to R90) -/

namespace Sys2Proof.Machine

/-! ## Eligibility at the end -/

theorem stillEligible_iff (s : State) (x : Claim) : s.stillEligible x = true ↔
    (s.bay x.bay).session = some x.slot ∧ (s.slot x.slot).sequence = x.sequence
      ∧ ((s.slot x.slot).state = .waiting ∨ (s.slot x.slot).state = .charging) ∧ (s.slot x.slot).runPermit = true
      ∧ s.bayOnline x.bay = true ∧ (s.bay x.bay).stopFlag = false := by
  simp only [State.stillEligible, Bool.and_eq_true, Bool.or_eq_true, beq_iff_eq, Bool.not_eq_true', and_assoc]

/-- A bay has a claim whose session still is eligible. -/
def State.ClaimAt (s : State) (cs : List Claim) (b : BayId) (x : Claim) : Prop :=
  x ∈ cs ∧ x.bay = b ∧ s.stillEligible x = true

/-- The grant of a bay: that of a claim still eligible there, else 0, unless an offline bay has a live session. -/
theorem grantFor_cases (s : State) (cs : List Claim) (b : BayId) :
    (∃ x, s.ClaimAt cs b x ∧ s.grantFor cs b = some x.g)
      ∨ ((∀ x, ¬ s.ClaimAt cs b x)
        ∧ s.grantFor cs b = if s.bayOnline b = false ∧ (s.liveSlot b).isSome = true then none else some 0) := by
  unfold State.grantFor
  cases hfound : cs.find? fun c => c.bay == b && s.stillEligible c with
  | some x =>
    have hx := List.find?_some hfound
    simp only [Bool.and_eq_true, beq_iff_eq] at hx
    exact .inl ⟨x, ⟨List.mem_of_find?_eq_some hfound, hx⟩, rfl⟩
  | none =>
    refine .inr ⟨fun x hx => ?_, ?_⟩
    · obtain ⟨hmem, hbay, hstill⟩ := hx
      have hnone := List.find?_eq_none.mp hfound x hmem
      simp only [Bool.and_eq_true, beq_iff_eq] at hnone
      exact hnone ⟨hbay, hstill⟩
    · simp only [Bool.and_eq_true, Bool.not_eq_true']

theorem grantedBay_undeclared {s : State} {b : BayId} (cs : List Claim) (y : Bay) (h : (s.bay b).declared = false) :
    grantedBay s cs b y = y := if_neg (by rw [h]; exact Bool.false_ne_true)

theorem grantedBay_given {s : State} {cs : List Claim} {b : BayId} {g : Nat} (y : Bay) (h : (s.bay b).declared = true)
    (hg : s.grantFor cs b = some g) : grantedBay s cs b y = y.withGrants g y.grantAck := by
  unfold grantedBay
  rw [if_pos h, hg]

theorem grantedBay_frozen {s : State} {cs : List Claim} {b : BayId} (y : Bay) (hg : s.grantFor cs b = none) :
    grantedBay s cs b y = y := by
  unfold grantedBay
  rw [hg]
  exact ite_self _

/-- A bay is given a grant when it is declared and has an eligible claim, an ONLINE link or no live session. -/
theorem grantFor_given {s : State} {cs : List Claim} {b : BayId}
    (h : (∃ x, s.ClaimAt cs b x) ∨ s.bayOnline b = true ∨ s.liveSlot b = none) : ∃ g, s.grantFor cs b = some g := by
  rcases grantFor_cases s cs b with ⟨x, -, hg⟩ | ⟨hnone, hg⟩
  · exact ⟨x.g, hg⟩
  · refine ⟨0, hg.trans (if_neg ?_)⟩
    rintro ⟨hoff, hlive⟩
    rcases h with ⟨x, hx⟩ | hon | hidle
    · exact hnone x hx
    · exact Bool.false_ne_true (hoff.symm.trans hon)
    · rw [hidle] at hlive
      exact Bool.false_ne_true hlive

theorem grantFor_frozen {s : State} {cs : List Claim} {b : BayId}
    (h : ¬ ((∃ x, s.ClaimAt cs b x) ∨ s.bayOnline b = true ∨ s.liveSlot b = none)) : s.grantFor cs b = none := by
  simp only [not_or, not_exists] at h
  obtain ⟨hclaims, hoff, hlive⟩ := h
  rcases grantFor_cases s cs b with ⟨x, hx, -⟩ | ⟨-, hg⟩
  · exact absurd hx (hclaims x)
  · exact hg.trans (if_pos ⟨Bool.eq_false_of_not_eq_true hoff, Option.isSome_iff_ne_none.mpr hlive⟩)

/-- The grant of a bay with one claim still eligible is that claim's. -/
theorem grantFor_only {s : State} {cs : List Claim} {b : BayId} {x : Claim} (hx : s.ClaimAt cs b x)
    (honly : ∀ z, s.ClaimAt cs b z → z = x) : s.grantFor cs b = some x.g := by
  rcases grantFor_cases s cs b with ⟨z, hz, hg⟩ | ⟨hnone, -⟩
  · rw [hg, honly z hz]
  · exact absurd hx (hnone x)

/-! ## The pass state while the grants are written -/

theorem requestPassIf_running {t : State} (c : Bool) (h : t.al.passState = .running) :
    (requestPassIf c t).al = t.al ∨ (requestPassIf c t).al = { t.al with again := true } := by
  cases c with
  | false => exact .inl rfl
  | true =>
    refine .inr ?_
    change (requestPass t).al = _
    rw [requestPass_running h]

theorem grantStep_al {s : State} {cs : List Claim} {t : State} (b : BayId) (h : t.al.passState = .running) :
    (grantStep s cs t b).al = t.al ∨ (grantStep s cs t b).al = { t.al with again := true } := by
  unfold grantStep
  split
  · cases s.grantFor cs b with
    | none => exact .inl rfl
    | some g => exact requestPassIf_running (t := t.setBay b _) _ h
  · exact .inl rfl

/-- In a RUNNING pass the writing of the grants can set the again flag, and writes nothing else in AL. -/
theorem writeAllGrants_al {s : State} (cs : List Claim) (h : s.al.passState = .running) :
    (writeAllGrants cs s).al = s.al ∨ (writeAllGrants cs s).al = { s.al with again := true } := by
  rw [writeAllGrants_eq]
  refine List.foldlRecOn (indices 48) (grantStep s cs) (motive := fun t => t.al = s.al ∨ t.al = { s.al with again := true })
    (.inl rfl) fun t ht b _ => ?_
  have hrun : t.al.passState = .running := by rcases ht with ht | ht <;> rw [ht] <;> exact h
  rcases grantStep_al (s := s) (cs := cs) b hrun with hstep | hstep
  · rw [hstep]
    exact ht
  · refine .inr ?_
    rcases ht with ht | ht <;> rw [hstep, ht]

/-! ## The state with all its writes -/

/-- The state after the grants, the session states and the notice of a pass. -/
def grantedPass (n : Snapshot) (s : State) : State :=
  countHeld n.compute.held (writeSessionStates n.compute.claims (writeAllGrants n.compute.claims s))

/-- The state after the writes of a pass, before the next pass or the refresh timer. -/
def writtenPass (n : Snapshot) (s : State) : State := writeResults n n.compute (grantedPass n s)

theorem endPass_eq (n : Snapshot) (s : State) : endPass n s = finishPass (writtenPass n s) := rfl

theorem finishPass_keeps {α : Type} (f : State → α)
    (hf : ∀ t p g x r, f { t with al.passState := p, al.again := g, al.snapshot := x, al.refresh := r } = f t) (s : State) :
    f (finishPass s) = f s := by
  unfold finishPass
  split
  · exact hf s _ _ _ _
  · exact hf s .idle s.al.again none _

theorem countHeld_keeps {α : Type} (f : State → α) (hf : ∀ t h, f { t with hp := h } = f t) (held : Nat) (s : State) :
    f (countHeld held s) = f s := by
  unfold countHeld
  split
  · exact hf s _
  · rfl

theorem writtenPass_bay (n : Snapshot) (s : State) (b : BayId) :
    (writtenPass n s).bay b = grantedBay s n.compute.claims b (s.bay b) := by
  rw [State.bay, writtenPass, grantedPass]
  simp only [writeResults_bays, countHeld_keeps (·.bays) (fun _ _ => rfl), writeSessionStates_bays]
  exact writeAllGrants_bay _ s b

/-- A frame of the writes: what no write of a grant, a slot, a notice or a result touches. -/
theorem writtenPass_keeps {α : Type} (f : State → α) (hg : ∀ b g t, f (writeGrantSet b g t) = f t)
    (hs : ∀ k x t, f (State.setSlot t k x) = f t) (hh : ∀ t h, f { t with hp := h } = f t)
    (hr : ∀ n c t, f (writeResults n c t) = f t) (n : Snapshot) (s : State) : f (writtenPass n s) = f s := by
  rw [writtenPass, grantedPass, hr, countHeld_keeps f hh, writeSessionStates_keeps f hs, writeAllGrants_keeps f hg]

theorem writtenPass_sc (n : Snapshot) (s : State) : (writtenPass n s).sc = s.sc :=
  writtenPass_keeps (·.sc) (fun b g _ => (writeGrants_edits b g _ _).untouched.sc) (fun _ _ _ => rfl) (fun _ _ => rfl)
    writeResults_sc n s

theorem writtenPass_flc (n : Snapshot) (s : State) : (writtenPass n s).flc = s.flc :=
  writtenPass_keeps (·.flc) (fun b g _ => (writeGrants_edits b g _ _).untouched.flc) (fun _ _ _ => rfl) (fun _ _ => rfl)
    writeResults_flc n s

theorem writtenPass_tc (n : Snapshot) (s : State) : (writtenPass n s).tc = s.tc :=
  writtenPass_keeps (·.tc) (fun b g _ => (writeGrants_edits b g _ _).untouched.tc) (fun _ _ _ => rfl) (fun _ _ => rfl)
    writeResults_tc n s

theorem writtenPass_cs (n : Snapshot) (s : State) : (writtenPass n s).cs = s.cs :=
  writtenPass_keeps (·.cs) (fun b g _ => writeGrants_cs b g _ _) (fun _ _ _ => rfl) (fun _ _ => rfl) writeResults_cs n s

theorem writtenPass_runTimer (n : Snapshot) (s : State) : (writtenPass n s).runTimer = s.runTimer :=
  writtenPass_keeps (·.runTimer) (fun b g _ => (writeGrants_edits b g _ _).untouched.runTimer) (fun _ _ _ => rfl)
    (fun _ _ => rfl) writeResults_runTimer n s

/-- The slots after the writes are those after the writing of the session states. -/
theorem writtenPass_slot (n : Snapshot) (s : State) (k : SlotId) : (writtenPass n s).slot k =
    (writeSessionStates n.compute.claims (writeAllGrants n.compute.claims s)).slot k := by
  rw [State.slot, writtenPass, grantedPass]
  simp only [writeResults_st, countHeld_keeps (·.st) (fun _ _ => rfl)]
  rfl

theorem writtenPass_slot_kept {n : Snapshot} {s : State} {k : SlotId}
    (h : ∀ x ∈ n.compute.claims, x.slot = k → s.stillEligible x = false) : (writtenPass n s).slot k = s.slot k := by
  rw [writtenPass_slot]
  rcases writeSessionStates_slot n.compute.claims (writeAllGrants n.compute.claims s) k with ⟨hslot, -⟩ | ⟨x, hx, hk, hstill, -⟩
  · rw [hslot, State.slot, writeAllGrants_st, State.slot]
  · rw [stillEligible_writeAllGrants, h x hx hk] at hstill
    exact absurd hstill Bool.false_ne_true

theorem writtenPass_slot_only {n : Snapshot} {s : State} {x : Claim} (hx : x ∈ n.compute.claims)
    (hstill : s.stillEligible x = true) (honly : ∀ z ∈ n.compute.claims, z.slot = x.slot → z = x) :
    (writtenPass n s).slot x.slot = { s.slot x.slot with state := if 0 < x.g then .charging else .waiting } := by
  rw [writtenPass_slot]
  rcases writeSessionStates_slot n.compute.claims (writeAllGrants n.compute.claims s) x.slot with ⟨-, hnone⟩ | ⟨z, hz, hk, -, hslot⟩
  · have hno := hnone x hx rfl
    rw [stillEligible_writeAllGrants, hstill] at hno
    exact absurd hno.symm Bool.false_ne_true
  · rw [hslot, honly z hz hk, State.slot, writeAllGrants_st, State.slot]

theorem writtenPass_hp (n : Snapshot) (s : State) : (writtenPass n s).hp = (grantedPass n s).hp :=
  writeResults_hp _ _ _

theorem writtenPass_hp_none {n : Snapshot} {s : State} (h : n.compute.held = 0) : (writtenPass n s).hp = s.hp := by
  rw [writtenPass_hp, grantedPass, h, countHeld, if_neg (Nat.lt_irrefl 0), writeSessionStates_hp, writeAllGrants_hp]

theorem writtenPass_counted {n : Snapshot} {s : State} (h : 0 < n.compute.held) :
    Counted .supplyShort n.compute.held 0 s (writtenPass n s) := by
  have hcount := counted_countNotice .supplyShort n.compute.held 0
    (writeSessionStates n.compute.claims (writeAllGrants n.compute.claims s))
  have hbefore : (writeSessionStates n.compute.claims (writeAllGrants n.compute.claims s)).hp = s.hp := by
    rw [writeSessionStates_hp, writeAllGrants_hp]
  refine (hcount.of_hp hbefore).of_after ?_
  rw [writtenPass_hp, grantedPass, countHeld, if_pos h]

theorem countHeld_port (held : Nat) (s : State) : (countHeld held s).hp.port = s.hp.port := by
  unfold countHeld
  split <;> rfl

theorem writtenPass_port (n : Snapshot) (s : State) : (writtenPass n s).hp.port = s.hp.port := by
  rw [writtenPass_hp, grantedPass, countHeld_port, writeSessionStates_hp, writeAllGrants_hp]

/-- What does not read the again flag is in AL as it was before the grants were written. -/
theorem grantedPass_al {α : Type} (f : Allocator → α) (hf : ∀ a, f { a with again := true } = f a) (n : Snapshot) {s : State}
    (h : s.al.passState = .running) : f (grantedPass n s).al = f s.al := by
  rw [grantedPass, countHeld_keeps (·.al) (fun _ _ => rfl), writeSessionStates_al]
  rcases writeAllGrants_al n.compute.claims h with hal | hal
  · rw [hal]
  · rw [hal]
    exact hf s.al

theorem writtenPass_again {n : Snapshot} {s : State} (h : s.al.passState = .running) (hagain : s.al.again = true) :
    (writtenPass n s).al.again = true := by
  rw [writtenPass, writeResults_again, grantedPass, countHeld_keeps (·.al) (fun _ _ => rfl), writeSessionStates_al]
  rcases writeAllGrants_al n.compute.claims h with hal | hal <;> rw [hal]
  exact hagain

theorem writtenPass_not_again {n : Snapshot} {s : State}
    (hlow : ∀ b, (s.bay b).committed ≤ ((writtenPass n s).bay b).committed) (hagain : s.al.again = false) :
    (writtenPass n s).al.again = false := by
  rw [writtenPass, writeResults_again, grantedPass, countHeld_keeps (·.al) (fun _ _ => rfl), writeSessionStates_al,
    writeAllGrants_al_of_none_lowered]
  · exact hagain
  · intro b
    rw [writeAllGrants_bay, ← writtenPass_bay]
    exact hlow b

/-! ## The results -/

theorem writeResults_battery (n : Snapshot) (c : Computed) (u : State) : (writeResults n c u).al.battery =
    { u.al.battery with setpoint := u.passSetpoint c.discharge c.charge, fresh := false } := by
  unfold writeResults
  dsimp only [writeLimits]

theorem writeResults_permit (n : Snapshot) (c : Computed) (u : State) : (writeResults n c u).al.permit = u.al.permit := by
  unfold writeResults
  dsimp only [writeLimits]

theorem writeResults_storeLoad (n : Snapshot) (c : Computed) (u : State) :
    (writeResults n c u).al.storeLoad = u.al.storeLoad := by
  unfold writeResults
  dsimp only [writeLimits]

theorem writeResults_lastPass (n : Snapshot) (c : Computed) (u : State) : (writeResults n c u).al.lastPass = {
    load := c.load, canopy := c.canopy, b0 := c.b0, dm := c.dm, discharge := c.discharge, charge := c.charge
    budget := c.budget, granted := u.grantSum, netImport := c.netImport u.grantSum
    curtailed := c.curtailment u.grantSum n.exportCap, setpoint := u.passSetpoint c.discharge c.charge
    batteryAvailable := n.batteryAvailable, held := c.held, trimmed := c.trimmed } := by
  unfold writeResults
  dsimp only [writeLimits]

/-- An inverter after the results: its limit, or its mark taken away. -/
theorem writeResults_inverter (n : Snapshot) (c : Computed) (u : State) (k : InverterId) : (writeResults n c u).inverter k =
    if (n.inverters[k.val]).declared = true ∧ (u.device (Role.canopy k).entry).declared = true ∧ (u.inverter k).fresh = false
    then { u.inverter k with limit := n.limitFor (c.curtailment u.grantSum n.exportCap) n.inverters[k.val] }
    else { u.inverter k with fresh := false } := by
  unfold writeResults writeLimits State.inverter
  simp only [Vector.getElem_ofFn]

theorem passSetpoint_eq (u : State) (discharge charge : Nat) : u.passSetpoint discharge charge =
    if u.sc.reserve ≠ .free ∨ u.al.battery.fresh = true then 0
    else if 0 < discharge then (discharge : Int) else -(charge : Int) := by
  unfold State.passSetpoint
  split
  · rfl
  · split
    · rfl
    · split <;> omega

theorem grantSum_congr {s t : State} (h : t.bays = s.bays) : t.grantSum = s.grantSum := by
  unfold State.grantSum State.bay
  rw [h]

theorem sharesOf_none (a d q p : Nat) : (sharesOf a d q 0 p).solar = 0 ∧ (sharesOf a d q 0 p).battery = 0 := ⟨rfl, rfl⟩

theorem sharesOf_some {g : Nat} (a d q p : Nat) (h : 0 < g) : (sharesOf a d q g p).solar = min (a - q) g * 1000 / g
    ∧ (sharesOf a d q g p).battery = min d (g - min (a - q) g) * 1000 / g := by
  unfold sharesOf
  dsimp only
  rw [if_pos h]
  exact ⟨rfl, rfl⟩

end Sys2Proof.Machine
end

section
/-! # Passes begin and end (R69, R70, R84 to R91) -/

namespace Sys2Proof.Machine

/-! ## The state a pass ends in -/

/-- The state that PASS_END answers. -/
def endedPass (n : Snapshot) (s : State) : State := completed (finishPass (writtenPass n s))

theorem exec_passEnd {n : Snapshot} {s : State} (hrun : s.al.passState = .running) (hsnap : s.al.snapshot = some n) :
    exec .passEnd s = .next (endedPass n s) := by
  change execPassEnd s = _
  unfold execPassEnd
  rw [hrun, hsnap]
  rfl

theorem finishPass_again {u : State} (h : u.al.again = true) : finishPass u =
    { u with al.again := false, al.passState := .running, al.snapshot := none, al.refresh := none } := if_pos h

theorem finishPass_idle {u : State} (h : u.al.again = false) : finishPass u =
    { u with al.passState := .idle, al.snapshot := none, al.refresh := some (u.runTimer + 5000) } :=
  if_neg (by rw [h]; exact Bool.false_ne_true)

theorem finishPass_begun {u : State} (h : u.al.again = true) : (finishPass u).al.passState = .running
    ∧ (finishPass u).al.snapshot = none ∧ (finishPass u).al.refresh = none ∧ (finishPass u).al.again = false := by
  rw [finishPass_again h]
  exact ⟨rfl, rfl, rfl, rfl⟩

theorem completed_begun {u : State} (hrun : u.al.passState = .running) (hnone : u.al.snapshot = none) :
    (completed u).al.snapshot = some u.takeSnapshot := sampleIfBegun_begun hrun hnone

theorem endedPass_passState (n : Snapshot) (s : State) :
    (endedPass n s).al.passState = if (writtenPass n s).al.again = true then .running else .idle := by
  rw [endedPass, completed_passState]
  cases h : (writtenPass n s).al.again with
  | true => rw [finishPass_again h, if_pos rfl]
  | false => rw [finishPass_idle h, if_neg Bool.false_ne_true]

/-- A pass that follows at once is sampled, with no refresh timer and no further pass asked for. -/
theorem endedPass_running {n : Snapshot} {s : State} (h : (endedPass n s).al.passState = .running) :
    (endedPass n s).al.snapshot = some (endedPass n s).takeSnapshot ∧ (endedPass n s).al.refresh = none
      ∧ (endedPass n s).al.again = false := by
  rw [endedPass_passState] at h
  have hagain : (writtenPass n s).al.again = true := by
    by_contra hno
    rw [if_neg hno] at h
    exact PassState.noConfusion h
  obtain ⟨hrun, hnone, hrefresh, hoff⟩ := finishPass_begun hagain
  rw [endedPass, completed_takeSnapshot, completed_refresh, completed_again]
  exact ⟨completed_begun hrun hnone, hrefresh, hoff⟩

theorem endedPass_idle {n : Snapshot} {s : State} (h : (endedPass n s).al.passState = .idle) :
    (endedPass n s).al.snapshot = none ∧ (endedPass n s).al.refresh = some (s.runTimer + 5000) := by
  rw [endedPass_passState] at h
  have hagain : (writtenPass n s).al.again = false := by
    refine Bool.eq_false_iff.mpr fun hyes => ?_
    rw [if_pos hyes] at h
    exact PassState.noConfusion h
  have hsampled : PassSampled (finishPass (writtenPass n s)) := by
    intro hrun
    rw [finishPass_idle hagain] at hrun
    exact PassState.noConfusion hrun
  rw [endedPass, completed_refresh, completed_al hsampled, finishPass_idle hagain, writtenPass_runTimer]
  exact ⟨rfl, rfl⟩

theorem endedPass_bays (n : Snapshot) (s : State) : (endedPass n s).bays = (writtenPass n s).bays :=
  (completed_bays _).trans (finishPass_keeps (·.bays) (fun _ _ _ _ _ => rfl) _)

theorem endedPass_bay (n : Snapshot) (s : State) (b : BayId) :
    (endedPass n s).bay b = grantedBay s n.compute.claims b (s.bay b) := by
  rw [State.bay, endedPass_bays]
  exact writtenPass_bay n s b

theorem endedPass_slot (n : Snapshot) (s : State) (k : SlotId) : (endedPass n s).slot k = (writtenPass n s).slot k :=
  (completed_slot _ k).trans (finishPass_keeps (State.slot · k) (fun _ _ _ _ _ => rfl) _)

theorem endedPass_hp (n : Snapshot) (s : State) : (endedPass n s).hp = (writtenPass n s).hp :=
  (completed_hp _).trans (finishPass_keeps (·.hp) (fun _ _ _ _ _ => rfl) _)

theorem endedPass_grantSum (n : Snapshot) (s : State) : (endedPass n s).grantSum = (grantedPass n s).grantSum :=
  grantSum_congr ((endedPass_bays n s).trans (writeResults_bays n _ _))

theorem grantedPass_sc (n : Snapshot) (s : State) : (grantedPass n s).sc = s.sc :=
  (writeResults_sc n n.compute _).symm.trans (writtenPass_sc n s)

theorem grantedPass_flc (n : Snapshot) (s : State) : (grantedPass n s).flc = s.flc :=
  (writeResults_flc n n.compute _).symm.trans (writtenPass_flc n s)

/-- What the writes of a pass leave outside the bays, the slots, the notices and the results. -/
theorem endedPass_frame (n : Snapshot) {s : State} (h : s.al.passState = .running) :
    (endedPass n s).al.queue.map (·.slot) = s.al.queue.map (·.slot) ∧ (endedPass n s).al.permit = s.al.permit
      ∧ (endedPass n s).al.storeLoad = s.al.storeLoad ∧ (endedPass n s).sc = s.sc ∧ (endedPass n s).flc = s.flc
      ∧ (endedPass n s).cs = s.cs ∧ (endedPass n s).tc = s.tc ∧ (endedPass n s).hp.port = s.hp.port := by
  have hqueue : (finishPass (writtenPass n s)).al.queue = s.al.queue :=
    (finishPass_keeps (·.al.queue) (fun _ _ _ _ _ => rfl) _).trans
      ((writeResults_queue _ _ _).trans (grantedPass_al (·.queue) (fun _ => rfl) n h))
  have hpermit : (finishPass (writtenPass n s)).al.permit = s.al.permit :=
    (finishPass_keeps (·.al.permit) (fun _ _ _ _ _ => rfl) _).trans
      ((writeResults_permit _ _ _).trans (grantedPass_al (·.permit) (fun _ => rfl) n h))
  have hload : (finishPass (writtenPass n s)).al.storeLoad = s.al.storeLoad :=
    (finishPass_keeps (·.al.storeLoad) (fun _ _ _ _ _ => rfl) _).trans
      ((writeResults_storeLoad _ _ _).trans (grantedPass_al (·.storeLoad) (fun _ => rfl) n h))
  refine ⟨?_, (completed_permit _).trans hpermit, (completed_storeLoad _).trans hload,
    (completed_sc _).trans ((finishPass_keeps (·.sc) (fun _ _ _ _ _ => rfl) _).trans (writtenPass_sc n s)),
    (completed_flc _).trans ((finishPass_keeps (·.flc) (fun _ _ _ _ _ => rfl) _).trans (writtenPass_flc n s)),
    (completed_cs _).trans ((finishPass_keeps (·.cs) (fun _ _ _ _ _ => rfl) _).trans (writtenPass_cs n s)),
    (completed_tc _).trans ((finishPass_keeps (·.tc) (fun _ _ _ _ _ => rfl) _).trans (writtenPass_tc n s)),
    ?_⟩
  · rw [endedPass, completed_queue, hqueue]
  · rw [endedPass_hp, writtenPass_port]

/-! ## The results -/

theorem endedPass_share (n : Snapshot) {s : State} (h : s.al.passState = .running) : (endedPass n s).al.share =
    sharesOf n.compute.canopy n.compute.discharge n.compute.charge (endedPass n s).grantSum
      (nextPassNumber s.al.share.passNumber) := by
  rw [endedPass_grantSum, endedPass, completed_share, finishPass_keeps (·.al.share) (fun _ _ _ _ _ => rfl), writtenPass,
    writeResults_share, grantedPass_al (·.share) (fun _ => rfl) n h]

/-- The setpoint of a pass, from the reserve and the mark of the battery (R89). -/
theorem grantedPass_setpoint (n : Snapshot) {s : State} (h : s.al.passState = .running) (discharge charge : Nat) :
    (grantedPass n s).passSetpoint discharge charge =
      if s.sc.reserve ≠ .free ∨ s.al.battery.fresh = true then 0
      else if 0 < discharge then (discharge : Int) else -(charge : Int) := by
  rw [passSetpoint_eq, grantedPass_sc, grantedPass_al (·.battery) (fun _ => rfl) n h]

theorem endedPass_battery (n : Snapshot) {s : State} (h : s.al.passState = .running) : (endedPass n s).al.battery =
    { s.al.battery with
      setpoint := (grantedPass n s).passSetpoint n.compute.discharge n.compute.charge, fresh := false } := by
  rw [endedPass, completed_battery, finishPass_keeps (·.al.battery) (fun _ _ _ _ _ => rfl), writtenPass,
    writeResults_battery, grantedPass_al (·.battery) (fun _ => rfl) n h]

theorem batteryAvailable_eq (n : Snapshot) : n.batteryAvailable =
    decide (n.batteryDeclared = true ∧ n.batteryOnline = true ∧ n.reserve = .free) := by
  rw [Bool.eq_iff_iff, batteryAvailable_iff, decide_eq_true_eq]

theorem endedPass_lastPass (n : Snapshot) {s : State} (h : s.al.passState = .running) : (endedPass n s).al.lastPass = {
    load := n.compute.load, canopy := n.compute.canopy, b0 := n.compute.b0, dm := n.compute.dm
    discharge := n.compute.discharge, charge := n.compute.charge, budget := n.compute.budget
    granted := (endedPass n s).grantSum, netImport := n.compute.netImport (endedPass n s).grantSum
    curtailed := n.compute.curtailment (endedPass n s).grantSum n.exportCap
    setpoint := (endedPass n s).al.battery.setpoint
    batteryAvailable := decide (n.batteryDeclared = true ∧ n.batteryOnline = true ∧ n.reserve = .free)
    held := n.compute.held, trimmed := n.compute.trimmed } := by
  have hkept : (endedPass n s).al.lastPass = (writtenPass n s).al.lastPass :=
    (completed_lastPass _).trans (finishPass_keeps (·.al.lastPass) (fun _ _ _ _ _ => rfl) _)
  rw [hkept, writtenPass, writeResults_lastPass, endedPass_battery n h, endedPass_grantSum, ← batteryAvailable_eq]

theorem endedPass_inverter (n : Snapshot) {s : State} (h : s.al.passState = .running) (k : InverterId) :
    (endedPass n s).inverter k =
      if (n.inverters[k.val]).declared = true ∧ (s.device (Role.canopy k).entry).declared = true ∧ (s.inverter k).fresh = false
      then { s.inverter k with
        limit := n.limitFor (n.compute.curtailment (endedPass n s).grantSum n.exportCap) n.inverters[k.val] }
      else { s.inverter k with fresh := false } := by
  have hinverter : (grantedPass n s).inverter k = s.inverter k :=
    grantedPass_al (fun a => a.inverters[k.val]) (fun _ => rfl) n h
  have hdevice : (grantedPass n s).device (Role.canopy k).entry = s.device (Role.canopy k).entry := by
    rw [State.device, grantedPass_flc, State.device]
  rw [endedPass_grantSum, endedPass, completed_inverter, finishPass_keeps (State.inverter · k) (fun _ _ _ _ _ => rfl),
    writtenPass, writeResults_inverter, hinverter, hdevice]

theorem limitFor_eq (n : Snapshot) (total : Option Nat) (w : SnapInverter) : n.limitFor total w =
    match total with
    | some m => m * w.rating / n.ratingSum
    | none => w.rating := by
  cases total <;> rfl

/-! ## The grants -/

theorem Snapshot.ClaimOf.min_eq {n : Snapshot} {m : SnapMember} {x : Claim} (hclaim : n.ClaimOf m x) :
    x.min = (n.bays[x.bay.val]).minSteps := by
  have hbay : x.bay = m.bay := congrArg Claim.bay hclaim
  simp only [hbay]
  exact congrArg Claim.min hclaim

/-- A grant of a member that is not 0 lies between the minimum and the maximum of its bay. -/
theorem Snapshot.ClaimOf.bounds {n : Snapshot} {m : SnapMember} {x : Claim} {b : BayId} (hclaim : n.ClaimOf m x)
    (hbetween : x.GrantBetween) (hb : x.bay = b) (hg : 0 < x.g)
    (h : (n.bays[b.val]).minSteps ≤ (n.bays[b.val]).maxSteps) :
    (n.bays[b.val]).minSteps ≤ x.g ∧ x.g ≤ (n.bays[b.val]).maxSteps := by
  subst hb
  have hmin := hclaim.min_eq
  have hcap := hclaim.cap_le h
  obtain ⟨hlo, hhi⟩ := hbetween.resolve_left hg.ne'
  omega

theorem compute_between (n : Snapshot) : ∀ x ∈ n.compute.claims, x.GrantBetween := by
  rw [compute_claims]
  exact (holdBack_below n n.compute.budget _ (share_within n n.compute.budget).1).1

/-- A bay record after a write of its grant. -/
theorem withGrants_eq (y : Bay) (g : Nat) : y.withGrants g y.grantAck =
    { y with
      grantSet := (y.withGrants g y.grantAck).grantSet
      ackWait := if y.grantAck ≤ (y.withGrants g y.grantAck).grantSet then none else y.ackWait } := rfl

theorem grantedBay_ack (s : State) (cs : List Claim) (b : BayId) (y : Bay) : (grantedBay s cs b y).grantAck = y.grantAck := by
  unfold grantedBay
  split
  · cases s.grantFor cs b <;> rfl
  · rfl

/-- Settles O46: the refresh begins a pass; the end of a pass writes each record once, and the again flag says what follows. -/
theorem passesBeginAndEnd : Obligations.PassesBeginAndEnd := by
  unfold Obligations.PassesBeginAndEnd
  refine ⟨fun d s hp hrefresh hd hgate hidle => ?_, fun n s hinv hrun hsnap => ?_⟩
  · have hasked : PassAsked s (requestPass { s with al.refresh := none }) := by
      rw [requestPass_begins (s := { s with al.refresh := none }) hidle hgate]
      refine ⟨fun hclosed _ => ?_, fun hrunning => ?_, fun _ _ => ⟨rfl, rfl, rfl⟩⟩
      · exact Gate.noConfusion (hgate.symm.trans hclosed)
      · exact PassState.noConfusion (hidle.symm.trans hrunning)
    refine ⟨completed (requestPass { s with al.refresh := none }), ?_, hasked.completed hp, ?_, ?_⟩
    · change execRefreshTimerExpiry s = _
      rw [execRefreshTimerExpiry, hrefresh, reached_some hd, if_pos rfl, done_eq]
    · simp only [ResultsKept, completed_share, completed_permit, completed_inverters, completed_battery,
        completed_storeLoad, completed_lastPass, requestPass_share, requestPass_permit, requestPass_inverters,
        requestPass_battery, requestPass_storeLoad, requestPass_lastPass, and_self]
    · simp only [completed_sc, completed_flc, completed_bays, completed_st, completed_cs, completed_tc, completed_hp,
        requestPass_sc, requestPass_flc, requestPass_bays, requestPass_st, requestPass_cs, requestPass_tc, requestPass_hp,
        and_self]
  · intro c still
    have hstill : ∀ x, s.stillEligible x = true ↔ still x := stillEligible_iff s
    have hbay := endedPass_bay n s
    have hshare := endedPass_share n hrun
    have hinverter := endedPass_inverter n hrun
    refine ⟨endedPass n s, exec_passEnd hrun hsnap, fun hagain => ?_, fun hagain hlow => ?_, endedPass_running, endedPass_idle,
      fun b hdecl hnone => ?_, fun x hx honly hdecl hx' => ?_, fun b hdecl hpos => ?_, fun b hundecl => ?_, fun b => ?_,
      fun b => ?_, fun k hk => ?_, ?_, ?_, rfl, fun hzero => ?_, fun hpos => ?_, ?_, ⟨fun k => ⟨?_, ?_⟩, ?_⟩, fun hheld => ?_,
      fun hheld => ?_, endedPass_frame n hrun⟩
    · rw [endedPass_passState, if_pos (writtenPass_again hrun hagain)]
    · rw [endedPass_passState, writtenPass_not_again _ hagain, if_neg Bool.false_ne_true]
      intro b
      rw [writtenPass_bay, ← hbay]
      exact hlow b
    · have hno : ∀ x, ¬ s.ClaimAt c.claims b x := fun x ⟨hmem, hb, hs⟩ => hnone x hmem hb ((hstill x).mp hs)
      have hgrant := ((grantFor_cases s c.claims b).resolve_left fun ⟨x, hx, _⟩ => hno x hx).2
      rw [hbay]
      refine ⟨fun hgive => ?_, fun hoff hlive => ?_⟩
      · rw [if_neg] at hgrant
        · rw [grantedBay_given _ hdecl hgrant]
          rfl
        · rintro ⟨hoff, hlive⟩
          rcases hgive with hon | hidle
          · exact Bool.false_ne_true (hoff.symm.trans hon)
          · rw [hidle] at hlive
            exact Bool.false_ne_true hlive
      · rw [if_pos ⟨hoff, hlive⟩] at hgrant
        exact grantedBay_frozen _ hgrant
    · have hat : s.ClaimAt c.claims x.bay x := ⟨hx, rfl, (hstill x).mpr hx'⟩
      have hgrant := grantFor_only hat fun z ⟨hz, hb, _⟩ => honly z hz (.inl hb)
      rw [hbay, grantedBay_given _ hdecl hgrant, endedPass_slot]
      exact ⟨rfl, writtenPass_slot_only hx ((hstill x).mpr hx') fun z hz hk => honly z hz (.inr hk)⟩
    · rw [hbay] at hpos ⊢
      rcases grantFor_cases s c.claims b with ⟨x, ⟨hx, hb, hs⟩, hgrant⟩ | ⟨-, hgrant⟩
      · rw [grantedBay_given _ hdecl hgrant] at hpos ⊢
        obtain ⟨m, -, -, hclaim⟩ := compute_member n hx
        exact .inr ⟨⟨x, hx, hb, (hstill x).mp hs, rfl⟩, hclaim.bounds (compute_between n x hx) hb hpos⟩
      · by_cases hfrozen : s.bayOnline b = false ∧ (s.liveSlot b).isSome = true
        · rw [if_pos hfrozen] at hgrant
          exact .inl (grantedBay_frozen _ hgrant)
        · rw [if_neg hfrozen] at hgrant
          rw [grantedBay_given _ hdecl hgrant] at hpos
          exact absurd hpos (Nat.lt_irrefl 0)
    · rw [hbay]
      exact grantedBay_undeclared _ _ hundecl
    · intro written
      have hwritten : written ↔ (s.bay b).declared = true
          ∧ ((∃ x, s.ClaimAt c.claims b x) ∨ s.bayOnline b = true ∨ s.liveSlot b = none) := by
        refine and_congr_right fun _ => or_congr_left (exists_congr fun x => ?_)
        rw [State.ClaimAt, hstill]
      rw [hwritten, hbay]
      refine ⟨fun ⟨hdecl, hgive⟩ => ?_, fun hnot => ?_⟩
      · obtain ⟨g, hgrant⟩ := grantFor_given hgive
        rw [grantedBay_given _ hdecl hgrant]
        exact withGrants_eq _ g
      · by_cases hdecl : (s.bay b).declared = true
        · exact grantedBay_frozen _ (grantFor_frozen fun hgive => hnot ⟨hdecl, hgive⟩)
        · exact grantedBay_undeclared _ _ (Bool.eq_false_of_not_eq_true hdecl)
    · rw [hbay, Bay.committed, grantedBay_ack]
    · rw [endedPass_slot]
      refine writtenPass_slot_kept fun x hx hxk => ?_
      exact Bool.eq_false_iff.mpr fun hs => hk x hx hxk ((hstill x).mp hs)
    · rw [hshare, sharesOf_passNumber]
      rfl
    · rw [hshare]
      exact sharesOf_sum _ _ _ _ _
    · rw [hshare, hzero]
      exact sharesOf_none _ _ _ _
    · rw [hshare]
      exact sharesOf_some _ _ _ _ hpos
    · rw [endedPass_battery n hrun, grantedPass_setpoint n hrun]
    · intro hw hdev hfresh
      rw [hinverter k, if_pos ⟨hw, hdev, hfresh⟩, limitFor_eq]
      rfl
    · intro hmark
      rw [hinverter k, if_neg]
      rintro ⟨hw, hdev, hfresh⟩
      rcases hmark with hno | hno | hno
      · exact Bool.false_ne_true (hno.symm.trans hw)
      · exact Bool.false_ne_true (hno.symm.trans hdev)
      · exact Bool.false_ne_true (hfresh.symm.trans hno)
    · exact endedPass_lastPass n hrun
    · rw [endedPass_hp, writtenPass_hp_none hheld]
    · exact (writtenPass_counted hheld).of_after (endedPass_hp n s)

end Sys2Proof.Machine
end
